-- ==== Sys2Proof/Word.lean ====
section
/-! DEFINITION. The word of the part: 16 bits, bit 0 least significant (R184). -/

namespace Sys2Proof

/-- A word of exchange memory, of a link register and of a table image (00_scope.md, "Words and numbers"). -/
abbrev Word := BitVec 16

end Sys2Proof
end

