-- ==== Sys2Proof/Syntax.lean ====
section
/-! DEFINITION. The commands of the block: one constructor of `Instr` per row of spec/opcode_table.json. -/

namespace Sys2Proof

/-- The four keys of the panel (R149, R153). -/
inductive Key where
  | ok | up | down | back
  deriving DecidableEq, Repr

/-- Who posted a message entry (R120), in the order of the codes of R184. -/
inductive Origin where
  | link | gauge | lamp | hours | distance | system
  deriving DecidableEq, Repr

/-- A link access that the host may make while the part is in the middle of a scan or a report pass
(R7, R172): a write of one of the five registers or a read of WDAT. The other accesses change nothing. -/
inductive LinkAccess where
  | wctlWrite (w : Word)
  | wadrWrite (w : Word)
  | wdatRead
  | wdatWrite (w : Word)
  | causeWrite (w : Word)
  | stripWrite (w : Word)
  deriving DecidableEq, Repr

/-- A link access together with the place inside the enclosing command at which it is taken (log 13).
In an intake scan place `2 * s` lies after the first tag reading of slot `s` and place `2 * s + 1` after the
value reading of slot `s`. In a report pass place `n` lies after `n` words of the pass have been written. -/
structure MidAccess where
  place : Nat
  access : LinkAccess
  deriving DecidableEq, Repr

/-- The commands. An order's arguments are words of the running strip, read at the event that executes the
order (R176), so the orders carry no operand (log 8). -/
inductive Instr where
  /-- R155. `spoiled`: the places that a cut sector erase leaves neither valid nor blank; `written`: a cut
  calibration write had completed the writing of its record (log 14). -/
  | powerOnReset (spoiled : List Nat) (written : Bool)
  /-- R155. Operands as for a POWER-ON reset. -/
  | hardReset (spoiled : List Nat) (written : Bool)
  /-- R155. -/
  | resetCauseEnd
  /-- R156. `mid`: the link accesses that land inside the first report pass (R172, log 13);
  a sender that names none writes `.initialEnd`. -/
  | initialEnd (mid : List MidAccess := [])
  /-- R167. -/
  | wctlWrite (w : Word)
  /-- R168. -/
  | wadrWrite (w : Word)
  /-- R168. -/
  | wdatRead
  /-- R169. -/
  | wdatWrite (w : Word)
  /-- R182. -/
  | causeWrite (w : Word)
  /-- R173. The data word of the STRIP write. -/
  | handOver (w : Word)
  /-- R174. The data word of the STRIP write. -/
  | withdraw (w : Word)
  /-- R166. A write whose register select names none of the five registers; the spec gives the selects no
  codes, and none is read. -/
  | registerWriteOther (select data : Word)
  /-- R175. -/
  | endOrder
  /-- R178. -/
  | loadTable
  /-- R15. -/
  | slotsTableAdoption
  /-- R37. -/
  | gaugeTableAdoption
  /-- R74. -/
  | lampTableAdoption
  /-- R143. -/
  | panelTableAdoption
  /-- R140. -/
  | glyphTableAdoption
  /-- R100. -/
  | rulesTableAdoption
  /-- R158. -/
  | start
  /-- R181. -/
  | setAttentionMask
  /-- R180. -/
  | copyOut
  /-- R180. -/
  | copyOutSnapshot
  /-- R96. -/
  | setTime
  /-- R106. -/
  | cardIn
  /-- R107. -/
  | cardOut
  /-- R104. -/
  | activity
  /-- R67. -/
  | setKFactor
  /-- R69. -/
  | setOdometer
  /-- R68. -/
  | lockCalibration
  /-- R70. -/
  | resetTrip
  /-- R132. -/
  | postMessage
  /-- R133. -/
  | clearMessage
  /-- R131. -/
  | ackMessage
  /-- R152. -/
  | selectPage
  /-- R153. -/
  | takeKeys
  /-- R81. -/
  | testLamps
  /-- R63. -/
  | sectorEraseDone
  /-- R63. `ok`: the verify succeeds. -/
  | commitVerifyDone (ok : Bool)
  /-- R66. `ok`: the verify succeeds. -/
  | calibrationWriteDone (ok : Bool)
  /-- R66. `ok`: the verify succeeds. -/
  | restoreDone (ok : Bool)
  /-- R53. `us`: microseconds that have passed on the time base since the command before (log 2). -/
  | speedEdge (us : Nat)
  /-- R54. `us` as for a speed edge. -/
  | speedWindow (us : Nat)
  /-- R56. -/
  | movingSet
  /-- R6. `mid`: link accesses that land inside the scan. -/
  | intakeScan (mid : List MidAccess)
  /-- R9. -/
  | slotStale (slot : Fin 64)
  /-- R10. -/
  | heartbeatLost
  /-- R17. `order`: the order in which the channels are updated; channels it does not name follow in
  ascending order (log 12). -/
  | gaugeUpdate (order : List (Fin 8))
  /-- R42. -/
  | homingEnd (channel : Fin 8)
  /-- R41. -/
  | holdTimeExpired (channel : Fin 8)
  /-- R76. `order`: the order in which the lamps are evaluated, as for the channels; `opens`: the lamps whose
  open-load sample, if one is taken, finds the load open (R84). -/
  | lampEvaluation (order opens : List (Fin 40))
  /-- R85. -/
  | overcurrent (lamp : Fin 40)
  /-- R85. -/
  | shortWaitEnd (lamp : Fin 40)
  /-- R80. -/
  | bulbCheckOver
  /-- R81. -/
  | lampTestEnd
  /-- R82. -/
  | flashEdge
  /-- R92. -/
  | singleEnd
  /-- R92. -/
  | clickEnd
  /-- R95. -/
  | minuteDue
  /-- R127. -/
  | stackTick
  /-- R127. The identity of the entry. -/
  | shownTimeExpired (code : Nat) (origin : Origin) (arg : Nat)
  /-- R138. -/
  | panelRefresh
  /-- R149. `pressed`: the key's new input level. -/
  | keyInput (key : Key) (pressed : Bool)
  /-- R149. -/
  | acceptedPress (key : Key)
  /-- R149. `us` as for a speed edge. -/
  | acceptedRelease (key : Key) (us : Nat)
  /-- R149. `us` as for a speed edge. -/
  | longKeyEvent (key : Key) (us : Nat)
  /-- R172. `mid`: link accesses that land inside the pass. -/
  | reportRefresh (mid : List MidAccess)
  /-- R157. `on`: the new level of the IGN input. -/
  | ignInput (on : Bool)
  /-- R164. -/
  | ignitionOnEvent
  /-- R162. -/
  | ignitionOffEvent
  /-- R91. -/
  | continuousToneEdge
  deriving DecidableEq, Repr

end Sys2Proof
end

