-- ==== Sys2Proof/Decode.lean ====
section
/-! DEFINITION. No row of spec/opcode_table.json gives bits: the block has no instruction words. -/

namespace Sys2Proof

/-- The command that a word of the table spells: none, since no row gives bits. -/
def decodeTableWord (_nbits _w : Nat) : Option Instr := none

end Sys2Proof
end

