-- ==== Sys2Proof/Config.lean ====
section
/-! DEFINITION. What the spec leaves open and the model leaves free. Nothing constrains these constants. -/

namespace Sys2Proof

/-- Free value (log 15): whether the x values and levels of a GAUGE entry are judged as signed numbers when its
source is this slot and the slot has neither type SIGNED nor type UNSIGNED (R34, R36 give no domain there). -/
opaque Config.untypedSourceSigned : Fin 64 → Bool

/-- Free value (log 16): the built-in glyph of a character code 0x20 to 0x7E: seven rows of five dots
each, as numbers 0 to 31. R139 fixes that shape, names the set and does not draw it. -/
opaque Config.builtinGlyph : Nat → Vector (Fin 32) 7

end Sys2Proof
end

