-- ==== Sys2Proof/Machine/State.lean ====
section
/-! DEFINITION. The state of the part: every field the spec gives it, as plain data, and the state after reset.
The units' records stand in the order of the spec's chapters. INVENTORY.md lists each field with its rule. -/

namespace Sys2Proof.Machine

/-! ## Mode control (R154) -/

/-- The seven device modes (R154). -/
inductive DeviceMode where
  | initial | unconfigured | starting | running | limp | parking | dormant
  deriving DecidableEq, Repr

/-- The kind of the last reset (R155). -/
inductive ResetKind where
  | powerOn | hard
  deriving DecidableEq, Repr

/-- Mode control's fields (R154), with the IGN pin and what the two phases of a reset need (R155). -/
structure ModeControl where
  mode : DeviceMode
  ignition : Bool
  settle : Nat
  kind : ResetKind
  ignInput : Bool
  /-- The part is held in reset while the cause of a reset lasts: none while it is not held, and otherwise the
  kind of reset whose cause holds it (R155, log 41). -/
  held : Option ResetKind
  /-- Milliseconds of INITIAL since the cause of the reset ended, 0 to 20 (R155). -/
  initialMs : Nat
  deriving DecidableEq, Repr

/-! ## Link port (R167, R172, R181, R182) -/

/-- The link registers and what the link port holds beside them. -/
structure Link where
  space : Nat
  step : Nat
  addr : Nat
  causes : Word
  mask : Word
  refreshSeq : Word
  /-- The data word that the last WDAT read returned (log 31). -/
  data : Word
  deriving DecidableEq, Repr

/-- Exchange memory: (address, word) pairs, addresses strictly rising and below 4096, no word zero; an
unlisted address reads zero (R171, log 10). -/
abbrev Memory := List (Nat × Word)

/-! ## Order engine (R173 to R176) -/

/-- The state of a strip (R173). -/
inductive StripState where
  | free | queued | running
  deriving DecidableEq, Repr

/-- Strip 1 and strip 2. -/
inductive Strip where
  | one | two
  deriving DecidableEq, Repr

/-- The six kinds of table (R170). -/
inductive TableKind where
  | gauge | lamp | slots | panel | glyph | rules
  deriving DecidableEq, Repr

/-- The five kinds of record that COPY OUT writes (R180), DRIVER with its selector. -/
inductive CopyKind where
  | driver1 | driver2 | messages | gauges | lamps | slots
  deriving DecidableEq, Repr

/-- What an order that holds its strip waits for (R176). -/
inductive Hold where
  /-- The adoption or refusal of the incoming table (R179). -/
  | table (kind : TableKind)
  /-- The snapshot (R180). -/
  | copy (kind : CopyKind) (addr : Nat)
  /-- An operation of the odometer store (R67, R68, R69). -/
  | store
  deriving DecidableEq, Repr

/-- The strips and the engine (R173, R175). -/
structure Engine where
  strip1 : StripState
  strip2 : StripState
  position : Nat
  executed : Nat
  hold : Option Hold
  deriving DecidableEq, Repr

/-! ## Tables (R3, R34, R35, R72, R98, R140, R141) -/

/-- Message severities (R120), in the order of their codes (R184). -/
inductive Severity where
  | red | amber | info
  deriving DecidableEq, Repr

/-- Slot types (R2), in the order of the codes of the SLOTS copy. -/
inductive SlotType where
  | unused | signed | unsigned | lampWord | heartbeat
  deriving DecidableEq, Repr

/-- A SLOTS entry (R3); the timeout in units of 10 ms. -/
structure SlotEntry where
  type : SlotType
  timeout : Nat
  deriving DecidableEq, Repr

/-- The SLOTS table (R3); the heartbeat timeout in units of 10 ms. -/
structure SlotsTable where
  entries : Vector SlotEntry 64
  heartbeatTimeout : Nat
  dataFaultLamp : Option (Fin 40)
  deriving DecidableEq, Repr

/-- Where a channel's input comes from (R34). -/
inductive Source where
  | slot (s : Fin 64)
  | speed
  deriving DecidableEq, Repr

/-- A threshold watcher (R35). Levels are kept as words and read in the domain of the source. -/
structure WatcherEntry where
  above : Bool
  setLevel : Word
  releaseLevel : Word
  lamp : Option (Fin 40)
  message : Option (Nat × Severity)
  alarmOnFail : Bool
  deriving DecidableEq, Repr

/-- A breakpoint (R34): x as a word read in the domain of the source, p in microsteps. -/
structure Breakpoint where
  x : Word
  p : Nat
  deriving DecidableEq, Repr

/-- A GAUGE entry (R34); the breakpoints below the count; the hold time in ms. -/
structure GaugeEntry where
  enabled : Bool
  source : Source
  travelMax : Nat
  points : List Breakpoint
  k : Nat
  slew : Nat
  deadBand : Nat
  holdTime : Nat
  failPosition : Nat
  sweep : Bool
  watcher0 : WatcherEntry
  watcher1 : WatcherEntry
  deriving DecidableEq, Repr

/-- The GAUGE table (R34). -/
abbrev GaugeTable := Vector GaugeEntry 8

/-- Lamp demands in rising strength (R78). -/
inductive Demand where
  | off | on | flashSlow | flashFast
  deriving DecidableEq, Repr

/-- Colour classes (R72). -/
inductive Colour where
  | red | amber | green | blue | white
  deriving DecidableEq, Repr

/-- The stale state (R72). -/
inductive StaleState where
  | off | on | flashSlow | hold
  deriving DecidableEq, Repr

/-- The chime on rise (R72). -/
inductive RiseChime where
  | none | single | continuous
  deriving DecidableEq, Repr

/-- The link source of a lamp: a slot and a position 0 to 7 (R72). -/
structure LinkSource where
  slot : Fin 64
  position : Nat
  deriving DecidableEq, Repr

/-- A LAMP entry (R72). -/
structure LampEntry where
  used : Bool
  colour : Colour
  legal : Bool
  check : Bool
  ignitionOff : Bool
  link : Option LinkSource
  stale : StaleState
  limp : Demand
  chime : RiseChime
  message : Option (Nat × Severity)
  deriving DecidableEq, Repr

/-- The LAMP table (R72). -/
structure LampTable where
  entries : Vector LampEntry 40
  faultTellTale : Fin 40
  deriving DecidableEq, Repr

/-- The RULES table (R98); times in minutes, MOVE_SPEED in 0.01 km/h, MOVE_TIME in seconds. -/
structure RulesTable where
  cdLimit : Nat
  splitFirst : Nat
  splitSecond : Nat
  breakFull : Nat
  dailyLimit : Nat
  dailyRest : Nat
  prewarn : Nat
  gapAsRest : Bool
  moveSpeed : Nat
  moveTime : Nat
  prewarnLamp : Option (Fin 40)
  limitLamp : Option (Fin 40)
  undeclaredLamp : Option (Fin 40)
  deriving DecidableEq, Repr

/-- The GLYPH table (R140): 32 user glyphs of seven rows each, row r of glyph g at place 7g + r. -/
abbrev GlyphTable := List Nat

/-- Field spaces of the panel (R141, R145). -/
inductive Space where
  | slot | gauge | dist | driver1 | driver2 | clock
  deriving DecidableEq, Repr

/-- How a field's value is rendered, with the parameter of the kind (R141). -/
inductive FieldKind where
  | number (decimals : Nat)
  | duration
  | clock
  | enum (list : Nat)
  | bar (fullScale : Nat)
  deriving DecidableEq, Repr

/-- Where a field stands and how it is rendered (R141). -/
structure FieldPlace where
  line : Nat
  column : Nat
  width : Nat
  kind : FieldKind
  deriving DecidableEq, Repr

/-- A field of a page (R141); `space` none means DEFAULT. -/
structure Field where
  place : FieldPlace
  space : Option Space
  base : Nat
  indexed : Bool
  scale : Nat
  displacement : Nat
  deriving DecidableEq, Repr

/-- Which trip a page's OK LONG resets (R141), also the argument of RESET TRIP (R70). -/
inductive Trip where
  | a | b
  deriving DecidableEq, Repr

/-- A page (R141). -/
structure Page where
  text : List Nat
  defaultSpace : Space
  indexed : Bool
  tripReset : Option Trip
  fields : List Field
  deriving DecidableEq, Repr

/-- A message text (R141). -/
structure MessageText where
  code : Nat
  text : List Nat
  argument : Option FieldPlace
  deriving DecidableEq, Repr

/-- The PANEL table (R141); a name is the list of its character codes. -/
structure PanelTable where
  pages : List Page
  startPage : Option Nat
  click : Bool
  barChar : Nat
  nameLists : List (List (List Nat))
  texts : List MessageText
  deriving DecidableEq, Repr

/-- A table of one of the six kinds. -/
inductive TableBody where
  | gauge (t : GaugeTable)
  | lamp (t : LampTable)
  | slots (t : SlotsTable)
  | panel (t : PanelTable)
  | glyph (t : GlyphTable)
  | rules (t : RulesTable)
  deriving DecidableEq, Repr

/-- A directory entry (R170). -/
structure DirEntry where
  loaded : Bool
  length : Nat
  sum : Word
  deriving DecidableEq, Repr

/-- The directory, one entry for each kind (R170). -/
structure Directory where
  gauge : DirEntry
  lamp : DirEntry
  slots : DirEntry
  panel : DirEntry
  glyph : DirEntry
  rules : DirEntry
  deriving DecidableEq, Repr

/-- The load report (R170). -/
structure LoadReport where
  kind : Nat
  result : Nat
  detail : Nat
  field : Nat
  deriving DecidableEq, Repr

/-- The incoming table (R179) with what its directory entry will hold. -/
structure Incoming where
  body : TableBody
  length : Nat
  sum : Word
  deriving DecidableEq, Repr

/-- The table store (R170, R179). -/
structure Tables where
  gauge : Option GaugeTable
  lamp : Option LampTable
  slots : Option SlotsTable
  panel : Option PanelTable
  glyph : Option GlyphTable
  rules : Option RulesTable
  dir : Directory
  report : LoadReport
  incoming : Option Incoming
  deriving DecidableEq, Repr

/-! ## Value intake (R5, R10, R14) -/

/-- Slot conditions (R5), in the order of the codes of the SLOTS copy. -/
inductive Condition where
  | never | good | error | notAvailable | stale
  deriving DecidableEq, Repr

/-- A slot record (R5); timeout and age in ms. -/
structure SlotRec where
  type : SlotType
  timeout : Nat
  condition : Condition
  lastSeq : BitVec 8
  accepted : Word
  age : Nat
  deriving DecidableEq, Repr

/-- The heartbeat record (R10). -/
structure Heartbeat where
  lost : Bool
  age : Nat
  restore : Nat
  deriving DecidableEq, Repr

/-- The intake's state (R5, R10, R14). -/
structure Intake where
  slots : Vector SlotRec 64
  heartbeat : Heartbeat
  dataFault : Bool
  deriving DecidableEq, Repr

/-! ## Gauge unit (R19, R39) -/

/-- Channel states (R39), in the order of their codes in the report block. -/
inductive ChannelState where
  | idle | unhomed | homing | sweeping | tracking | holding | failed | parking | parked
  deriving DecidableEq, Repr

/-- What a channel does when homing ends (R39). -/
inductive AfterHoming where
  | source | sweep | park
  deriving DecidableEq, Repr

/-- The sweep phase (R39). -/
inductive SweepPhase where
  | outward | return
  deriving DecidableEq, Repr

/-- A channel: its arithmetic record (R19) and its channel record (R39). `coil` is none while the coils are
released and otherwise the electrical angle at which they stand, in steps of 7.5 degrees (R31, R42, log 36). -/
structure Channel where
  x : Int
  t : Nat
  f : Nat
  g : Nat
  p : Nat
  state : ChannelState
  homing : Nat
  after : AfterHoming
  phase : SweepPhase
  hold : Nat
  alarm0 : Bool
  alarm1 : Bool
  armed : Bool
  coil : Option Nat
  deriving DecidableEq, Repr

/-! ## Speed and distance unit (R53 to R59, R65) -/

/-- The calibration record of sector 0 (R65). -/
structure CalRecord where
  k : Nat
  lock : Bool
  count : Nat
  deriving DecidableEq, Repr

/-- The speed unit's state. `k` is none while K is unset, that is, while no calibration is valid (R65). -/
structure Speed where
  timer : BitVec 32
  lastStamp : Option (BitVec 32)
  standstill : Bool
  periods : Nat
  periodSum : Nat
  v : Nat
  movingTimer : Nat
  moving : Bool
  acc : Nat
  odometer : Nat
  tripA : Nat
  tripB : Nat
  pulses : Nat
  k : Option Nat
  lock : Bool
  count : Nat
  odometerLost : Bool
  deriving DecidableEq, Repr

/-- A record place (R60). -/
inductive Place where
  | blank
  | valid (seq value : Nat)
  | spoiled
  deriving DecidableEq, Repr

/-- Which order a calibration write completes (R67, R68, R69). -/
inductive CalPurpose where
  | setK | lock | setOdometer
  deriving DecidableEq, Repr

/-- The phase of a calibration write (R66). -/
inductive CalPhase where
  | erase | write | restoreErase | restoreWrite
  deriving DecidableEq, Repr

/-- The store operation in flight (R60, R63, R66). In a commit `fixed` is the argument of SET ODOMETER,
absent in an ordinary commit; `value` is the value being written once the write has begun; `units` are the
units added since the commit started (R69). -/
inductive StoreOp where
  | commit (erasing : Bool) (fixed : Option Nat) (value units : Nat)
  | calibration (phase : CalPhase) (purpose : CalPurpose) (record : CalRecord)
  deriving DecidableEq, Repr

/-- A request of an order that waits for the store (R61, R69). -/
inductive StoreRequest where
  | calibration (purpose : CalPurpose) (record : CalRecord)
  | commit (value : Nat)
  deriving DecidableEq, Repr

/-- The odometer store (R60): the non-volatile array and the fields beside it. -/
structure Store where
  places : Vector Place 128
  sector0 : Option CalRecord
  failed : Bool
  nextPlace : Nat
  nextSeq : Nat
  base : Nat
  failures : Nat
  op : Option StoreOp
  pending : Bool
  waiting : Option StoreRequest
  deriving DecidableEq, Repr

/-! ## Lamp unit (R75, R80 to R82, R89) and chime (R91) -/

/-- Lamp fault states (R75), in the order of the codes of the LAMPS copy. -/
inductive LampFault where
  | none | open | shortWait | latchedOff
  deriving DecidableEq, Repr

/-- Which internal sources raise a demand on a lamp (R94). -/
structure Sources where
  watchers : Bool
  hours : Bool
  dataFault : Bool
  tellTale : Bool
  deriving DecidableEq, Repr

/-- A lamp record (R75), with the output's drive, whether the message on rise is active, and what the LAMPS
copy reports of the last evaluation (R94, log 26). -/
structure LampRec where
  held : Demand
  operating : Demand
  previous : Demand
  shown : Demand
  fault : LampFault
  openCount : Nat
  goodCount : Nat
  shortCount : Nat
  cleanCount : Nat
  wait : Nat
  lit : Bool
  riseActive : Bool
  contribution : Option Demand
  sources : Sources
  deriving DecidableEq, Repr

/-- The lamp unit (R75). -/
structure Lamps where
  recs : Vector LampRec 40
  phase : Nat
  bulbTimer : Nat
  bulbOver : Bool
  testTimer : Nat
  escalated : Bool
  deriving DecidableEq, Repr

/-- The sound on the chime output (R91). -/
inductive Sound where
  | silent | single | continuous | click
  deriving DecidableEq, Repr

/-- The chime record (R91). -/
structure Chime where
  playing : Sound
  time : Nat
  continuous : Bool
  waiting : Bool
  deriving DecidableEq, Repr

/-! ## Hours unit (R95, R101, R102, R110) -/

/-- Activities (R101), in the order of their codes. -/
inductive Activity where
  | drive | work | available | rest | unknown
  deriving DecidableEq, Repr

/-- A history entry (R102). -/
structure HistoryEntry where
  kind : Activity
  start : Nat
  duration : Nat
  deriving DecidableEq, Repr

/-- The open activity and its start minute (R101). -/
structure OpenActivity where
  kind : Activity
  start : Nat
  deriving DecidableEq, Repr

/-- The alert flags (R113). -/
structure Alerts where
  prewarn : Bool
  cdExceeded : Bool
  ddExceeded : Bool
  deriving DecidableEq, Repr

/-- The live values of an evaluation (R111). -/
structure Live where
  cd : Nat
  dd : Nat
  rcd : Nat
  rdd : Nat
  breakNeeded : Nat
  deriving DecidableEq, Repr

/-- A driver record (R101). The card state is PRESENT exactly while an activity is open, so it is read off
`activity`. `live` holds what the last evaluation computed, none where R112 makes it not available. -/
structure Driver where
  card : Option Nat
  activity : Option OpenActivity
  cd : Nat
  dd : Nat
  firstTaken : Bool
  withdrawal : Option Nat
  alerts : Alerts
  history : List HistoryEntry
  live : Option Live
  deriving DecidableEq, Repr

/-- The minute clock (R95), the driver records (R101) and undeclared driving (R115). -/
structure Hours where
  clockSet : Bool
  clock : Nat
  minuteCount : Nat
  driver1 : Driver
  driver2 : Driver
  undeclared : Bool
  deriving DecidableEq, Repr

/-! ## Message stack (R120, R125) -/

/-- The identity of a message (R120). -/
structure Identity where
  code : Nat
  origin : Origin
  arg : Nat
  deriving DecidableEq, Repr

/-- Whether an entry has been displayed and acknowledged (R120). -/
inductive EntryState where
  | new | shown | acked
  deriving DecidableEq, Repr

/-- A message entry (R120); the shown time in ms. -/
structure Entry where
  id : Identity
  severity : Severity
  state : EntryState
  active : Bool
  arrival : Nat
  shownTime : Nat
  deriving DecidableEq, Repr

/-- The stack (R120) with its pending list (R125). -/
structure Stack where
  entries : List Entry
  counter : Nat
  waiting : List (Identity × Severity)
  deriving DecidableEq, Repr

/-! ## Panel unit (R137, R149, R153) -/

/-- What the last refresh displayed (R137). -/
inductive View where
  | text | start | page | message | blank
  deriving DecidableEq, Repr

/-- A debouncer (R149) with its key's input level; `level` true means PRESSED. -/
structure Debouncer where
  input : Bool
  level : Bool
  settle : Nat
  hold : Nat
  longGiven : Bool
  deriving DecidableEq, Repr

/-- A key queue entry (R153). -/
structure KeyEntry where
  key : Key
  long : Bool
  stamp : Nat
  deriving DecidableEq, Repr

/-- The panel unit (R137). `drivers` holds the glyphs last sent to the column drivers, one for each cell
(R139), and is empty while nothing has been sent since the reset. -/
structure Panel where
  view : View
  image : List Nat
  displayed : Option Identity
  selected : Nat
  index : Nat
  indexMode : Bool
  backlight : Bool
  keyOk : Debouncer
  keyUp : Debouncer
  keyDown : Debouncer
  keyBack : Debouncer
  queue : List KeyEntry
  stamp : Nat
  drivers : List (List Nat)
  deriving DecidableEq, Repr

/-! ## The state -/

/-- The whole part, with the queue of commands that wait and the microseconds of the time base's millisecond
in progress (log 2). -/
structure State where
  mode : ModeControl
  link : Link
  xm : Memory
  engine : Engine
  tables : Tables
  intake : Intake
  gauges : Vector Channel 8
  speed : Speed
  store : Store
  lamps : Lamps
  chime : Chime
  hours : Hours
  stack : Stack
  panel : Panel
  prescale : Nat
  pending : List Instr
  deriving DecidableEq, Repr

/-- Why a step faults. The spec names no condition that stops the part, so no meaning raises one. -/
inductive Fault where
  /-- Kept for the interface: raised by no meaning, hence safe. -/
  | none
  deriving DecidableEq, Repr

/-- Why a step is refused. -/
inductive Refusal where
  /-- Raised only by the dispatcher, for a command without a meaning. Safe: the machine stops. -/
  | notModelled (mnemonic : String)
  deriving DecidableEq, Repr

/-! ## Reset values -/

/-- The SLOTS default (R3): the heartbeat timeout while no table is loaded, in ms. -/
def defaultHeartbeatTimeout : Nat := 500

/-- A slot record after a reset (R5); the timeout of a slot without a table is log 18. -/
def SlotRec.reset : SlotRec := ⟨.unused, 50, .never, 0, 0, 0⟩

/-- The intake after a reset (R3, R5, R10). -/
def Intake.reset : Intake where
  slots := (Vector.replicate 64 SlotRec.reset).set 0 ⟨.heartbeat, defaultHeartbeatTimeout, .never, 0, 0, 0⟩
  heartbeat := ⟨false, 0, 0⟩
  dataFault := false

/-- A channel after a reset (R19, R39, R47). -/
def Channel.reset : Channel := ⟨0, 0, 0, 0, 0, .unhomed, 0, .source, .outward, 0, false, false, false, none⟩

/-- A directory entry after a reset (R170). -/
def DirEntry.empty : DirEntry := ⟨false, 0, 0⟩

/-- The table store after a reset: nothing loaded, nothing incoming (R170, R179). -/
def Tables.reset : Tables where
  gauge := none
  lamp := none
  slots := none
  panel := none
  glyph := none
  rules := none
  dir := ⟨.empty, .empty, .empty, .empty, .empty, .empty⟩
  report := ⟨0, 0, 0, 0⟩
  incoming := none

/-- The link registers after a reset (R167, R172, R181, R182): RESET_SEEN alone pending, every cause enabled. -/
def Link.reset : Link := ⟨0, 0, 0, 0x0001, 0x3FFF, 0, 0⟩

/-- The order engine after a reset (R173). R175 gives the execution position and the executed count a value only
when a strip becomes RUNNING; while none runs the model holds 1 and 0 (log 42). -/
def Engine.reset : Engine := ⟨.free, .free, 1, 0, none⟩

/-- A lamp record after a reset (R75). -/
def LampRec.reset : LampRec :=
  ⟨.off, .off, .off, .off, .none, 0, 0, 0, 0, 0, false, false, none, ⟨false, false, false, false⟩⟩

/-- The lamp unit after a reset (R75, R80, R81, R82). R82 gives the flash phase its 0 at the departure from
INITIAL; from the reset until then the model holds 0 as well (log 43). -/
def Lamps.reset : Lamps := ⟨Vector.replicate 40 LampRec.reset, 0, 0, false, 0, false⟩

/-- The chime after a reset (R91). -/
def Chime.reset : Chime := ⟨.silent, 0, false, false⟩

/-- A driver record after a POWER-ON reset (R101). -/
def Driver.reset : Driver := ⟨none, none, 0, 0, false, none, ⟨false, false, false⟩, [], none⟩

/-- The hours unit after a POWER-ON reset (R95, R101, R119). -/
def Hours.reset : Hours := ⟨false, 0, 0, Driver.reset, Driver.reset, false⟩

/-- The stack after a reset (R120). -/
def Stack.reset : Stack := ⟨[], 0, []⟩

/-- A debouncer after a reset (R149), its key's input kept. -/
def Debouncer.reset (input : Bool) : Debouncer := ⟨input, false, 0, 0, false⟩

/-- The panel after a reset (R137), the keys' inputs kept. -/
def Panel.reset (ok up down back : Bool) : Panel where
  view := .blank
  image := List.replicate 40 0x20
  displayed := none
  selected := 0
  index := 0
  indexMode := false
  backlight := false
  keyOk := .reset ok
  keyUp := .reset up
  keyDown := .reset down
  keyBack := .reset back
  queue := []
  stamp := 0
  drivers := []

/-- A store as delivered: every place blank, no calibration record (log 7), its fields as the scan of R64
leaves them when no place is valid. -/
def Store.blank : Store := ⟨Vector.replicate 128 .blank, none, false, 0, 1, 0, 0, none, false, none⟩

/-- The speed unit after a POWER-ON reset over a blank store (R53 to R59, R64, R65). -/
def Speed.reset : Speed :=
  ⟨0, none, true, 0, 0, 0, 0, false, 0, 0, 0, 0, 0, none, false, 0, true⟩

/-- The machine right after a POWER-ON reset whose cause has just ended: INITIAL begins (R155, log 6). -/
def State.reset : State where
  mode := ⟨.initial, false, 0, .powerOn, false, none, 0⟩
  link := Link.reset
  xm := []
  engine := Engine.reset
  tables := Tables.reset
  intake := Intake.reset
  gauges := Vector.replicate 8 Channel.reset
  speed := Speed.reset
  store := Store.blank
  lamps := Lamps.reset
  chime := Chime.reset
  hours := Hours.reset
  stack := Stack.reset
  panel := Panel.reset false false false false
  prescale := 0
  pending := []

end Sys2Proof.Machine
end

