-- ==== Sys2Proof/Machine/Ops.lean ====
section
/-! DEFINITION. Shared operations: bit fields, exchange memory, replacement of one record of a unit, and the
passing of time. Every access to exchange memory goes through `State.readXm` and `State.writeXm`. -/

namespace Sys2Proof.Machine

/-! ## Words and fields (R184) -/

/-- The field of `n` bits of a word whose least significant bit is bit `lo`. -/
def bits (w : Word) (lo n : Nat) : Nat := w.toNat / 2 ^ lo % 2 ^ n

/-- One bit of a word. -/
def bit (w : Word) (i : Nat) : Bool := bits w i 1 == 1

/-- The low 16 bits of a number. -/
def wordOf (n : Nat) : Word := BitVec.ofNat 16 n

/-- 1 for yes and 0 for no. -/
def flagOf (b : Bool) : Nat := if b then 1 else 0

/-- A two-word quantity, the more significant word first (R184). -/
def twoWords (n : Nat) : List Word := [wordOf (n / 65536), wordOf n]

/-- The number that two consecutive words hold (R184). -/
def fromTwoWords (hi lo : Word) : Nat := hi.toNat * 65536 + lo.toNat

/-- The greatest 32-bit number, at which the odometer, the clock, the pulse count and sequences stop. -/
def max32 : Nat := 4294967295

/-! ## Replacing one element -/

/-- A vector with the element at a place replaced. -/
def putAt {α : Type} {n : Nat} (v : Vector α n) (i : Fin n) (x : α) : Vector α n := v.set i.val x i.isLt

/-- The numbers of the eight channels, ascending. -/
def allChannels : List (Fin 8) := [0, 1, 2, 3, 4, 5, 6, 7]

/-- The numbers of the forty lamps, ascending. -/
def allLamps : List (Fin 40) :=
  [0, 1, 2, 3, 4, 5, 6, 7, 8, 9, 10, 11, 12, 13, 14, 15, 16, 17, 18, 19] ++
  [20, 21, 22, 23, 24, 25, 26, 27, 28, 29, 30, 31, 32, 33, 34, 35, 36, 37, 38, 39]

/-- The numbers of the 64 slots, ascending. -/
def allSlots : List (Fin 64) :=
  [0, 1, 2, 3, 4, 5, 6, 7, 8, 9, 10, 11, 12, 13, 14, 15, 16, 17, 18, 19, 20, 21, 22, 23, 24, 25, 26, 27, 28, 29, 30, 31] ++
  [32, 33, 34, 35, 36, 37, 38, 39, 40, 41, 42, 43, 44, 45, 46, 47, 48, 49, 50, 51, 52, 53, 54, 55, 56, 57, 58, 59, 60, 61, 62, 63]

/-- Appends what a list does not hold yet, in order. -/
def addNew {α : Type} [DecidableEq α] (seen : List α) : List α → List α
  | [] => seen
  | x :: xs => if x ∈ seen then addNew seen xs else addNew (seen ++ [x]) xs

/-- An order in which each element of `all` is visited once: those named first, then the others (log 12). -/
def fullOrder {α : Type} [DecidableEq α] (named all : List α) : List α := addNew (addNew [] named) all

/-! ## Exchange memory (R171) -/

/-- The word at an address; an unlisted address reads zero. -/
def Memory.read : Memory → Nat → Word
  | [], _ => 0
  | (b, w) :: m, a => if a = b then w else Memory.read m a

/-- Stores a word, keeping the canonical form: a zero word is not listed. -/
def Memory.write : Memory → Nat → Word → Memory
  | [], a, w => if w = 0 then [] else [(a, w)]
  | (b, v) :: m, a, w =>
    if a < b then (if w = 0 then (b, v) :: m else (a, w) :: (b, v) :: m)
    else if a = b then (if w = 0 then m else (a, w) :: m)
    else (b, v) :: Memory.write m a w

/-- The canonical form from an address on: addresses strictly rising and below 4096, no word zero. -/
def Memory.wfFrom : Nat → Memory → Bool
  | _, [] => true
  | lo, (a, w) :: m => decide (lo ≤ a) && decide (a < 4096) && decide (w ≠ 0) && Memory.wfFrom (a + 1) m

/-- The canonical form of exchange memory. -/
def Memory.wf (m : Memory) : Bool := Memory.wfFrom 0 m

/-- A word of exchange memory. -/
def State.readXm (s : State) (a : Nat) : Word := s.xm.read a

/-- Stores a word of exchange memory; there is no word beyond 0xFFF (R171). -/
def State.writeXm (s : State) (a : Nat) (w : Word) : State :=
  { s with xm := if a < 4096 then s.xm.write a w else s.xm }

/-- Stores consecutive words. -/
def State.writeWords (s : State) (a : Nat) : List Word → State
  | [] => s
  | w :: ws => State.writeWords (s.writeXm a w) (a + 1) ws

/-- Reads `n` consecutive words. -/
def State.readWords (s : State) (a : Nat) : Nat → List Word
  | 0 => []
  | n + 1 => s.readXm a :: State.readWords s (a + 1) n

/-! ## Replacing one unit of the state -/

/-- Mode control replaced. -/
def State.withMode (s : State) (m : ModeControl) : State := { s with mode := m }
/-- The link port replaced. -/
def State.withLink (s : State) (l : Link) : State := { s with link := l }
/-- Exchange memory replaced. -/
def State.withXm (s : State) (m : Memory) : State := { s with xm := m }
/-- The order engine replaced. -/
def State.withEngine (s : State) (e : Engine) : State := { s with engine := e }
/-- The table store replaced. -/
def State.withTables (s : State) (t : Tables) : State := { s with tables := t }
/-- The intake replaced. -/
def State.withIntake (s : State) (i : Intake) : State := { s with intake := i }
/-- The gauge channels replaced. -/
def State.withGauges (s : State) (g : Vector Channel 8) : State := { s with gauges := g }
/-- The speed unit replaced. -/
def State.withSpeed (s : State) (v : Speed) : State := { s with speed := v }
/-- The odometer store replaced. -/
def State.withStore (s : State) (t : Store) : State := { s with store := t }
/-- The lamp unit replaced. -/
def State.withLamps (s : State) (l : Lamps) : State := { s with lamps := l }
/-- The chime replaced. -/
def State.withChime (s : State) (c : Chime) : State := { s with chime := c }
/-- The hours unit replaced. -/
def State.withHours (s : State) (h : Hours) : State := { s with hours := h }
/-- The message stack replaced. -/
def State.withStack (s : State) (k : Stack) : State := { s with stack := k }
/-- The panel unit replaced. -/
def State.withPanel (s : State) (p : Panel) : State := { s with panel := p }
/-- The queue of commands replaced. -/
def State.withPending (s : State) (q : List Instr) : State := { s with pending := q }

/-- One channel replaced. -/
def State.setChannel (s : State) (c : Fin 8) (ch : Channel) : State := s.withGauges (putAt s.gauges c ch)

/-- One lamp record replaced. -/
def State.setLamp (s : State) (n : Fin 40) (r : LampRec) : State :=
  s.withLamps { s.lamps with recs := putAt s.lamps.recs n r }

/-- One slot record replaced. -/
def State.setSlot (s : State) (i : Fin 64) (r : SlotRec) : State :=
  s.withIntake { s.intake with slots := putAt s.intake.slots i r }

/-! ## Time (log 2, log 3) -/

/-- A debouncer after `ms` milliseconds (R149): the settle timer runs while the input differs from the
debounced level, the hold timer while PRESSED and no LONG has been given. -/
def Debouncer.elapse (d : Debouncer) (ms : Nat) : Debouncer :=
  { d with
    settle := if d.input = d.level then d.settle else min (d.settle + ms) 30
    hold := if d.level && !d.longGiven then min (d.hold + ms) 1000 else d.hold }

/-- The chime after `ms` milliseconds (R91, R92): a SINGLE and a CLICK stop at their length, CONTINUOUS just
before its next edge. -/
def Chime.elapse (c : Chime) (ms : Nat) : Chime :=
  match c.playing with
  | .silent => c
  | .single => { c with time := min (c.time + ms) 600 }
  | .click => { c with time := min (c.time + ms) 20 }
  | .continuous => { c with time := if c.time < 500 then min (c.time + ms) 499 else min (c.time + ms) 999 }

/-- Mode control after `ms` milliseconds: the INITIAL count (R155) or the ignition settle timer (R157). -/
def ModeControl.elapse (m : ModeControl) (ms : Nat) : ModeControl :=
  if m.mode = .initial then
    { m with initialMs := if m.held.isSome then m.initialMs else min (m.initialMs + ms) 20 }
  else
    { m with settle := if m.ignInput = m.ignition then m.settle else min (m.settle + ms) 100 }

/-- The panel after `ms` milliseconds outside INITIAL: the stamp count (R137) and the debouncers (R149). -/
def Panel.elapse (p : Panel) (ms : Nat) : Panel :=
  { p with
    stamp := (p.stamp + ms) % 65536
    keyOk := p.keyOk.elapse ms
    keyUp := p.keyUp.elapse ms
    keyDown := p.keyDown.elapse ms
    keyBack := p.keyBack.elapse ms }

/-- The flash phase after `ms` milliseconds, held just before its next edge (R82). -/
def flashPhaseElapse (phase ms : Nat) : Nat := min (phase + ms) (phase / 250 * 250 + 249)

/-- The minute count after `ms` milliseconds, held just before the minute falls due (R95). It runs on while a
HARD reset is held (R155), and stays at its power-on value while a POWER-ON reset is (log 41). -/
def ModeControl.minuteElapse (m : ModeControl) (count ms : Nat) : Nat :=
  if m.held = some .powerOn then count else min (count + ms) 59999

/-- The part's time base advances by `us` microseconds: the capture timer (R53), the minute count (R95), and
every timer that time alone drives. -/
def State.elapse (s : State) (us : Nat) : State :=
  let total := s.prescale + us
  let ms := total / 1000
  { s with
    prescale := total % 1000
    mode := s.mode.elapse ms
    speed := { s.speed with timer := s.speed.timer + BitVec.ofNat 32 us }
    hours := { s.hours with minuteCount := s.mode.minuteElapse s.hours.minuteCount ms }
    chime := s.chime.elapse ms
    lamps := if s.mode.mode = .initial then s.lamps
      else { s.lamps with phase := flashPhaseElapse s.lamps.phase ms }
    panel := if s.mode.mode = .initial then s.panel else s.panel.elapse ms }

end Sys2Proof.Machine
end

