-- ==== Sys2Proof/Machine/Flags.lean ====
section
/-! DEFINITION. The fourteen causes with the attention line (R181 to R183), and the result and header words of
the strips (R174, R175, R177, 11_formats.md). -/

namespace Sys2Proof.Machine

/-- The causes of attention (R182). -/
inductive Cause where
  | resetSeen | strip1Returned | strip2Returned | handoverRefused | badWrite | modeChange | linkLimp
  | slotStale | lampFault | hoursAlert | messageChange | keyEvent | odoStoreFault | calibrationChange
  deriving DecidableEq, Repr

/-- The place of a cause in CAUSE and in the attention mask (11_formats.md). -/
def Cause.place : Cause → Nat
  | .resetSeen => 0
  | .strip1Returned => 1
  | .strip2Returned => 2
  | .handoverRefused => 3
  | .badWrite => 4
  | .modeChange => 5
  | .linkLimp => 6
  | .slotStale => 7
  | .lampFault => 8
  | .hoursAlert => 9
  | .messageChange => 10
  | .keyEvent => 11
  | .odoStoreFault => 12
  | .calibrationChange => 13

/-- The word with a one at the cause's place alone. -/
def Cause.word (c : Cause) : Word := BitVec.ofNat 16 (2 ^ c.place)

/-- A cause becomes pending; one already pending stays pending once (R182). -/
def Link.raise (l : Link) (c : Cause) : Link := { l with causes := l.causes ||| c.word }

/-- A cause becomes pending. -/
def State.raise (s : State) (c : Cause) : State := s.withLink (s.link.raise c)

/-- A cause becomes pending if something holds. -/
def State.raiseIf (s : State) (b : Bool) (c : Cause) : State :=
  s.withLink (if b then s.link.raise c else s.link)

/-- A cause is pending. -/
def State.pendingCause (s : State) (c : Cause) : Bool := bit s.link.causes c.place

/-- The attention line (R183): asserted while a cause is pending and enabled, released throughout INITIAL. -/
def State.attention (s : State) : Bool :=
  s.mode.mode != .initial && (s.link.causes &&& s.link.mask) != 0

/-- Result codes (R177). -/
inductive Result where
  | done | doneCrewSwap | badArgument | badTable | inUse | refusedMode | locked | clockUnset | noCard
  | slotOccupied | duplicateCard | outOfOrder | timeBeforeRecord | stackFull | storeFault
  deriving DecidableEq, Repr

/-- The code of a result (11_formats.md). -/
def Result.code : Result → Nat
  | .done => 0
  | .doneCrewSwap => 1
  | .badArgument => 2
  | .badTable => 3
  | .inUse => 4
  | .refusedMode => 5
  | .locked => 6
  | .clockUnset => 8
  | .noCard => 9
  | .slotOccupied => 10
  | .duplicateCard => 11
  | .outOfOrder => 12
  | .timeBeforeRecord => 13
  | .stackFull => 14
  | .storeFault => 15

/-- The details of BAD_TABLE (11_formats.md). -/
inductive TableDetail where
  | tag | version | length | sum | content | missing
  deriving DecidableEq, Repr

/-- The code of a BAD_TABLE detail. -/
def TableDetail.code : TableDetail → Nat
  | .tag => 1
  | .version => 2
  | .length => 3
  | .sum => 4
  | .content => 5
  | .missing => 6

/-- Detail CALIBRATION of STORE_FAULT. -/
def detailCalibration : Nat := 1
/-- Detail RECORD of STORE_FAULT. -/
def detailRecord : Nat := 2

/-- The mark 0xFFFF of a closing word (R175). -/
def mark : Word := 0xFFFF

/-- A result word: the code in bits 8 to 15, the detail in bits 0 to 7. -/
def resultWord (r : Result) (detail : Nat) : Word := wordOf (r.code * 256 + detail % 256)

/-- Stop reasons (R174, R175). -/
inductive StopReason where
  | atEnd | malformed | unknownFunction | overrun | withdrawn
  deriving DecidableEq, Repr

/-- The code of a stop reason (11_formats.md). -/
def StopReason.code : StopReason → Nat
  | .atEnd => 1
  | .malformed => 2
  | .unknownFunction => 3
  | .overrun => 4
  | .withdrawn => 5

/-- A header word: the reason in bits 12 to 15, the count or offset in bits 0 to 8. -/
def headerWord (r : StopReason) (n : Nat) : Word := wordOf (r.code * 4096 + n % 512)

end Sys2Proof.Machine
end

