-- ==== Sys2Proof/Machine/Chime.lean ====
section
/-! DEFINITION. The chime (R91 to R93). -/

namespace Sys2Proof.Machine

/-- The modes in which the chime takes requests (R91). -/
def DeviceMode.chimes : DeviceMode → Bool
  | .starting | .running | .limp => true
  | .initial | .unconfigured | .parking | .dormant => false

/-- A CONTINUOUS request (R92). -/
def Chime.requestContinuous (c : Chime) : Chime :=
  match c.playing with
  | .continuous => { c with continuous := true }
  | .single => ⟨.continuous, 0, true, true⟩
  | .click => ⟨.continuous, 0, true, c.waiting⟩
  | .silent => ⟨.continuous, 0, true, c.waiting⟩

/-- A SINGLE request (R92). -/
def Chime.requestSingle (c : Chime) : Chime :=
  match c.playing with
  | .continuous => { c with waiting := true }
  | .single => { c with waiting := true }
  | .click => { c with playing := .single, time := 0 }
  | .silent => { c with playing := .single, time := 0 }

/-- A CLICK request (R92). -/
def Chime.requestClick (c : Chime) : Chime :=
  match c.playing with
  | .continuous => c
  | .single => c
  | .click => { c with playing := .click, time := 0 }
  | .silent => { c with playing := .click, time := 0 }

/-- The sound playing is over: a waiting SINGLE starts, else the chime is SILENT (R92, R93), its play time 0 as after
a reset, which no rule says (log 49). -/
def Chime.goOn (c : Chime) : Chime :=
  if c.waiting then { c with playing := .single, time := 0, waiting := false }
  else { c with playing := .silent, time := 0 }

/-- An acknowledgement (R93). -/
def Chime.acknowledge (c : Chime) : Chime :=
  match c.playing with
  | .continuous => Chime.goOn { c with continuous := false }
  | .silent => { c with continuous := false }
  | .single => { c with continuous := false }
  | .click => { c with continuous := false }

/-- The request that an arrival of the stack makes (R121). -/
def Chime.arrival (c : Chime) : Severity → Chime
  | .red => c.requestContinuous
  | .amber => c.requestSingle
  | .info => c

/-- The arrivals of one event of the stack, in order. -/
def Chime.arrivals (c : Chime) : List Severity → Chime
  | [] => c
  | r :: rs => Chime.arrivals (c.arrival r) rs

/-- A request taken or, by the mode, discarded (R91). -/
def State.request (s : State) (f : Chime → Chime) : State :=
  s.withChime (if s.mode.mode.chimes then f s.chime else s.chime)

/-- The entry into PARKING stops the chime (R91), its play time 0 as after a reset (log 49). -/
def State.stopChime (s : State) : State := s.withChime Chime.reset

/-- The tone on the output now (R91): CONTINUOUS sounds in the first 500 ms of each second. -/
def Chime.tone (c : Chime) : Bool :=
  match c.playing with
  | .silent => false
  | .single => true
  | .click => true
  | .continuous => decide (c.time < 500)

/-- SINGLE_END (R92): the gong ends, 600 ms after it began (log 3). -/
def execSingleEnd (s : State) : Host.Outcome State Fault Refusal :=
  .next (if s.chime.playing = .single ∧ s.chime.time = 600 then s.withChime s.chime.goOn else s)

/-- CLICK_END (R92): the chime becomes SILENT, 20 ms after the click began (log 3), its play time 0 (log 49). -/
def execClickEnd (s : State) : Host.Outcome State Fault Refusal :=
  .next (if s.chime.playing = .click ∧ s.chime.time = 20 then s.withChime { s.chime with playing := .silent, time := 0 } else s)

/-- CONTINUOUS_TONE_EDGE (R91): the tone stops at 500 ms of each second and sounds again at the next. The play
time waits just before the edge (log 3). -/
def execContinuousToneEdge (s : State) : Host.Outcome State Fault Refusal :=
  .next (if s.chime.playing = .continuous ∧ (s.chime.time = 499 ∨ s.chime.time = 999)
    then s.withChime { s.chime with time := if s.chime.time < 500 then 500 else 0 } else s)

end Sys2Proof.Machine
end

