-- ==== Sys2Proof/Machine/Stack.lean ====
section
/-! DEFINITION. The message stack (R120 to R136): what a post, a clear, an acknowledgement, a display report
and a step of the shown time do. Every other unit posts and clears through `State.post` and `State.clear`. -/

namespace Sys2Proof.Machine

/-! ## Entries -/

/-- AMBER or INFO. -/
def Entry.nonRed (e : Entry) : Bool := e.severity != .red

/-- The entry with an identity, if one is held (R121). -/
def Stack.find (k : Stack) (id : Identity) : Option Entry := k.entries.find? fun e => e.id == id

/-- How many held entries are not RED (R122). -/
def Stack.nonRedCount (k : Stack) : Nat := (k.entries.filter Entry.nonRed).length

/-- The older of two candidates: the one with the lower arrival number (R122). -/
def olderOf (a : Option Entry) (e : Entry) : Option Entry :=
  match a with
  | none => some e
  | some b => if e.arrival < b.arrival then some e else some b

/-- The oldest entry of a kind (R122, R123). -/
def oldest (p : Entry → Bool) (es : List Entry) : Option Entry := (es.filter p).foldl olderOf none

/-- The order of severities in the view: RED before AMBER before INFO (R128). -/
def Severity.rank : Severity → Nat
  | .red => 0
  | .amber => 1
  | .info => 2

/-- `a` stands before `b` in the view (R128). -/
def Entry.before (a b : Entry) : Bool :=
  decide (a.severity.rank < b.severity.rank) ||
    (decide (a.severity.rank = b.severity.rank) && decide (b.arrival < a.arrival))

/-- The entry of two that stands first in the view. -/
def firstOf (a : Option Entry) (e : Entry) : Option Entry :=
  match a with
  | none => some e
  | some b => if e.before b then some e else some b

/-- The entries of the view (R128): those NEW or SHOWN. -/
def Stack.visible (k : Stack) : List Entry := k.entries.filter fun e => e.state != .acked

/-- The view-top (R128). -/
def Stack.top (k : Stack) : Option Entry := k.visible.foldl firstOf none

/-- The identity of the view-top. -/
def Stack.topId (k : Stack) : Option Identity := k.top.map Entry.id

/-- Identities with arrival numbers: two stacks differ here exactly when an entry has been added, renewed,
removed or evicted between them. -/
def Stack.keys (k : Stack) : List (Identity × Nat) := k.entries.map fun e => (e.id, e.arrival)

/-- An entry has gone or come between two stacks, or the view-top is another (R134). A renewal that a renumbering
gives its old number back does not show here; its chime request does. -/
def Stack.changed (k k' : Stack) : Bool := (k.keys != k'.keys) || (k.topId != k'.topId)

/-! ## The pending list (R125) -/

/-- The pending list holds an identity. -/
def Stack.waits (k : Stack) (id : Identity) : Bool := k.waiting.any fun w => w.1 == id

/-- An identity leaves the pending list. -/
def Stack.unwait (k : Stack) (id : Identity) : Stack :=
  { k with waiting := k.waiting.filter fun w => w.1 != id }

/-- An identity takes another severity at its place in the pending list. -/
def Stack.rewait (k : Stack) (id : Identity) (sev : Severity) : Stack :=
  { k with waiting := k.waiting.map fun w => if w.1 = id then (id, sev) else w }

/-- An identity joins the pending list, unless it is there already. -/
def Stack.wait (k : Stack) (id : Identity) (sev : Severity) : Stack :=
  if k.waits id then k else { k with waiting := k.waiting ++ [(id, sev)] }

/-! ## Arrivals, evictions, posts -/

/-- The entries renumbered 1, 2, 3 and so on in their arrival order (R121). -/
def renumber (es : List Entry) : List Entry :=
  es.map fun e => { e with arrival := 1 + (es.filter fun b => decide (b.arrival < e.arrival)).length }

/-- The arrival counter takes its next count, after a renumbering when it stands at its end (R121). -/
def Stack.bump (k : Stack) : Stack :=
  if k.counter < max32 then { k with counter := k.counter + 1 }
  else { k with entries := renumber k.entries, counter := k.entries.length + 1 }

/-- The entry with an identity is taken out. -/
def Stack.drop (k : Stack) (id : Identity) : Stack :=
  { k with entries := k.entries.filter fun e => e.id != id }

/-- A new arrival (R121): active, NEW, shown time 0, with the next arrival number. An inactive entry of the
same identity is replaced: renewed. -/
def Stack.arrive (k : Stack) (id : Identity) (sev : Severity) : Stack :=
  let b := k.bump
  { b with entries := (b.drop id).entries ++ [⟨id, sev, .new, true, b.counter, 0⟩] }

/-- An eviction (R124): the entry leaves; an active entry of a unit joins the pending list. -/
def Stack.evict (k : Stack) (e : Entry) : Stack :=
  if e.active && e.id.origin != .link then (k.drop e.id).wait e.id e.severity else k.drop e.id

/-- The entry evicted when non-RED room is short (R122). The entry posted for is no candidate. -/
def Stack.nonRedVictim (k : Stack) (id : Identity) : Option Entry :=
  match oldest (fun e => e.id != id && !e.active && e.nonRed) k.entries with
  | some e => some e
  | none => oldest (fun e => e.id != id && e.state == .acked && e.severity == .info) k.entries

/-- The stack once it has non-RED room (R122), if it can have it. -/
def Stack.makeNonRedRoom (k : Stack) (id : Identity) (adding : Bool) : Option Stack :=
  if k.nonRedCount < 12 ∧ (adding = true → k.entries.length < 16) then some k
  else (k.nonRedVictim id).map k.evict

/-- The entry evicted when a RED entry finds sixteen entries (R123). -/
def Stack.redVictim (k : Stack) (unit : Bool) : Option Entry :=
  match oldest (fun e => !e.active && !(e.severity == .red && e.state == .new)) k.entries with
  | some e => some e
  | none =>
    match oldest (fun e => e.state == .acked && e.nonRed) k.entries with
    | some e => some e
    | none =>
      match oldest Entry.nonRed k.entries with
      | some e => some e
      | none =>
        if unit then
          oldest (fun e => e.state == .acked && e.severity == .red && e.id.origin != .link) k.entries
        else none

/-- The stack once it has a free place for a RED entry (R123), if it can have it. -/
def Stack.makeRedRoom (k : Stack) (unit : Bool) : Option Stack :=
  if k.entries.length < 16 then some k else (k.redVictim unit).map k.evict

/-- The severity of an entry changed in place (R121). -/
def Stack.setSeverity (k : Stack) (id : Identity) (sev : Severity) : Stack :=
  { k with entries := k.entries.map fun e => if e.id = id then { e with severity := sev } else e }

/-- What a post did (R121, R132). -/
inductive PostOutcome where
  | added | renewed | updated | unchanged | noRoom
  deriving DecidableEq, Repr

/-- A post as R121 takes it, with room found by R122 or R123. The room is found first: where the arrival counter
stands at its end, the entries renumbered are those that an eviction has left (log 50). -/
def Stack.offer (k : Stack) (id : Identity) (sev : Severity) : Stack × PostOutcome :=
  match k.find id with
  | none =>
    match (if sev = .red then k.makeRedRoom (id.origin != .link) else k.makeNonRedRoom id true) with
    | some k' => (k'.arrive id sev, .added)
    | none => (k, .noRoom)
  | some e =>
    if e.active && e.severity == sev then (k, .unchanged)
    else
      match (if e.severity = .red ∧ sev ≠ .red then k.makeNonRedRoom id false else some k) with
      | some k' => if e.active then (k'.setSeverity id sev, .updated) else (k'.arrive id sev, .renewed)
      | none => (k, .noRoom)

/-- The chime requests of a post: one for an arrival (R121). -/
def PostOutcome.rings (o : PostOutcome) (sev : Severity) : List Severity :=
  match o with
  | .added | .renewed => [sev]
  | .updated | .unchanged | .noRoom => []

/-- A retry of one pending identity (R125), gathering the chime requests. -/
def Stack.retryOne (acc : Stack × List Severity) (w : Identity × Severity) : Stack × List Severity :=
  match acc.1.offer w.1 w.2 with
  | (_, .noRoom) => acc
  | (k, o) => (k.unwait w.1, acc.2 ++ o.rings w.2)

/-- A retry of the pending list (R125): once through the list as it stands, RED identities first. -/
def Stack.retry (k : Stack) : Stack × List Severity :=
  (k.waiting.filter (fun w => w.2 == .red) ++ k.waiting.filter (fun w => w.2 != .red)).foldl Stack.retryOne (k, [])

/-- The end of an event of the stack: a retry where the event calls for one (R125). -/
def Stack.settle (k : Stack) (rings : List Severity) (again : Bool) : Stack × List Severity :=
  if again then (k.retry.1, rings ++ k.retry.2) else (k, rings)

/-- A post has changed the severity of an entry that was held, active or renewed (R125, log 24). -/
def Stack.reseverity (k : Stack) (id : Identity) (sev : Severity) (o : PostOutcome) : Bool :=
  match o with
  | .updated | .renewed => (k.find id).any fun e => e.severity != sev
  | .added | .unchanged | .noRoom => false

/-- A post that R121 is offered, with the retry that follows a change of severity. -/
def Stack.offerSettled (k : Stack) (id : Identity) (sev : Severity) : (Stack × List Severity) × PostOutcome :=
  let r := k.offer id sev
  (r.1.settle (r.2.rings sev) (k.reseverity id sev r.2), r.2)

/-- A unit's post whose offer has been made or not: a post without room joins the pending list, or takes its
new severity there; one that is made leaves it (R125). -/
def Stack.afterOffer (k k' : Stack) (id : Identity) (sev : Severity) : PostOutcome → Stack
  | .noRoom => if k.waits id then k.rewait id sev else k.wait id sev
  | .added | .renewed | .updated | .unchanged => k'.unwait id

/-- A unit's post (R121, R125). While an identity waits and the stack holds no entry with it, a further post
changes its severity in the list only. -/
def Stack.unitPost (k : Stack) (id : Identity) (sev : Severity) : Stack × List Severity :=
  if k.waits id && (k.find id).isNone then (k.rewait id sev, [])
  else
    let r := k.offer id sev
    (k.afterOffer r.1 id sev r.2).settle (r.2.rings sev) (k.reseverity id sev r.2)

/-! ## Clearing, acknowledgement, display -/

/-- R127 removes the entry. -/
def Entry.gone (e : Entry) : Bool :=
  !e.active &&
    (match e.state with
     | .acked => true
     | .new => e.nonRed
     | .shown => e.severity == .info && decide (5000 ≤ e.shownTime))

/-- One entry changed, and removed if it comes into a situation of R127. -/
def Stack.change (k : Stack) (id : Identity) (f : Entry → Entry) : Stack :=
  { k with
    entries := (k.entries.map fun e => if e.id = id then f e else e).filter fun e => !(e.id == id && e.gone) }

/-- An entry made inactive. -/
def Entry.deactivate (e : Entry) : Entry := { e with active := false }

/-- An entry acknowledged (R130, R131): NEW and SHOWN become ACKED. -/
def Entry.acknowledge (e : Entry) : Entry := { e with state := .acked }

/-- The stack holds an active entry with an identity. -/
def Stack.holdsActive (k : Stack) (id : Identity) : Bool := (k.find id).any Entry.active

/-- A clear (R126): the entry becomes inactive, the identity leaves the pending list. -/
def Stack.clear (k : Stack) (id : Identity) : Stack × List Severity :=
  if k.holdsActive id then ((k.unwait id).change id Entry.deactivate).settle [] true
  else (k.unwait id, [])

/-- An acknowledgement of a held entry (R130, R131). -/
def Stack.acknowledge (k : Stack) (id : Identity) : Stack × List Severity :=
  (k.change id Entry.acknowledge).settle [] true

/-- A display report (R129): a NEW entry becomes SHOWN. -/
def Stack.display (k : Stack) (id : Identity) : Stack :=
  { k with
    entries := k.entries.map fun e =>
      if e.id = id ∧ e.state = .new then { e with state := .shown, shownTime := 0 } else e }

/-- The shown time of a SHOWN entry grows by 100 ms up to 5000 ms (R127). -/
def Entry.age (e : Entry) : Entry :=
  if e.state = .shown then { e with shownTime := min (e.shownTime + 100) 5000 } else e

/-- A step of the stack's own period (R127): entries whose time runs out are removed where R127 says so. -/
def Stack.tick (k : Stack) : Stack × List Severity :=
  let aged := k.entries.map Entry.age
  let left := aged.filter fun e => !(e.state == .shown && e.gone)
  Stack.settle { k with entries := left } [] (left.length != aged.length)

/-- The entry's shown time reaches 5000 ms at the step that comes (R127, log 5). -/
def Entry.expires (e : Entry) : Bool :=
  e.state == .shown && decide (4900 ≤ e.shownTime) && decide (e.shownTime < 5000)

/-- The shown time of one entry reaches 5000 ms (R127). -/
def Stack.expire (k : Stack) (id : Identity) : Stack × List Severity :=
  if (k.find id).any Entry.expires then
    let k' := k.change id fun e => { e with shownTime := 5000 }
    k'.settle [] (k'.entries.length != k.entries.length)
  else (k, [])

/-! ## The stack within the part -/

/-- An event of the stack takes effect: its chime requests are made, and MESSAGE_CHANGE is set where R134 says
so: at an arrival, which has its chime request (R121), and where the stack shows a change. -/
def State.takeStack (s : State) (r : Stack × List Severity) : State :=
  { s with
    stack := r.1
    chime := if s.mode.mode.chimes then s.chime.arrivals r.2 else s.chime
    link := if s.stack.changed r.1 || !r.2.isEmpty then s.link.raise .messageChange else s.link }

/-- A unit's post. -/
def State.post (s : State) (id : Identity) (sev : Severity) : State := s.takeStack (s.stack.unitPost id sev)

/-- A unit's clear. -/
def State.clear (s : State) (id : Identity) : State := s.takeStack (s.stack.clear id)

/-- An acknowledgement reported to the chime (R93), then the end of the stack's event. -/
def State.acknowledge (s : State) (id : Identity) : State :=
  (s.withChime s.chime.acknowledge).takeStack (s.stack.acknowledge id)

/-- A key acknowledgement (R130): it takes effect only on a view-top that is the displayed entry and SHOWN. -/
def State.keyAcknowledge (s : State) (displayed : Option Identity) : State :=
  match s.stack.top, displayed with
  | some e, some id => if e.id = id ∧ e.state = .shown then s.acknowledge id else s
  | _, _ => s

/-! ## The part's own messages (R136) -/

/-- LINK FAULT. -/
def msgLinkFault : Identity := ⟨240, .system, 0⟩
/-- LAMP FAULT of a lamp. -/
def msgLampFault (n : Fin 40) : Identity := ⟨241, .lamp, n.val⟩
/-- ODO STORE FAULT. -/
def msgStoreFault : Identity := ⟨242, .distance, 0⟩
/-- ODOMETER LOST. -/
def msgOdometerLost : Identity := ⟨243, .distance, 0⟩
/-- CALIBRATION MISSING. -/
def msgCalibrationMissing : Identity := ⟨244, .distance, 0⟩
/-- GAUGE INPUT FAULT of a channel. -/
def msgInputFault (c : Fin 8) : Identity := ⟨245, .gauge, c.val⟩
/-- BREAK DUE of a driver slot. -/
def msgBreakDue (slot : Nat) : Identity := ⟨246, .hours, slot⟩
/-- DRIVING LIMIT of a driver slot. -/
def msgDrivingLimit (slot : Nat) : Identity := ⟨247, .hours, slot⟩
/-- DAILY LIMIT of a driver slot. -/
def msgDailyLimit (slot : Nat) : Identity := ⟨248, .hours, slot⟩
/-- UNDECLARED DRIVING. -/
def msgUndeclared : Identity := ⟨249, .hours, 0⟩

/-- STACK_TICK (R127): every 100 ms outside INITIAL. -/
def execStackTick (s : State) : Host.Outcome State Fault Refusal :=
  .next (if s.mode.mode = .initial then s else s.takeStack s.stack.tick)

/-- SHOWN_TIME_EXPIRED (R127): the shown time of the named entry reaches 5000 ms. -/
def execShownTimeExpired (code : Nat) (origin : Origin) (arg : Nat) (s : State) :
    Host.Outcome State Fault Refusal :=
  .next (if s.mode.mode = .initial then s else s.takeStack (s.stack.expire ⟨code, origin, arg⟩))

end Sys2Proof.Machine
end

