-- ==== Sys2Proof/Machine/Operands.lean ====
section
/-! DEFINITION. The operand forms of the part: codes of the formats chapter read into names, numbers read in
the domain of a source (R20, R34), lamp demands in a lamp word (R13), and an order's argument words (R175,
R185). -/

namespace Sys2Proof.Machine

/-! ## Codes (R184, 11_formats.md) -/

/-- The severity with a code. -/
def Severity.ofCode : Nat → Option Severity
  | 0 => some .red
  | 1 => some .amber
  | 2 => some .info
  | _ => none

/-- The code of a severity. -/
def Severity.code : Severity → Nat
  | .red => 0
  | .amber => 1
  | .info => 2

/-- The origin with a code. -/
def originOfCode : Nat → Option Origin
  | 0 => some .link
  | 1 => some .gauge
  | 2 => some .lamp
  | 3 => some .hours
  | 4 => some .distance
  | 5 => some .system
  | _ => none

/-- The code of an origin. -/
def originCode : Origin → Nat
  | .link => 0
  | .gauge => 1
  | .lamp => 2
  | .hours => 3
  | .distance => 4
  | .system => 5

/-- The kind of table with a code. -/
def TableKind.ofCode : Nat → Option TableKind
  | 1 => some .gauge
  | 2 => some .lamp
  | 3 => some .slots
  | 4 => some .panel
  | 5 => some .glyph
  | 6 => some .rules
  | _ => none

/-- The activity with a code; 4 is UNKNOWN. -/
def Activity.ofCode : Nat → Option Activity
  | 0 => some .drive
  | 1 => some .work
  | 2 => some .available
  | 3 => some .rest
  | 4 => some .unknown
  | _ => none

/-- The code of an activity. -/
def Activity.code : Activity → Nat
  | .drive => 0
  | .work => 1
  | .available => 2
  | .rest => 3
  | .unknown => 4

/-- The demand that two bits read as a number give (R13). -/
def Demand.ofCode : Nat → Demand
  | 0 => .off
  | 1 => .on
  | 2 => .flashSlow
  | _ => .flashFast

/-- The code of a demand, which is also its strength (R78). -/
def Demand.code : Demand → Nat
  | .off => 0
  | .on => 1
  | .flashSlow => 2
  | .flashFast => 3

/-- The stronger of two demands (R78). -/
def Demand.max (a b : Demand) : Demand := if a.code < b.code then b else a

/-- Driver slot 1 or 2. -/
inductive DriverSlot where
  | one | two
  deriving DecidableEq, Repr

/-- The driver slot with a code (R103). -/
def DriverSlot.ofCode : Nat → Option DriverSlot
  | 1 => some .one
  | 2 => some .two
  | _ => none

/-- The number of a driver slot. -/
def DriverSlot.number : DriverSlot → Nat
  | .one => 1
  | .two => 2

/-- The other driver slot. -/
def DriverSlot.other : DriverSlot → DriverSlot
  | .one => .two
  | .two => .one

/-- A lamp field: 0 to 39 a lamp, anything else absent (R184; 255 is the code for absent). -/
def lampOfCode (n : Nat) : Option (Fin 40) := if h : n < 40 then some ⟨n, h⟩ else none

/-! ## Numbers in a domain (R20, R34) -/

/-- A word read as a two's-complement number or as an unsigned one. -/
def inDomain (signed : Bool) (w : Word) : Int := if signed then w.toInt else (w.toNat : Int)

/-- The demand at a position 0 to 7 of a lamp word (R13). -/
def demandAt (w : Word) (position : Nat) : Demand := Demand.ofCode (bits w (2 * position) 2)

/-! ## Orders (R175, R185) -/

/-- The orders of the table of R175. -/
inductive Order where
  | loadTable | start | setAttentionMask | copyOut | setTime | cardIn | cardOut | activity | setKFactor
  | setOdometer | lockCalibration | resetTrip | postMessage | clearMessage | ackMessage | selectPage
  | takeKeys | testLamps
  deriving DecidableEq, Repr

/-- The order with a function code; END is none of them. A function word is judged whole (R185). -/
def Order.ofCode : Nat → Option Order
  | 0x10 => some .start
  | 0x11 => some .setAttentionMask
  | 0x12 => some .loadTable
  | 0x13 => some .copyOut
  | 0x20 => some .setTime
  | 0x21 => some .cardIn
  | 0x22 => some .cardOut
  | 0x23 => some .activity
  | 0x30 => some .setKFactor
  | 0x31 => some .setOdometer
  | 0x32 => some .lockCalibration
  | 0x33 => some .resetTrip
  | 0x40 => some .postMessage
  | 0x41 => some .clearMessage
  | 0x42 => some .ackMessage
  | 0x50 => some .selectPage
  | 0x51 => some .takeKeys
  | 0x60 => some .testLamps
  | _ => none

/-- How many argument words an order has (R175). -/
def Order.argCount : Order → Nat
  | .loadTable => 3
  | .start => 0
  | .setAttentionMask => 1
  | .copyOut => 3
  | .setTime => 2
  | .cardIn => 5
  | .cardOut => 3
  | .activity => 4
  | .setKFactor => 1
  | .setOdometer => 2
  | .lockCalibration => 0
  | .resetTrip => 1
  | .postMessage => 3
  | .clearMessage => 2
  | .ackMessage => 3
  | .selectPage => 1
  | .takeKeys => 2
  | .testLamps => 1

/-- Argument word `i` of an order as an unsigned number (R185). -/
def arg (args : List Word) (i : Nat) : Nat := (args.getD i 0).toNat

/-- The two-word argument that begins at argument word `i`. -/
def arg2 (args : List Word) (i : Nat) : Nat := fromTwoWords (args.getD i 0) (args.getD (i + 1) 0)

end Sys2Proof.Machine
end

