-- ==== Sys2Proof/Machine/Strips.lean ====
section
/-! DEFINITION. The order engine (R173 to R176): the strips' states, the checks at a position, the running of
one order, the completion of a held one, and the return of a strip. -/

namespace Sys2Proof.Machine

/-- Word 0 of a strip in exchange memory (R171). -/
def Strip.base : Strip → Nat
  | .one => 0x100
  | .two => 0x300

/-- The other strip. -/
def Strip.other : Strip → Strip
  | .one => .two
  | .two => .one

/-- The cause that the return of a strip sets (R174). -/
def Strip.returnedCause : Strip → Cause
  | .one => .strip1Returned
  | .two => .strip2Returned

/-- The strip with a code (11_formats.md). -/
def Strip.ofCode : Nat → Option Strip
  | 1 => some .one
  | 2 => some .two
  | _ => none

/-- The code of a strip's state in the STRIP register and the report block. -/
def StripState.code : StripState → Nat
  | .free => 0
  | .queued => 1
  | .running => 2

/-- A strip's state. -/
def Engine.strip (e : Engine) : Strip → StripState
  | .one => e.strip1
  | .two => e.strip2

/-- A strip's state replaced. -/
def Engine.withStrip (e : Engine) (n : Strip) (st : StripState) : Engine :=
  match n with
  | .one => { e with strip1 := st }
  | .two => { e with strip2 := st }

/-- A strip becomes RUNNING: execution begins at word 1 with no order executed (R175). -/
def Engine.start (e : Engine) (n : Strip) : Engine :=
  { e.withStrip n .running with position := 1, executed := 0, hold := none }

/-- The RUNNING strip, if one runs. -/
def Engine.running (e : Engine) : Option Strip :=
  if e.strip1 = .running then some .one else if e.strip2 = .running then some .two else none

/-- A word of a strip. -/
def State.stripWord (s : State) (n : Strip) (offset : Nat) : Word := s.readXm (n.base + offset)

/-- What stands at a position of a strip (R175). -/
inductive Standing where
  | stop (reason : StopReason) (number : Nat)
  | endWord
  | order (o : Order)
  deriving DecidableEq, Repr

/-- The checks of R175 at the execution position, in their order. The number of a stop is the header's. -/
def State.standing (s : State) (n : Strip) : Standing :=
  let p := s.engine.position
  if 512 ≤ p then .stop .overrun s.engine.executed
  else if s.stripWord n p = 0 then .endWord
  else
    match Order.ofCode (s.stripWord n p).toNat with
    | none => .stop .unknownFunction p
    | some o =>
      if 511 < p + o.argCount + 1 then .stop .overrun s.engine.executed
      else if s.stripWord n (p + o.argCount + 1) ≠ mark then .stop .malformed p
      else .order o

/-- The return of a RUNNING strip (R174): the header, FREE, the cause, and a QUEUED other strip runs. -/
def State.returnStrip (s : State) (n : Strip) (reason : StopReason) (number : Nat) : State :=
  let s' := (s.writeXm n.base (headerWord reason number)).raise n.returnedCause
  let e : Engine := { s'.engine.withStrip n .free with hold := none }
  s'.withEngine (if e.strip n.other = .queued then e.start n.other else e)

/-- The running strip stops where a check of R175 other than that for END holds. -/
def State.stopOnce (s : State) : State :=
  match s.engine.running with
  | none => s
  | some n =>
    match s.standing n with
    | .stop reason number => s.returnStrip n reason number
    | .endWord | .order _ => s

/-- The checks on arrival at a position (log 9). A stop may set the other strip running, which may stop at its
first position in turn; then no strip is left. -/
def State.stopStrips (s : State) : State := s.stopOnce.stopOnce

/-- The running order ends (R175, R176): its result word, one more order executed, the position moves past the
closing word. -/
def State.finish (s : State) (r : Result) (detail : Nat) : State :=
  match s.engine.running with
  | none => s
  | some n =>
    match s.standing n with
    | .stop _ _ | .endWord => s
    | .order o =>
      let c := s.engine.position + o.argCount + 1
      let s' := s.writeXm (n.base + c) (resultWord r detail)
      (s'.withEngine { s'.engine with
        position := c + 1, executed := s'.engine.executed + 1, hold := none }).stopStrips

/-- How the event that executes an order leaves it (R176). -/
inductive OrderEnd where
  | ended (r : Result) (detail : Nat)
  | holds (h : Hold)
  deriving DecidableEq, Repr

/-- A refusal with detail 0. -/
def refuse (s : State) (r : Result) : State × OrderEnd := (s, .ended r 0)

/-- An order that ends DONE with detail 0. -/
def done (s : State) : State × OrderEnd := (s, .ended .done 0)

/-- What follows the body of an order. -/
def State.closeOrder (r : State × OrderEnd) : State :=
  match r.2 with
  | .ended res detail => r.1.finish res detail
  | .holds h => r.1.withEngine { r.1.engine with hold := some h }

/-- The order that stands at the execution position and is not being held, with its strip (R175). -/
def State.dueOrder (s : State) : Option (Strip × Order) :=
  if s.mode.mode = .initial ∨ s.engine.hold ≠ none then none
  else
    match s.engine.running with
    | none => none
    | some n =>
      match s.standing n with
      | .order o => some (n, o)
      | .stop _ _ | .endWord => none

/-- The argument words of the order at the execution position (R175). -/
def State.orderArgs (s : State) (n : Strip) (o : Order) : List Word :=
  s.readWords (n.base + s.engine.position + 1) o.argCount

/-- An order is executed where it stands at the execution position of the running strip; elsewhere the event
does not occur and nothing changes (log 1). -/
def State.runOrder (s : State) (o : Order) (body : State → List Word → State × OrderEnd) : State :=
  match s.dueOrder with
  | none => s
  | some (n, o') => if o' = o then State.closeOrder (body s (s.orderArgs n o)) else s

/-- END stands at the execution position. -/
def State.endDue (s : State) : Option Strip :=
  if s.mode.mode = .initial ∨ s.engine.hold ≠ none then none
  else s.engine.running.filter fun n => s.standing n == .endWord

/-- END (R175): the strip is returned with the executed count. -/
def execEndOrder (s : State) : Host.Outcome State Fault Refusal :=
  .next (match s.endDue with
    | none => s
    | some n => (s.returnStrip n .atEnd s.engine.executed).stopStrips)

end Sys2Proof.Machine
end

