-- ==== Sys2Proof/Machine/Messages.lean ====
section
/-! DEFINITION. The orders of the message stack (R131 to R133). -/

namespace Sys2Proof.Machine

/-- A code that the host may post (R132, R133). -/
def hostCode (n : Nat) : Bool := decide (1 ≤ n ∧ n < 240)

/-- The detail that names what a post did (11_formats.md). -/
def PostOutcome.detail : PostOutcome → Nat
  | .added => 1
  | .renewed => 2
  | .updated => 3
  | .unchanged => 4
  | .noRoom => 0

/-- A host post taken by the stack, with its result (R132). A post without room changes nothing. -/
def State.hostPost (s : State) (id : Identity) (sev : Severity) : State × OrderEnd :=
  let r := s.stack.offerSettled id sev
  if r.2 = .noRoom then refuse s .stackFull else (s.takeStack r.1, .ended .done r.2.detail)

/-- POST MESSAGE (R132). -/
def postMessageBody (s : State) (args : List Word) : State × OrderEnd :=
  if hostCode (arg args 0) then
    match Severity.ofCode (arg args 1) with
    | none => refuse s .badArgument
    | some sev => s.hostPost ⟨arg args 0, .link, arg args 2⟩ sev
  else refuse s .badArgument

/-- CLEAR MESSAGE (R133). -/
def clearMessageBody (s : State) (args : List Word) : State × OrderEnd :=
  let id : Identity := ⟨arg args 0, .link, arg args 1⟩
  if hostCode (arg args 0) then (s.clear id, .ended .done (if s.stack.holdsActive id then 1 else 2))
  else refuse s .badArgument

/-- ACK MESSAGE (R131). -/
def ackMessageBody (s : State) (args : List Word) : State × OrderEnd :=
  match originOfCode (arg args 1) with
  | none => refuse s .badArgument
  | some o =>
    let id : Identity := ⟨arg args 0, o, arg args 2⟩
    if arg args 0 = 0 ∨ (s.stack.find id).isNone = true then refuse s .badArgument else done (s.acknowledge id)

/-- POST_MESSAGE (R132). -/
def execPostMessage (s : State) : Host.Outcome State Fault Refusal := .next (s.runOrder .postMessage postMessageBody)

/-- CLEAR_MESSAGE (R133). -/
def execClearMessage (s : State) : Host.Outcome State Fault Refusal :=
  .next (s.runOrder .clearMessage clearMessageBody)

/-- ACK_MESSAGE (R131). -/
def execAckMessage (s : State) : Host.Outcome State Fault Refusal := .next (s.runOrder .ackMessage ackMessageBody)

end Sys2Proof.Machine
end

