-- ==== Sys2Proof/Machine/Gauge.lean ====
section
/-! DEFINITION. The gauge unit: pointer arithmetic (R17 to R31), channel states (R39 to R47) and threshold
watchers (R48 to R51). -/

namespace Sys2Proof.Machine

/-! ## Tables and sources -/

/-- A channel's entry in the GAUGE table in use. -/
def State.gaugeEntry (s : State) (c : Fin 8) : Option GaugeEntry := s.tables.gauge.map fun t => t[c]

/-- The channel's entry, if the channel is enabled. -/
def State.enabledEntry (s : State) (c : Fin 8) : Option GaugeEntry := (s.gaugeEntry c).filter GaugeEntry.enabled

/-- The record of a slot. -/
def State.slotRec (s : State) (i : Fin 64) : SlotRec := s.intake.slots[i]

/-- The condition of a source (R40). -/
def State.sourceCondition (s : State) : Source → Condition
  | .slot i => (s.slotRec i).condition
  | .speed => if s.speed.k.isSome then .good else .notAvailable

/-- Inputs, breakpoints and levels of this source are signed numbers (R20, R34). -/
def State.sourceSigned (s : State) : Source → Bool
  | .slot i => (s.slotRec i).type == .signed
  | .speed => false

/-- The present input of a source (R20). -/
def State.sourceInput (s : State) : Source → Int
  | .slot i => inDomain (s.sourceSigned (.slot i)) (s.slotRec i).accepted
  | .speed => (s.speed.v : Int)

/-- The state that a source calls for (R40). -/
def State.calledFor (s : State) (src : Source) : ChannelState :=
  if s.sourceCondition src = .good then .tracking else .failed

/-! ## Arithmetic (R23 to R30) -/

/-- The interpolation of R24 in a segment that begins at x0, p0 and ends at x1, p1. -/
def interpolate (x0 x1 x : Int) (p0 p1 : Nat) : Nat :=
  ((p0 : Int) + Int.fdiv (2 * ((x - x0) * ((p1 : Int) - p0)) + (x1 - x0)) (2 * (x1 - x0))).toNat

/-- The curve stage (R23): held at the end positions outside the breakpoints, interpolated between. -/
def curve (signed : Bool) (x : Int) : List Breakpoint → Nat
  | [] => 0
  | [b] => b.p
  | b :: b' :: rest =>
    if x ≤ inDomain signed b.x then b.p
    else if x < inDomain signed b'.x then
      interpolate (inDomain signed b.x) (inDomain signed b'.x) x b.p b'.p
    else curve signed x (b' :: rest)

/-- The damping step (R26) on the distance D: a share k/256 truncated toward zero, at least one sixteenth. -/
def dampingStep (d : Int) (k : Nat) : Int :=
  let step := Int.tdiv (d * k) 256
  if d = 0 then 0 else if step = 0 then (if 0 < d then 1 else -1) else step

/-- The damping stage (R26). -/
def damp (f t k : Nat) : Nat := ((f : Int) + dampingStep (16 * (t : Int) - f) k).toNat

/-- The quantisation stage (R28). -/
def quantise (f travelMax : Nat) : Nat := min ((f + 8) / 16) travelMax

/-- The dead band and slew stages (R29, R30). -/
def slewStep (p g band slew : Nat) : Nat :=
  if p ≤ g then (if g - p ≤ band then p else p + min (g - p) slew)
  else (if p - g ≤ band then p else p - min (p - g) slew)

/-- Quantise, dead band, slew and drive (R28 to R31) from the filtered target that the damping left. -/
def Channel.drive (ch : Channel) (e : GaugeEntry) (t f band : Nat) : Channel :=
  let g := quantise f e.travelMax
  let p := slewStep ch.p g band e.slew
  { ch with t := t, f := f, g := g, p := p, coil := some (p % 48) }

/-- Damping and the stages after it, with a filtered target (R18, R26). -/
def Channel.driveFiltered (ch : Channel) (e : GaugeEntry) (t : Nat) : Channel :=
  ch.drive e t (damp ch.f t e.k) e.deadBand

/-- The stages with a direct target (R18, R27). -/
def Channel.driveDirect (ch : Channel) (e : GaugeEntry) (t : Nat) : Channel := ch.drive e t (16 * t) 0

/-- Input and curve (R20, R22, R23, R25), then the filtered stages. -/
def State.track (s : State) (ch : Channel) (e : GaugeEntry) : Channel :=
  let x := s.sourceInput e.source
  { ch with x := x }.driveFiltered e (min (curve (s.sourceSigned e.source) x e.points) e.travelMax)

/-- One update of homing (R42): the count falls by at most 24 and the coils follow it. -/
def Channel.homeStep (ch : Channel) : Channel :=
  { ch with homing := ch.homing - min 24 ch.homing, p := 0, coil := some ((ch.homing - min 24 ch.homing) % 48) }

/-! ## Changes of state (R39, R40, R51) -/

/-- A channel enters a state. GAUGE INPUT FAULT follows FAILED (R51); the coils are released in IDLE, UNHOMED
and PARKED (R47). -/
def Channel.enter (ch : Channel) (st : ChannelState) : Channel :=
  { ch with
    state := st
    coil := if st = .idle ∨ st = .parked ∨ st = .unhomed then none else ch.coil }

/-- The input fault message after a change of state of channel `c` (R51). -/
def State.faultMessage (s : State) (c : Fin 8) (old new : ChannelState) : State :=
  if old ≠ .failed ∧ new = .failed then s.post (msgInputFault c) .amber
  else if old = .failed ∧ new ≠ .failed then s.clear (msgInputFault c)
  else s

/-- Channel `c` enters a state, its record otherwise as given. -/
def State.enterWith (s : State) (c : Fin 8) (ch : Channel) (st : ChannelState) : State :=
  (s.setChannel c (ch.enter st)).faultMessage c s.gauges[c].state st

/-- Channel `c` enters a state. -/
def State.enterState (s : State) (c : Fin 8) (st : ChannelState) : State := s.enterWith c s.gauges[c] st

/-- The channel enters SWEEPING in phase OUTWARD (R44). -/
def State.enterSweep (s : State) (c : Fin 8) : State :=
  s.enterWith c { s.gauges[c] with phase := .outward } .sweeping

/-- The channel enters HOMING (R42). -/
def State.enterHoming (s : State) (c : Fin 8) (e : GaugeEntry) (after : AfterHoming) : State :=
  s.enterWith c { s.gauges[c] with homing := e.travelMax + 60, after := after } .homing

/-- A tracking, holding or failed channel follows its source to a new condition (R40). -/
def State.follow (s : State) (c : Fin 8) (e : GaugeEntry) (cond : Condition) : State :=
  match s.gauges[c].state with
  | .tracking =>
    match cond with
    | .good => s
    | .stale =>
      if e.holdTime = 0 then s.enterState c .failed
      else s.enterWith c { s.gauges[c] with hold := 0 } .holding
    | .error | .notAvailable | .never => s.enterState c .failed
  | .holding =>
    match cond with
    | .good => s.enterState c .tracking
    | .stale => s
    | .error | .notAvailable | .never => s.enterState c .failed
  | .failed =>
    match cond with
    | .good => s.enterState c .tracking
    | .stale | .error | .notAvailable | .never => s
  | .idle | .unhomed | .homing | .sweeping | .parking | .parked => s

/-! ## Watchers (R48 to R50) -/

/-- The two watchers of a channel. -/
inductive Watcher where
  | zero | one
  deriving DecidableEq, Repr

/-- The watcher's entry. -/
def GaugeEntry.watcher (e : GaugeEntry) : Watcher → WatcherEntry
  | .zero => e.watcher0
  | .one => e.watcher1

/-- The watcher is in ALARM. -/
def Channel.alarm (ch : Channel) : Watcher → Bool
  | .zero => ch.alarm0
  | .one => ch.alarm1

/-- The watcher's state replaced. -/
def Channel.withAlarm (ch : Channel) (w : Watcher) (b : Bool) : Channel :=
  match w with
  | .zero => { ch with alarm0 := b }
  | .one => { ch with alarm1 := b }

/-- The watcher's number in the part, 0 to 15 (R35). -/
def watcherNumber (c : Fin 8) : Watcher → Nat
  | .zero => 2 * c.val
  | .one => 2 * c.val + 1

/-- The message of a watcher after a change of its state (R50). -/
def State.watcherMessage (s : State) (c : Fin 8) (w : Watcher) (e : WatcherEntry) (old new : Bool) : State :=
  match e.message with
  | none => s
  | some (code, sev) =>
    if !old && new then s.post ⟨code, .gauge, watcherNumber c w⟩ sev
    else if old && !new then s.clear ⟨code, .gauge, watcherNumber c w⟩
    else s

/-- A watcher of channel `c` takes a state (R50). -/
def State.setAlarm (s : State) (c : Fin 8) (e : GaugeEntry) (w : Watcher) (b : Bool) : State :=
  (s.setChannel c (s.gauges[c].withAlarm w b)).watcherMessage c w (e.watcher w) (s.gauges[c].alarm w) b

/-- A watcher's state after judging an input (R48). -/
def WatcherEntry.judge (e : WatcherEntry) (signed : Bool) (alarm : Bool) (x : Int) : Bool :=
  let set := inDomain signed e.setLevel
  let release := inDomain signed e.releaseLevel
  if e.above then (if alarm then decide (release < x) else decide (set ≤ x))
  else (if alarm then decide (x < release) else decide (x ≤ set))

/-- An armed watcher judges an input (R48). -/
def State.evaluateWatcher (s : State) (c : Fin 8) (e : GaugeEntry) (x : Int) (w : Watcher) : State :=
  s.setAlarm c e w ((e.watcher w).judge (s.sourceSigned e.source) (s.gauges[c].alarm w) x)

/-- The armed watchers of a channel judge an input (R48). -/
def State.evaluateWatchers (s : State) (c : Fin 8) (e : GaugeEntry) (x : Int) : State :=
  if s.gauges[c].armed then (s.evaluateWatcher c e x .zero).evaluateWatcher c e x .one else s

/-- The fail state of a watcher applies (R49). -/
def State.failWatcher (s : State) (c : Fin 8) (e : GaugeEntry) (w : Watcher) : State :=
  if (e.watcher w).alarmOnFail then s.setAlarm c e w true else s

/-- The source of a channel's armed watchers has left GOOD (R49). -/
def State.failWatchers (s : State) (c : Fin 8) (e : GaugeEntry) : State :=
  if s.gauges[c].armed then (s.failWatcher c e .zero).failWatcher c e .one else s

/-- Both watchers of a channel become CLEAR and are disarmed (R38, R49). -/
def State.disarm (s : State) (c : Fin 8) : State :=
  let s' := match s.gaugeEntry c with
    | none => s
    | some e => (s.setAlarm c e .zero false).setAlarm c e .one false
  s'.setChannel c { s'.gauges[c] with alarm0 := false, alarm1 := false, armed := false }

/-- The watchers of an enabled channel are armed from CLEAR (R49). -/
def State.arm (s : State) (c : Fin 8) : State :=
  match s.enabledEntry c with
  | none => s
  | some e =>
    let s' := s.disarm c
    let s'' := s'.setChannel c { s'.gauges[c] with armed := true }
    if s.sourceCondition e.source = .good then s''.evaluateWatchers c e (s.sourceInput e.source)
    else s''.failWatchers c e

/-- Every channel in turn. -/
def State.forChannels (s : State) (f : State → Fin 8 → State) : State := allChannels.foldl f s

/-- What a change of a source's condition does to one channel (R40, R49); `reading` is set when a reading has
been accepted that leaves the condition GOOD, which the watchers judge (R48). -/
def State.sourceEvent (src : Source) (old new : Condition) (reading : Bool) (s : State) (c : Fin 8) : State :=
  match s.enabledEntry c with
  | none => s
  | some e =>
    if e.source = src then
      let s' := if old = new then s else s.follow c e new
      if reading then s'.evaluateWatchers c e (s'.sourceInput src)
      else if old = .good ∧ new ≠ .good then s'.failWatchers c e
      else s'
    else s

/-! ## Commands of mode control (R45) and facts for it (R52) -/

/-- Start with sweep, or without (R45). -/
def State.startChannel (sweep : Bool) (s : State) (c : Fin 8) : State :=
  match s.enabledEntry c with
  | none => s
  | some e =>
    match s.gauges[c].state with
    | .unhomed => s.enterHoming c e (if sweep && e.sweep then .sweep else .source)
    | .homing => if sweep then s else s.setChannel c { s.gauges[c] with after := .source }
    | .parking => if sweep then s else s.enterState c (s.calledFor e.source)
    | .parked => if sweep && e.sweep then s.enterSweep c else s.enterState c (s.calledFor e.source)
    | .idle | .sweeping | .tracking | .holding | .failed => s

/-- Park (R45). -/
def State.parkChannel (s : State) (c : Fin 8) : State :=
  match s.enabledEntry c with
  | none => s
  | some e =>
    match s.gauges[c].state with
    | .unhomed => s.enterHoming c e .park
    | .homing => s.setChannel c { s.gauges[c] with after := .park }
    | .sweeping | .tracking | .holding | .failed => s.enterState c .parking
    | .idle | .parking | .parked => s

/-- Settling (R52). -/
def State.settling (s : State) : Bool :=
  allChannels.any fun c =>
    (s.enabledEntry c).isSome && (s.gauges[c].state == .homing || s.gauges[c].state == .sweeping)

/-- Parked (R52). -/
def State.parked (s : State) : Bool :=
  allChannels.all fun c => s.gauges[c].state == .parked || s.gauges[c].state == .idle

/-! ## The update of one channel (R17, R18) -/

/-- Homing has ended (R42): the record stands at the stop, and the channel goes on as its after-homing field
says. -/
def State.endHoming (s : State) (c : Fin 8) (e : GaugeEntry) : State :=
  let s' := s.setChannel c
    { s.gauges[c] with homing := 0, t := 0, f := 0, g := 0, p := 0, coil := some 0 }
  match s.gauges[c].after with
  | .sweep => s'.enterSweep c
  | .park => s'.enterState c .parked
  | .source => s'.enterState c (s'.calledFor e.source)

/-- An update in HOMING (R42). -/
def State.updateHoming (s : State) (c : Fin 8) (e : GaugeEntry) : State :=
  let s' := s.setChannel c s.gauges[c].homeStep
  if s'.gauges[c].homing = 0 then s'.endHoming c e else s'

/-- An update in SWEEPING (R44). -/
def State.updateSweep (s : State) (c : Fin 8) (e : GaugeEntry) : State :=
  match s.gauges[c].phase with
  | .outward =>
    let ch := s.gauges[c].driveDirect e e.travelMax
    s.setChannel c { ch with phase := if ch.p = e.travelMax then .return else .outward }
  | .return =>
    let s' := s.setChannel c (s.gauges[c].driveDirect e 0)
    if s'.gauges[c].p = 0 then s'.enterState c (s'.calledFor e.source) else s'

/-- An update in HOLDING (R41): the timer runs, and at the hold time the channel enters FAILED. -/
def State.updateHolding (s : State) (c : Fin 8) (e : GaugeEntry) : State :=
  let ch := s.track s.gauges[c] e
  let s' := s.setChannel c { ch with hold := min (ch.hold + 10) e.holdTime }
  if e.holdTime ≤ ch.hold + 10 then s'.enterState c .failed else s'

/-- An update in PARKING (R46). -/
def State.updateParking (s : State) (c : Fin 8) (e : GaugeEntry) : State :=
  let s' := s.setChannel c (s.gauges[c].driveDirect e 0)
  if s'.gauges[c].p = 0 then s'.enterState c .parked else s'

/-- The update of one channel (R18). -/
def State.updateChannel (s : State) (c : Fin 8) : State :=
  match s.enabledEntry c with
  | none => s
  | some e =>
    match s.gauges[c].state with
    | .idle | .unhomed | .parked => s
    | .homing => s.updateHoming c e
    | .sweeping => s.updateSweep c e
    | .tracking => s.setChannel c (s.track s.gauges[c] e)
    | .holding => s.updateHolding c e
    | .failed => s.setChannel c (s.gauges[c].driveFiltered e e.failPosition)
    | .parking => s.updateParking c e

end Sys2Proof.Machine
end

