-- ==== Sys2Proof/Machine/Hours.lean ====
section
/-! DEFINITION. The hours unit (R95 to R119): the minute clock, the closing of activities, the evaluation with
its alerts, and the four orders. -/

namespace Sys2Proof.Machine

/-! ## Records -/

/-- A driver record. -/
def Hours.driver (h : Hours) : DriverSlot → Driver
  | .one => h.driver1
  | .two => h.driver2

/-- A driver record replaced. -/
def Hours.withDriver (h : Hours) (slot : DriverSlot) (d : Driver) : Hours :=
  match slot with
  | .one => { h with driver1 := d }
  | .two => { h with driver2 := d }

/-- The driver's open activity is DRIVE. -/
def Driver.drives (d : Driver) : Bool := d.activity.any fun o => o.kind == .drive

/-- The clock follows a reported minute forward (R97). -/
def Hours.advance (h : Hours) (t : Nat) : Hours :=
  if h.clock < t then { h with clock := t, minuteCount := 0 } else h

/-! ## Closing an activity (R102, R108, R109) -/

/-- A closed activity appended to the history; the oldest of 32 makes room (R102). -/
def appendHistory (h : List HistoryEntry) (e : HistoryEntry) : List HistoryEntry :=
  if h.length < 32 then h ++ [e] else h.drop 1 ++ [e]

/-- The counters and the break stage after a closed REST (R109). -/
def Driver.rested (d : Driver) (rules : Option RulesTable) (len : Nat) : Driver :=
  match rules with
  | none => d
  | some r =>
    if r.dailyRest ≤ len then { d with cd := 0, dd := 0, firstTaken := false }
    else if r.breakFull ≤ len then { d with cd := 0, firstTaken := false }
    else if d.firstTaken = false ∧ r.splitFirst ≤ len then { d with firstTaken := true }
    else if d.firstTaken = true ∧ r.splitSecond ≤ len then { d with cd := 0, firstTaken := false }
    else d

/-- The counters after a closed activity (R108). -/
def Driver.account (d : Driver) (rules : Option RulesTable) (kind : Activity) (len : Nat) : Driver :=
  match kind with
  | .drive => { d with cd := min (d.cd + len) 65535, dd := min (d.dd + len) 65535 }
  | .rest => d.rested rules len
  | .work | .available | .unknown => d

/-- An activity from minute `start` closes at minute `t` (R108); no length changes nothing. -/
def Driver.close (d : Driver) (rules : Option RulesTable) (kind : Activity) (start t : Nat) : Driver :=
  if t - start = 0 then d
  else ({ d with history := appendHistory d.history ⟨kind, start, min (t - start) 8191⟩ }).account rules kind (t - start)

/-- The open activity closes at minute `t`. -/
def Driver.closeOpen (d : Driver) (rules : Option RulesTable) (t : Nat) : Driver :=
  match d.activity with
  | none => d
  | some o => d.close rules o.kind o.start t

/-- The open activity closes at minute `t` and another opens there. -/
def Driver.switch (d : Driver) (rules : Option RulesTable) (kind : Activity) (t : Nat) : Driver :=
  { d.closeOpen rules t with activity := some ⟨kind, t⟩ }

/-! ## Live values and alerts (R111 to R113) -/

/-- The live values of a slot with an open activity (R111). -/
def Driver.liveValues (d : Driver) (r : RulesTable) (o : OpenActivity) (clock : Nat) : Live :=
  let driven := if o.kind = .drive then clock - o.start else 0
  let b := if o.kind = .rest then clock - o.start else 0
  let base := if d.firstTaken then r.splitSecond else r.breakFull
  let cd := if r.dailyRest ≤ b ∨ base ≤ b then 0 else d.cd + driven
  let dd := if r.dailyRest ≤ b then 0 else d.dd + driven
  ⟨cd, dd, r.cdLimit - cd, r.dailyLimit - dd, base - b⟩

/-- The live values, where R112 makes them available. -/
def Driver.liveNow (d : Driver) (rules : Option RulesTable) (clock : Nat) : Option Live :=
  rules.bind fun r => d.activity.map fun o => d.liveValues r o clock

/-- The alert flags of R113. -/
def Driver.alertsNow (d : Driver) (rules : Option RulesTable) (clock : Nat) : Alerts :=
  match rules, d.liveNow rules clock with
  | some r, some l =>
    if d.drives then
      ⟨decide (0 < l.rcd ∧ l.rcd ≤ r.prewarn), decide (l.rcd = 0), decide (l.rdd = 0)⟩
    else ⟨false, false, false⟩
  | _, _ => ⟨false, false, false⟩

/-- A record after an evaluation: its live values and flags alone (R110). -/
def Driver.evaluated (d : Driver) (rules : Option RulesTable) (clock : Nat) : Driver :=
  { d with live := d.liveNow rules clock, alerts := d.alertsNow rules clock }

/-- Undeclared driving (R115). -/
def Hours.undeclaredNow (h : Hours) (moving : Bool) : Bool :=
  moving && !h.driver1.drives && !h.driver2.drives

/-- The hours unit after an evaluation (R110). -/
def Hours.evaluated (h : Hours) (rules : Option RulesTable) (moving : Bool) : Hours :=
  { h with
    driver1 := h.driver1.evaluated rules h.clock
    driver2 := h.driver2.evaluated rules h.clock
    undeclared := h.undeclaredNow moving }

/-- The message and the cause of one alert (R114, R115): posted with HOURS_ALERT at its rise, cleared at its end. -/
def State.alert (s : State) (id : Identity) (sev : Severity) (old new : Bool) : State :=
  if !old && new then (s.post id sev).raise .hoursAlert
  else if old && !new then s.clear id
  else s

/-- The three alerts of a slot, in the order of R113 (log 11). -/
def State.slotAlerts (s : State) (slot : Nat) (old new : Alerts) : State :=
  ((s.alert (msgBreakDue slot) .amber old.prewarn new.prewarn).alert
    (msgDrivingLimit slot) .red old.cdExceeded new.cdExceeded).alert
    (msgDailyLimit slot) .amber old.ddExceeded new.ddExceeded

/-- An evaluation of the hours unit (R110). -/
def State.evaluateHours (s : State) : State :=
  let old := s.hours
  let new := old.evaluated s.tables.rules s.speed.moving
  (((s.withHours new).slotAlerts 1 old.driver1.alerts new.driver1.alerts).slotAlerts
    2 old.driver2.alerts new.driver2.alerts).alert msgUndeclared .amber old.undeclared new.undeclared

/-- The hours unit's demands on a lamp (R114, R115). -/
def State.hoursDemands (s : State) (n : Fin 40) : Bool :=
  match s.tables.rules with
  | none => false
  | some r =>
    let a1 := s.hours.driver1.alerts
    let a2 := s.hours.driver2.alerts
    (r.prewarnLamp == some n && (a1.prewarn || a2.prewarn)) ||
      (r.limitLamp == some n && (a1.cdExceeded || a1.ddExceeded || a2.cdExceeded || a2.ddExceeded)) ||
      (r.undeclaredLamp == some n && s.hours.undeclared)

/-! ## Orders (R96, R103 to R107) -/

/-- A minute lies before what a record depends on (R96). -/
def Driver.dependsAfter (d : Driver) (m : Nat) : Bool :=
  match d.activity with
  | some o => decide (m < o.start)
  | none => d.withdrawal.any fun w => decide (m < w)

/-- SET TIME (R96). -/
def setTimeBody (s : State) (args : List Word) : State × OrderEnd :=
  let m := arg2 args 0
  if s.hours.driver1.dependsAfter m || s.hours.driver2.dependsAfter m then refuse s .timeBeforeRecord
  else done (s.withHours { s.hours with clock := m, clockSet := true, minuteCount := 0 }).evaluateHours

/-- The checks common to CARD IN, CARD OUT and ACTIVITY (R103). -/
def hoursOrder (s : State) (slot : Nat) (body : DriverSlot → State × OrderEnd) : State × OrderEnd :=
  if s.hours.clockSet then
    match DriverSlot.ofCode slot with
    | none => refuse s .badArgument
    | some d => body d
  else refuse s .clockUnset

/-- An accepted order at minute `t` leaves these records: the clock follows, and the hours unit evaluates. -/
def State.acceptHours (s : State) (h : Hours) (t : Nat) : State := (s.withHours (h.advance t)).evaluateHours

/-- The record that a CARD IN leaves (R106). The evaluation in the same step clears the alert flags, since no
DRIVE is open. -/
def Driver.cardIn (d : Driver) (rules : Option RulesTable) (card t : Nat) : Driver :=
  if d.card = some card then
    let gap := if rules.any RulesTable.gapAsRest then Activity.rest else Activity.unknown
    let d' := match d.withdrawal with
      | none => d
      | some w => d.close rules gap w t
    { d' with withdrawal := none, activity := some ⟨.unknown, t⟩ }
  else
    { d with
      card := some card, activity := some ⟨.unknown, t⟩, cd := 0, dd := 0, firstTaken := false, withdrawal := none,
      history := [] }

/-- CARD IN (R106). -/
def cardInBody (s : State) (args : List Word) : State × OrderEnd :=
  hoursOrder s (arg args 0) fun slot =>
    let card := arg2 args 1
    let t := arg2 args 3
    let d := s.hours.driver slot
    let other := s.hours.driver slot.other
    if d.activity.isSome then refuse s .slotOccupied
    else if other.activity.isSome ∧ other.card = some card then refuse s .duplicateCard
    else if (d.withdrawal.any fun w => decide (t < w)) then refuse s .outOfOrder
    else done (s.acceptHours (s.hours.withDriver slot (d.cardIn s.tables.rules card t)) t)

/-- The record that a CARD OUT leaves (R107). -/
def Driver.cardOut (d : Driver) (rules : Option RulesTable) (t : Nat) : Driver :=
  { d.closeOpen rules t with activity := none, withdrawal := some t }

/-- CARD OUT (R107). -/
def cardOutBody (s : State) (args : List Word) : State × OrderEnd :=
  hoursOrder s (arg args 0) fun slot =>
    let t := arg2 args 1
    let d := s.hours.driver slot
    match d.activity with
    | none => refuse s .noCard
    | some o =>
      if t < o.start then refuse s .outOfOrder
      else done (s.acceptHours (s.hours.withDriver slot (d.cardOut s.tables.rules t)) t)

/-- A crew swap (R105). -/
def State.crewSwap (s : State) (slot : DriverSlot) (t : Nat) : State :=
  let rules := s.tables.rules
  s.acceptHours
    ((s.hours.withDriver slot ((s.hours.driver slot).switch rules .drive t)).withDriver slot.other
      ((s.hours.driver slot.other).switch rules .available t)) t

/-- The other slot drives since a minute later than `t` (R105). -/
def Driver.drivesSinceAfter (d : Driver) (t : Nat) : Bool := d.activity.any fun o => decide (t < o.start)

/-- ACTIVITY (R104, R105). -/
def activityBody (s : State) (args : List Word) : State × OrderEnd :=
  hoursOrder s (arg args 0) fun slot =>
    let t := arg2 args 2
    let d := s.hours.driver slot
    match Activity.ofCode (arg args 1) with
    | none | some .unknown => refuse s .badArgument
    | some kind =>
      match d.activity with
      | none => refuse s .noCard
      | some o =>
        if t < o.start then refuse s .outOfOrder
        else if kind = o.kind then done s
        else if kind = .drive ∧ (s.hours.driver slot.other).drives = true then
          (if (s.hours.driver slot.other).drivesSinceAfter t then refuse s .outOfOrder
            else (s.crewSwap slot t, .ended .doneCrewSwap 0))
        else done (s.acceptHours (s.hours.withDriver slot (d.switch s.tables.rules kind t)) t)

/-- SET_TIME (R96). -/
def execSetTime (s : State) : Host.Outcome State Fault Refusal := .next (s.runOrder .setTime setTimeBody)

/-- CARD_IN (R106). -/
def execCardIn (s : State) : Host.Outcome State Fault Refusal := .next (s.runOrder .cardIn cardInBody)

/-- CARD_OUT (R107). -/
def execCardOut (s : State) : Host.Outcome State Fault Refusal := .next (s.runOrder .cardOut cardOutBody)

/-- ACTIVITY (R104). -/
def execActivity (s : State) : Host.Outcome State Fault Refusal := .next (s.runOrder .activity activityBody)

/-- The minute falls due (R95): a SET clock below its greatest value steps. In INITIAL no evaluation is made;
the first one follows at its end (R119, log 25). -/
def State.minuteDue (s : State) : State :=
  let h := { s.hours with minuteCount := 0 }
  if h.clockSet ∧ h.clock < max32 then
    let s' := s.withHours { h with clock := h.clock + 1 }
    if s.mode.mode = .initial then s' else s'.evaluateHours
  else s.withHours h

/-- MINUTE_DUE (R95): the minute count, which waits just before its end, reaches it (log 3). An order that has set
the count to 0 has put the minute off (R96, R97). -/
def execMinuteDue (s : State) : Host.Outcome State Fault Refusal :=
  .next (if s.hours.minuteCount = 59999 then s.minuteDue else s)

end Sys2Proof.Machine
end

