-- ==== Sys2Proof/Machine/Lamps.lean ====
section
/-! DEFINITION. The lamp unit (R76 to R90): demands, the evaluation of one lamp, its output, its faults and its
messages. -/

namespace Sys2Proof.Machine

/-! ## Table and sources -/

/-- The entry of a used lamp in the LAMP table in use. -/
def State.lampEntry (s : State) (n : Fin 40) : Option LampEntry :=
  (s.tables.lamp.map fun t => t.entries[n]).filter LampEntry.used

/-- The lamp is legal under a table, or without one (R72). -/
def legalUnder (t : Option LampTable) (n : Fin 40) : Bool :=
  match t with
  | none => decide (n.val < 8)
  | some t => t.entries[n].used && t.entries[n].legal

/-- The lamp is legal (R72). -/
def State.legal (s : State) (n : Fin 40) : Bool := legalUnder s.tables.lamp n

/-- The record of a lamp. -/
def State.lamp (s : State) (n : Fin 40) : LampRec := s.lamps.recs[n]

/-- The fault states that R88 and R89 report. -/
def LampFault.reported : LampFault → Bool
  | .open | .latchedOff => true
  | .none | .shortWait => false

/-- The fault states in which a lamp is not driven (R83). -/
def LampFault.dark : LampFault → Bool
  | .shortWait | .latchedOff => true
  | .none | .open => false

/-- A legal lamp is OPEN or LATCHED_OFF (R88). -/
def State.legalFault (s : State) (n : Fin 40) : Bool := s.legal n && (s.lamp n).fault.reported

/-- The lamp is the fault tell-tale. -/
def State.isTellTale (s : State) (n : Fin 40) : Bool := s.tables.lamp.any fun t => t.faultTellTale == n

/-- A watcher in ALARM names the lamp (R50). -/
def State.watchersDemand (s : State) (n : Fin 40) : Bool :=
  allChannels.any fun c =>
    (s.gaugeEntry c).any fun e =>
      (s.gauges[c].alarm0 && e.watcher0.lamp == some n) || (s.gauges[c].alarm1 && e.watcher1.lamp == some n)

/-- The data-fault demand stands on the lamp (R14). -/
def State.dataFaultDemands (s : State) (n : Fin 40) : Bool :=
  s.intake.dataFault && (s.tables.slots.any fun t => t.dataFaultLamp == some n)

/-- The fault tell-tale demand stands on the lamp (R88, R63). -/
def State.tellTaleDemands (s : State) (n : Fin 40) : Bool :=
  s.isTellTale n && (s.store.failed || allLamps.any s.legalFault)

/-- The internal sources that raise a demand on a lamp (R78, R94). -/
def State.sourcesOf (s : State) (n : Fin 40) : Sources :=
  ⟨s.watchersDemand n, s.hoursDemands n, s.dataFaultDemands n, s.tellTaleDemands n⟩

/-- Some internal source raises its demand. -/
def Sources.any (x : Sources) : Bool := x.watchers || x.hours || x.dataFault || x.tellTale

/-! ## Demands (R77 to R81) -/

/-- What a source slot says at a position, when it is GOOD (R77). -/
def State.linkDemand (s : State) (l : LinkSource) : Option Demand :=
  if (s.slotRec l.slot).condition = .good then some (demandAt (s.slotRec l.slot).accepted l.position) else none

/-- The contribution of a stale state (R77). -/
def StaleState.demand (st : StaleState) (held : Demand) : Demand :=
  match st with
  | .off => .off
  | .on => .on
  | .flashSlow => .flashSlow
  | .hold => held

/-- The held link demand after an evaluation (R75, R77). -/
def State.heldNow (s : State) (e : LampEntry) (held : Demand) : Demand := ((e.link.bind s.linkDemand).getD held)

/-- The link contribution (R77), in LIMP the limp state in its place (R78). -/
def State.contributionNow (s : State) (e : LampEntry) (held : Demand) : Option Demand :=
  e.link.map fun l =>
    if s.mode.mode = .limp then e.limp else (s.linkDemand l).getD (e.stale.demand held)

/-- The operating demand of a used lamp (R78). -/
def operatingNow (contribution : Option Demand) (x : Sources) : Demand :=
  (contribution.getD .off).max (if x.any then .on else .off)

/-- Raised to at least ON (R79). -/
def Demand.raised (d : Demand) (b : Bool) : Demand := if b then d.max .on else d

/-- The shown demand (R79). In STARTING a check lamp is shown at least ON while the bulb check timer runs, as R79
and R80 have it, and not longer where settling outlasts it, as R159 could be read (log 44). -/
def State.shownNow (s : State) (n : Fin 40) (operating : Demand) : Demand :=
  match s.mode.mode with
  | .initial => .off
  | .unconfigured => if s.legal n then .on else .off
  | .starting => operating.raised ((s.lampEntry n).any LampEntry.check && decide (0 < s.lamps.bulbTimer))
  | .running | .limp => operating.raised ((s.lampEntry n).any LampEntry.check && decide (0 < s.lamps.testTimer))
  | .parking | .dormant =>
    match s.lampEntry n with
    | none => .off
    | some e => if e.ignitionOff then (e.link.bind s.linkDemand).getD .off else .off

/-- A demand's output at a flash phase (R82, R83). -/
def Demand.lit (d : Demand) (phase : Nat) : Bool :=
  match d with
  | .off => false
  | .on => true
  | .flashSlow => decide (phase < 500)
  | .flashFast => decide (phase / 250 % 2 = 0)

/-- The output of a lamp (R83). -/
def litNow (shown : Demand) (fault : LampFault) (phase : Nat) : Bool := !fault.dark && shown.lit phase

/-! ## Fault messages (R87 to R89) -/

/-- The severity of LAMP FAULT. -/
def State.faultSeverity (s : State) : Severity := if s.lamps.escalated then .red else .amber

/-- LAMP FAULT of a lamp is posted, with a SINGLE while escalated. -/
def State.postLampFault (s : State) (n : Fin 40) : State :=
  let s' := s.post (msgLampFault n) s.faultSeverity
  if s.lamps.escalated then s'.request Chime.requestSingle else s'

/-- LAMP FAULT follows whether a legal lamp is in a reported fault state (R89). -/
def State.lampFaultMessage (s : State) (n : Fin 40) (old new : Bool) : State :=
  if !old && new then s.postLampFault n else if old && !new then s.clear (msgLampFault n) else s

/-- A lamp's record changes, and with its fault state the message and, at an entry into a fault, the cause. -/
def State.setLampFault (s : State) (n : Fin 40) (r : LampRec) : State :=
  let old := (s.lamp n).fault
  let s' := (s.setLamp n r).lampFaultMessage n (s.legal n && old.reported) (s.legal n && r.fault.reported)
  if old ≠ r.fault ∧ r.fault ≠ .none then s'.raise .lampFault else s'

/-- LAMP FAULT of a faulty legal lamp is posted again (R89). -/
def State.repostLampFault (sev : Severity) (s : State) (n : Fin 40) : State :=
  if s.legalFault n then s.post (msgLampFault n) sev else s

/-- The escalation is judged at the fault tell-tale's evaluation (R89). -/
def State.judgeEscalation (s : State) (n : Fin 40) : State :=
  if s.isTellTale n then
    let now := (s.lamp n).fault.reported
    let s' := s.withLamps { s.lamps with escalated := now }
    if !s.lamps.escalated && now then
      let s'' := allLamps.foldl (State.repostLampFault .red) s'
      if allLamps.any s.legalFault then s''.request Chime.requestSingle else s''
    else if s.lamps.escalated && !now then allLamps.foldl (State.repostLampFault .amber) s'
    else s'
  else s

/-! ## Rises (R90) -/

/-- The request that a rise makes. -/
def RiseChime.apply (c : RiseChime) : Chime → Chime :=
  match c with
  | .none => id
  | .single => Chime.requestSingle
  | .continuous => Chime.requestContinuous

/-- The message on rise: active while the operating demand is not OFF, in the modes that judge rises. -/
def State.riseMessage (s : State) (n : Fin 40) (e : LampEntry) : State :=
  match e.message with
  | none => s
  | some (code, sev) =>
    let r := s.lamp n
    let id : Identity := ⟨code, .lamp, n.val⟩
    if r.operating = .off then
      (if r.riseActive then (s.setLamp n { r with riseActive := false }).clear id else s)
    else if r.riseActive || !s.mode.mode.chimes then s
    else (s.setLamp n { r with riseActive := true }).post id sev

/-- A rise requests its chime, and the message on rise follows the operating demand. -/
def State.judgeRise (s : State) (n : Fin 40) (e : LampEntry) (previous : Demand) : State :=
  let rises := s.mode.mode.chimes && previous == .off && (s.lamp n).operating != .off
  (if rises then s.request e.chime.apply else s).riseMessage n e

/-- A message on rise is cleared, whatever the operating demand (R74, R90). -/
def State.dropRise (s : State) (n : Fin 40) : State :=
  if (s.lamp n).riseActive then
    let s' := s.setLamp n { s.lamp n with riseActive := false }
    match (s.lampEntry n).bind LampEntry.message with
    | none => s'
    | some (code, _) => s'.clear ⟨code, .lamp, n.val⟩
  else s

/-! ## Open-load samples (R84, R86) -/

/-- The clean count after a sample; at 5 the short count is forgotten (R86). -/
def LampRec.cleaner (r : LampRec) : LampRec :=
  let clean := min (r.cleanCount + 1) 5
  { r with cleanCount := clean, shortCount := if clean = 5 then 0 else r.shortCount }

/-- The record after a sample that found the load open or in order (R84, R86). -/
def LampRec.sampled (r : LampRec) (isOpen : Bool) : LampRec :=
  match r.fault with
  | .none =>
    if isOpen then
      (if r.openCount + 1 < 5 then { r.cleaner with openCount := r.openCount + 1 }
        else { r.cleaner with fault := .open, openCount := 0, goodCount := 0 })
    else { r.cleaner with openCount := 0 }
  | .open =>
    if isOpen then { r.cleaner with goodCount := 0 }
    else if r.goodCount + 1 < 5 then { r.cleaner with goodCount := r.goodCount + 1 }
    else { r.cleaner with fault := .none, goodCount := 0 }
  | .shortWait | .latchedOff => r

/-- The sample of a lamp that is driven on. -/
def State.sampleLamp (s : State) (n : Fin 40) (isOpen : Bool) : State :=
  if (s.lamp n).lit then s.setLampFault n ((s.lamp n).sampled isOpen) else s

/-! ## The evaluation of one lamp (R76) -/

/-- The link contribution and the operating demand are formed (step 1 of R76). -/
def State.formDemands (s : State) (n : Fin 40) : State :=
  let r := s.lamp n
  let x := s.sourcesOf n
  match s.lampEntry n with
  | none => s.setLamp n { r with operating := .off, contribution := none, sources := x }
  | some e =>
    let held := s.heldNow e r.held
    let c := s.contributionNow e held
    s.setLamp n { r with held := held, contribution := c, sources := x, operating := operatingNow c x }

/-- The wait timer of a lamp in SHORT_WAIT advances (R85). -/
def LampRec.waited (r : LampRec) : LampRec :=
  if r.fault = .shortWait then
    (if r.wait + 20 < 1000 then { r with wait := r.wait + 20 } else { r with fault := .none, wait := 0 })
  else r

/-- The shown demand, the wait timer and the output (steps 3 to 5 of R76). -/
def State.driveLamp (s : State) (n : Fin 40) : State :=
  let shown := s.shownNow n (s.lamp n).operating
  let r := { (s.lamp n).waited with shown := shown }
  s.setLamp n { r with lit := litNow shown r.fault s.lamps.phase }

/-- The rise is judged, then the operating demand becomes the previous one (R90). -/
def State.riseLamp (s : State) (n : Fin 40) : State :=
  let s' := match s.lampEntry n with
    | none => s
    | some e => s.judgeRise n e (s.lamp n).previous
  s'.setLamp n { s'.lamp n with previous := (s'.lamp n).operating }

/-- The evaluation of one lamp; `opens` names the lamps whose sample finds an open load. -/
def State.evaluateLamp (opens : List (Fin 40)) (s : State) (n : Fin 40) : State :=
  ((((s.judgeEscalation n).formDemands n).riseLamp n).driveLamp n).sampleLamp n (opens.contains n)

/-- The timers at the end of a round (R80, R81). -/
def Lamps.endRound (l : Lamps) (m : DeviceMode) : Lamps :=
  match m with
  | .starting =>
    { l with bulbTimer := l.bulbTimer - 20, bulbOver := l.bulbOver || decide (0 < l.bulbTimer ∧ l.bulbTimer ≤ 20) }
  | .running | .limp => { l with testTimer := l.testTimer - 20 }
  | .initial | .unconfigured | .parking | .dormant => l

/-- A round of evaluations (R76). -/
def State.lampRound (s : State) (order opens : List (Fin 40)) : State :=
  let s' := (fullOrder order allLamps).foldl (State.evaluateLamp opens) s
  s'.withLamps (s'.lamps.endRound s'.mode.mode)

/-! ## Overcurrents (R85, R86), flash edges (R82) -/

/-- The record after an overcurrent. -/
def LampRec.overcurrent (r : LampRec) : LampRec :=
  if r.shortCount + 1 < 3 then
    { r with lit := false, shortCount := r.shortCount + 1, cleanCount := 0,
             fault := .shortWait, wait := 0, openCount := 0, goodCount := 0 }
  else { r with lit := false, shortCount := 3, cleanCount := 0, fault := .latchedOff }

/-- OVERCURRENT (R85): on a driven output only. -/
def execOvercurrent (n : Fin 40) (s : State) : Host.Outcome State Fault Refusal :=
  .next (if s.mode.mode ≠ .initial ∧ (s.lamp n).lit = true then s.setLampFault n (s.lamp n).overcurrent else s)

/-- SHORT_WAIT_END (R85, log 5): the wait timer stands one evaluation before its end. -/
def execShortWaitEnd (n : Fin 40) (s : State) : Host.Outcome State Fault Refusal :=
  .next (let r := s.lamp n
    if s.mode.mode ≠ .initial ∧ r.fault = .shortWait ∧ 980 ≤ r.wait then
      s.setLampFault n { r with fault := .none, wait := 0, lit := litNow r.shown .none s.lamps.phase }
    else s)

/-- An output at a flash edge: only flashing outputs switch. -/
def LampRec.edge (phase : Nat) (r : LampRec) : LampRec :=
  match r.shown with
  | .flashSlow | .flashFast => { r with lit := litNow r.shown r.fault phase }
  | .off | .on => r

/-- FLASH_EDGE (R82): the phase, which waits just before its next edge, reaches it (log 3). -/
def execFlashEdge (s : State) : Host.Outcome State Fault Refusal :=
  .next (if s.mode.mode = .initial ∨ s.lamps.phase % 250 ≠ 249 then s
    else
      let phase := (s.lamps.phase / 250 + 1) * 250 % 1000
      s.withLamps { s.lamps with phase := phase, recs := s.lamps.recs.map (LampRec.edge phase) })

/-- LAMP_TEST_END (R81, log 5): the test timer stands one round before its end. -/
def execLampTestEnd (s : State) : Host.Outcome State Fault Refusal :=
  .next (if (s.mode.mode = .running ∨ s.mode.mode = .limp) ∧ 0 < s.lamps.testTimer ∧ s.lamps.testTimer ≤ 20 then
      s.withLamps { s.lamps with testTimer := 0 }
    else s)

/-- TEST LAMPS (R81). -/
def testLampsBody (s : State) (args : List Word) : State × OrderEnd :=
  let d := arg args 0
  if s.mode.mode ≠ .running ∧ s.mode.mode ≠ .limp then refuse s .refusedMode
  else if d < 1 ∨ 100 < d then refuse s .badArgument
  else done (s.withLamps { s.lamps with testTimer := d * 100 })

/-- TEST_LAMPS (R81). -/
def execTestLamps (s : State) : Host.Outcome State Fault Refusal := .next (s.runOrder .testLamps testLampsBody)

end Sys2Proof.Machine
end

