-- ==== Sys2Proof/Machine/Store.lean ====
section
/-! DEFINITION. The odometer store (R60 to R66): its requests, the start and end of a commit and of a
calibration write; and the addition of distance units (R58, R62). -/

namespace Sys2Proof.Machine

/-! ## Requests and starts -/

/-- Store busy (R61). -/
def Store.busy (t : Store) : Bool := t.op.isSome || t.pending

/-- The first place of the sector that holds a place. -/
def sectorOf (place : Nat) : Nat := place / 32 * 32

/-- The record write of a commit begins (R62, R63): it carries the argument of SET ODOMETER or the working
value, and the commit base becomes that value. -/
def Store.beginWrite (t : Store) (fixed : Option Nat) (units odometer : Nat) : Store :=
  let v := fixed.getD odometer
  { t with op := some (.commit false fixed v units), base := v }

/-- A commit begins at the next place (R63), with an erase where the place begins a sector. -/
def Store.beginCommit (t : Store) (fixed : Option Nat) (units odometer : Nat) : Store :=
  if t.nextPlace % 32 = 0 then { t with op := some (.commit true fixed 0 units) }
  else t.beginWrite fixed units odometer

/-- A calibration write begins with the erase of sector 0 (R66). -/
def Store.beginCalibration (t : Store) (purpose : CalPurpose) (record : CalRecord) : Store :=
  { t with op := some (.calibration .erase purpose record), sector0 := none }

/-- An ordinary commit is requested (R61): discarded while FAILED, else started or left pending. -/
def Store.requestCommit (t : Store) (odometer : Nat) : Store :=
  if t.failed then t
  else if t.op.isNone then t.beginCommit none 0 odometer
  else { t with pending := true }

/-- The start of an operation that an order requested. -/
def Store.startRequest (t : Store) : StoreRequest → Store
  | .calibration purpose record => t.beginCalibration purpose record
  | .commit v => t.beginCommit (some v) 0 v

/-- An order's request (R61, R69): started at once, or waiting. -/
def Store.request (t : Store) (r : StoreRequest) : Store :=
  if t.op.isNone then t.startRequest r else { t with waiting := some r }

/-- An operation has ended (R61): a waiting request starts next, else a pending commit. -/
def Store.goOn (t : Store) (odometer : Nat) : Store :=
  let free := { t with op := none }
  match t.waiting with
  | some r => { free with waiting := none }.startRequest r
  | none => if t.pending then { free with pending := false }.beginCommit none 0 odometer else free

/-- Units added count for a SET ODOMETER commit in flight (R69). -/
def Store.countUnits (t : Store) (n : Nat) : Store :=
  match t.op with
  | some (.commit erasing (some v) value units) => { t with op := some (.commit erasing (some v) value (units + n)) }
  | some (.commit _ none _ _) | some (.calibration _ _ _) | none => t

/-! ## Distance units (R58, R62) -/

/-- Trips wrap on reaching 10 000 000 units. -/
def tripWrap : Nat := 10000000

/-- Units added to the working value and both trips. -/
def Speed.addUnits (v : Speed) (n : Nat) : Speed :=
  { v with
    odometer := min (v.odometer + n) max32
    tripA := (v.tripA + n) % tripWrap
    tripB := (v.tripB + n) % tripWrap }

/-- Units are added; an addition that brings the working value to the commit base plus 100 requests a commit. -/
def State.addUnits (s : State) (n : Nat) : State :=
  let v := s.speed.addUnits n
  let t := s.store.countUnits n
  (s.withSpeed v).withStore
    (if s.speed.odometer < v.odometer ∧ t.base + 100 ≤ v.odometer then t.requestCommit v.odometer else t)

/-- A trip set to 0 (R70). -/
def Speed.resetTrip (v : Speed) : Trip → Speed
  | .a => { v with tripA := 0 }
  | .b => { v with tripB := 0 }

/-! ## The end of a commit (R63, R69) -/

/-- The store becomes FAILED: no further commit, ODO STORE FAULT active; a waiting SET ODOMETER commit is not
made and its order ends. -/
def State.failStore (s : State) : State :=
  let s' := (s.withStore { s.store with failed := true, pending := false }).post msgStoreFault .amber
  match s'.store.waiting with
  | some (.commit _) =>
    (s'.withStore { s'.store with waiting := none }).finish .storeFault detailRecord
  | some (.calibration _ _) | none => s'

/-- The operation in flight ends and the next one starts. -/
def State.endOperation (s : State) : State := s.withStore (s.store.goOn s.speed.odometer)

/-- The calibration record with the working copy's K and lock flag and another count (R69). -/
def Speed.recordWithCount (v : Speed) (k count : Nat) : CalRecord := ⟨k, v.lock, count⟩

/-- The SET ODOMETER count plus one, saturating (R69). -/
def Speed.nextCount (v : Speed) : Nat := min (v.count + 1) 65535

/-- A SET ODOMETER commit has succeeded (R69): the working value takes the argument plus the units added, and
the order goes on to its calibration write, or ends where no calibration is valid. -/
def State.odometerSet (s : State) (v units : Nat) : State :=
  let s' := s.withSpeed { s.speed with odometer := min (v + units) max32 }
  match s.speed.k with
  | some k => s'.withStore (s'.store.beginCalibration .setOdometer (s.speed.recordWithCount k s.speed.nextCount))
  | none => (s'.withSpeed { s'.speed with count := s.speed.nextCount }).endOperation.finish .done 0

/-- A commit ends, with success or without. -/
def State.endCommit (s : State) (fixed : Option Nat) (units : Nat) (ok : Bool) : State :=
  match fixed with
  | none => s.endOperation
  | some v => if ok then s.odometerSet v units else s.endOperation.finish .storeFault detailRecord

/-- The place written becomes valid or is passed over; next place and next sequence advance. -/
def Store.verified (t : Store) (value : Nat) (ok : Bool) : Store :=
  { t with
    places := t.places.setIfInBounds t.nextPlace (if ok then .valid t.nextSeq value else .spoiled)
    nextPlace := (t.nextPlace + 1) % 128
    nextSeq := if t.nextSeq < max32 then t.nextSeq + 1 else max32
    failures := if ok then 0 else t.failures + 1 }

/-- A commit's verify has failed or succeeded (R63): ODOMETER LOST ends, or the cause is set. -/
def State.commitSignals (s : State) (ok : Bool) : State :=
  if ok then
    (if s.speed.odometerLost then (s.withSpeed { s.speed with odometerLost := false }).clear msgOdometerLost else s)
  else s.raise .odoStoreFault

/-- The verify of a commit completes (R63). A commit with the last sequence number makes the store FAILED
whatever the outcome, a third failure too; a lesser failure is retried at once. -/
def State.commitVerified (s : State) (fixed : Option Nat) (value units : Nat) (ok : Bool) : State :=
  let last := s.store.nextSeq = max32
  let s' := (s.withStore (s.store.verified value ok)).commitSignals ok
  if last ∨ (ok = false ∧ 3 ≤ s'.store.failures) then s'.failStore.endCommit fixed units ok
  else if ok then s'.endCommit fixed units ok
  else s'.withStore (s'.store.beginCommit fixed units s'.speed.odometer)

/-- The places of a sector after its erase. -/
def Store.blankSector (t : Store) (first : Nat) : Store :=
  { t with places := Vector.ofFn fun p : Fin 128 =>
      if sectorOf p.val = first then .blank else t.places[p] }

/-- SECTOR_ERASE_DONE (R63, R66): the write that follows the erase begins. -/
def execSectorEraseDone (s : State) : Host.Outcome State Fault Refusal :=
  .next (match s.store.op with
    | some (.commit true fixed _ units) =>
      s.withStore ((s.store.blankSector (sectorOf s.store.nextPlace)).beginWrite fixed units s.speed.odometer)
    | some (.calibration .erase purpose record) =>
      s.withStore { s.store with op := some (.calibration .write purpose record) }
    | some (.calibration .restoreErase purpose record) =>
      s.withStore { s.store with op := some (.calibration .restoreWrite purpose record) }
    | some (.commit false _ _ _) | some (.calibration .write _ _) | some (.calibration .restoreWrite _ _) | none => s)

end Sys2Proof.Machine
end

