-- ==== Sys2Proof/Machine/Mode.lean ====
section
/-! DEFINITION. Mode control (R154 to R165): changes of mode with their commands, and the events and orders that
make them. -/

namespace Sys2Proof.Machine

/-- The device mode changes (R165). -/
def State.setMode (s : State) (m : DeviceMode) : State :=
  (s.withMode { s.mode with mode := m }).raise .modeChange

/-! ## STARTING and RUNNING (R159, R160) -/

/-- LATCHED_OFF is cleared and the rise detection begins afresh (R86, R90). -/
def LampRec.restarted (r : LampRec) : LampRec :=
  if r.fault = .latchedOff then { r with fault := .none, shortCount := 0, cleanCount := 0, previous := .off }
  else { r with previous := .off }

/-- One lamp at the entry into STARTING. -/
def State.restartLamp (s : State) (n : Fin 40) : State := s.setLampFault n (s.lamp n).restarted

/-- The entry into STARTING with its commands (R159). -/
def State.enterStarting (s : State) (sweep : Bool) : State :=
  let s1 := (s.setMode .starting).forChannels (State.startChannel sweep)
  let s2 := s1.forChannels State.arm
  let s3 := s2.withLamps { s2.lamps with bulbTimer := 3000, bulbOver := false }
  allLamps.foldl State.restartLamp s3

/-- The entry into RUNNING from STARTING restarts the heartbeat (R160, R11). -/
def State.enterRunning (s : State) : State :=
  let s' := s.setMode .running
  s'.withIntake { s'.intake with heartbeat := ⟨false, 0, 0⟩ }

/-- STARTING is left when settling is over and the bulb check is over (R160). -/
def State.judgeRunning (s : State) : State :=
  if s.mode.mode = .starting ∧ s.settling = false ∧ s.lamps.bulbOver = true then s.enterRunning else s

/-! ## LIMP (R161) -/

/-- The heartbeat is lost in RUNNING. -/
def State.enterLimp (s : State) : State :=
  if s.mode.mode = .running then ((s.setMode .limp).raise .linkLimp).post msgLinkFault .red else s

/-- The heartbeat is restored in LIMP. -/
def State.leaveLimp (s : State) : State :=
  if s.mode.mode = .limp then (s.setMode .running).clear msgLinkFault else s

/-! ## PARKING and DORMANT (R162, R163) -/

/-- PARKING is left when the needles are parked and the store is not busy (R163). -/
def State.judgeDormant (s : State) : State :=
  if s.mode.mode = .parking ∧ s.parked = true ∧ s.store.busy = false then s.setMode .dormant else s

/-- The entry into PARKING with its commands (R162). -/
def State.enterParking (s : State) : State :=
  let s0 := if s.mode.mode = .limp then s.clear msgLinkFault else s
  let s1 := ((s0.setMode .parking).forChannels State.parkChannel).forChannels State.disarm
  let s2 := s1.withLamps { s1.lamps with bulbTimer := 0, testTimer := 0 }
  let s3 := (allLamps.foldl State.dropRise s2).stopChime
  (s3.withStore (s3.store.requestCommit s3.speed.odometer)).judgeDormant

/-! ## Ignition (R157, R162, R164) -/

/-- The ignition state changes and the settle timer becomes 0. -/
def State.setIgnition (s : State) (on : Bool) : State :=
  s.withMode { s.mode with ignition := on, settle := 0 }

/-- IGN_INPUT (R157): the pin changes; a return to the ignition state's level stops the settle timer. -/
def execIgnInput (on : Bool) (s : State) : Host.Outcome State Fault Refusal :=
  .next (s.withMode { s.mode with
    ignInput := on
    settle := if on = s.mode.ignition then 0 else s.mode.settle })

/-- The ignition-on event (R164). -/
def State.ignitionOn (s : State) : State :=
  match s.mode.mode with
  | .parking => (s.setIgnition true).enterStarting false
  | .dormant => (s.setIgnition true).enterStarting true
  | .initial => s
  | .unconfigured | .starting | .running | .limp => s.setIgnition true

/-- IGNITION_ON_EVENT (R157, R164): the input has been on for 100 ms while the ignition state is OFF (log 3). -/
def execIgnitionOnEvent (s : State) : Host.Outcome State Fault Refusal :=
  .next (if s.mode.ignInput && !s.mode.ignition && s.mode.settle == 100 then s.ignitionOn else s)

/-- The ignition-off event (R162). -/
def State.ignitionOff (s : State) : State :=
  match s.mode.mode with
  | .starting | .running | .limp => (s.setIgnition false).enterParking
  | .initial => s
  | .unconfigured | .parking | .dormant => s.setIgnition false

/-- IGNITION_OFF_EVENT (R157, R162): the input has been off for 100 ms while the ignition state is ON (log 3). -/
def execIgnitionOffEvent (s : State) : Host.Outcome State Fault Refusal :=
  .next (if !s.mode.ignInput && s.mode.ignition && s.mode.settle == 100 then s.ignitionOff else s)

/-! ## START (R158) -/

/-- START. -/
def startBody (s : State) (_args : List Word) : State × OrderEnd :=
  if s.mode.mode ≠ .unconfigured then refuse s .refusedMode
  else if s.tables.gauge.isSome ∧ s.tables.lamp.isSome ∧ s.tables.slots.isSome then
    done (if s.mode.ignition then s.enterStarting true else s.setMode .dormant)
  else (s, .ended .badTable TableDetail.missing.code)

/-- START (R158). -/
def execStart (s : State) : Host.Outcome State Fault Refusal := .next (s.runOrder .start startBody)

/-! ## Events that move the mode out of STARTING -/

/-- LAMP_EVALUATION (R76, R80). -/
def execLampEvaluation (order opens : List (Fin 40)) (s : State) : Host.Outcome State Fault Refusal :=
  .next (if s.mode.mode = .initial then s else (s.lampRound order opens).judgeRunning)

/-- BULB_CHECK_OVER (R80, log 5): the bulb check timer stands one round before its end. -/
def execBulbCheckOver (s : State) : Host.Outcome State Fault Refusal :=
  .next (if s.mode.mode = .starting ∧ 0 < s.lamps.bulbTimer ∧ s.lamps.bulbTimer ≤ 20 then
      (s.withLamps { s.lamps with bulbTimer := 0, bulbOver := true }).judgeRunning
    else s)

/-! ## The gauge unit's events (R17, R41, R42) -/

/-- GAUGE_UPDATE (R17): every channel in the order named, then mode control's facts. -/
def execGaugeUpdate (order : List (Fin 8)) (s : State) : Host.Outcome State Fault Refusal :=
  .next (if s.mode.mode = .initial then s
    else (((fullOrder order allChannels).foldl State.updateChannel s).judgeRunning).judgeDormant)

/-- HOMING_END (R42, log 5): the homing count runs out at the update that comes. -/
def execHomingEnd (c : Fin 8) (s : State) : Host.Outcome State Fault Refusal :=
  .next (match s.enabledEntry c with
    | none => s
    | some e =>
      if s.mode.mode ≠ .initial ∧ s.gauges[c].state = .homing ∧ s.gauges[c].homing ≤ 24 then
        ((s.endHoming c e).judgeRunning).judgeDormant
      else s)

/-- HOLD_TIME_EXPIRED (R41, log 5): the hold timer reaches the hold time at the update that comes. -/
def execHoldTimeExpired (c : Fin 8) (s : State) : Host.Outcome State Fault Refusal :=
  .next (match s.enabledEntry c with
    | none => s
    | some e =>
      if s.mode.mode ≠ .initial ∧ s.gauges[c].state = .holding ∧ e.holdTime ≤ s.gauges[c].hold + 10 then
        s.enterWith c { s.gauges[c] with hold := e.holdTime } .failed
      else s)

end Sys2Proof.Machine
end

