-- ==== Sys2Proof/Machine/LinkPort.lean ====
section
/-! DEFINITION. The link port (R166 to R174, R181, R182): the five registers, the window, the identification
space, and the STRIP requests. -/

namespace Sys2Proof.Machine

/-! ## The identification space (R170) -/

/-- The code of a kind of table. -/
def TableKind.code : TableKind → Nat
  | .gauge => 1
  | .lamp => 2
  | .slots => 3
  | .panel => 4
  | .glyph => 5
  | .rules => 6

/-- The directory entry of a kind. -/
def Directory.entry (d : Directory) : TableKind → DirEntry
  | .gauge => d.gauge
  | .lamp => d.lamp
  | .slots => d.slots
  | .panel => d.panel
  | .glyph => d.glyph
  | .rules => d.rules

/-- The three words of a directory entry. -/
def DirEntry.words (e : DirEntry) : List Word := [wordOf (flagOf e.loaded), wordOf e.length, e.sum]

/-- Words 0 to 25 of the identification space (11_formats.md). -/
def Tables.identification (t : Tables) : List Word :=
  [0x2440, 1, 4096, 0] ++ t.dir.gauge.words ++ t.dir.lamp.words ++ t.dir.slots.words ++ t.dir.panel.words ++
    t.dir.glyph.words ++ t.dir.rules.words ++
    [wordOf t.report.kind, wordOf t.report.result, wordOf t.report.detail, wordOf t.report.field]

/-- A word of the identification space; the words not named read zero. -/
def State.idWord (s : State) (a : Nat) : Word := s.tables.identification.getD a 0

/-! ## Register contents (R167) -/

/-- What a read of WCTL returns outside INITIAL. -/
def Link.wctl (l : Link) : Word := wordOf (l.space + 16 * l.step)

/-- What a read of WADR returns outside INITIAL. -/
def Link.wadr (l : Link) : Word := wordOf l.addr

/-- What a read of STRIP returns outside INITIAL. -/
def Engine.stripRegister (e : Engine) : Word := wordOf (e.strip1.code + 16 * e.strip2.code)

/-- The link registers that a read names, WDAT apart. -/
inductive Register where
  | wctl | wadr | cause | strip | other
  deriving DecidableEq, Repr

/-- A register read (R166, R167): zero throughout INITIAL and from a select that names no register. Such a read
changes nothing. -/
def State.readRegister (s : State) (r : Register) : Word :=
  if s.mode.mode = .initial then 0
  else match r with
    | .wctl => s.link.wctl
    | .wadr => s.link.wadr
    | .cause => s.link.causes
    | .strip => s.engine.stripRegister
    | .other => 0

/-! ## The window (R167 to R169) -/

/-- The words of a window space (R168). -/
def windowSize (space : Nat) : Nat := if space = 0 then 4096 else 32

/-- The word at the window address. -/
def State.windowWord (s : State) : Word := if s.link.space = 0 then s.readXm s.link.addr else s.idWord s.link.addr

/-- The window address after an access. -/
def Link.advance (l : Link) : Link := { l with addr := (l.addr + l.step) % windowSize l.space }

/-- A WCTL write (R167). -/
def State.writeWctl (s : State) (w : Word) : State :=
  let space := bits w 0 2
  let step := bits w 4 2
  if 1 < space ∨ 2 < step then s.raise .badWrite
  else s.withLink { s.link with space := space, step := step, addr := s.link.addr % windowSize space }

/-- A WADR write (R168). -/
def State.writeWadr (s : State) (w : Word) : State :=
  s.withLink { s.link with addr := w.toNat % windowSize s.link.space }

/-- A WDAT read (R168): the word is returned on the link and the address advances. -/
def State.readWdat (s : State) : State := s.withLink { s.link.advance with data := s.windowWord }

/-- The link port refuses a write of this word of exchange memory (R169). -/
def State.protectedWord (s : State) (a : Nat) : Bool :=
  decide (a < 0x040) || (decide (0x100 ≤ a ∧ a < 0x300) && s.engine.strip1 != .free) ||
    (decide (0x300 ≤ a ∧ a < 0x500) && s.engine.strip2 != .free)

/-- A WDAT write is refused (R169). -/
def State.refusesWdat (s : State) : Bool := s.link.space != 0 || s.protectedWord s.link.addr

/-- A WDAT write (R168, R169): stored or refused, and the address advances. -/
def State.writeWdat (s : State) (w : Word) : State :=
  let s' := if s.refusesWdat then s.raise .badWrite else s.writeXm s.link.addr w
  s'.withLink s'.link.advance

/-- A CAUSE write (R182). -/
def State.writeCause (s : State) (w : Word) : State := s.withLink { s.link with causes := s.link.causes &&& ~~~w }

/-! ## STRIP requests (R173, R174) -/

/-- HAND OVER of a strip (R173). A strip that becomes RUNNING is checked at its first position (R175). -/
def State.handOver (s : State) (n : Strip) : State :=
  if s.engine.strip n = .free then
    (if s.engine.strip n.other = .running then s.withEngine (s.engine.withStrip n .queued)
    else (s.withEngine (s.engine.start n)).stopStrips)
  else s.raise .handoverRefused

/-- WITHDRAW of a strip (R174). -/
def State.withdraw (s : State) (n : Strip) : State :=
  if s.engine.strip n = .queued then
    (((s.writeXm n.base (headerWord .withdrawn 0)).withEngine (s.engine.withStrip n .free)).raise n.returnedCause)
  else s.raise .handoverRefused

/-- A STRIP write (R173, R174): its codes are those of 11_formats.md. -/
def State.writeStrip (s : State) (w : Word) : State :=
  match Strip.ofCode (bits w 4 2), bits w 0 2 with
  | some n, 1 => s.handOver n
  | some n, 2 => s.withdraw n
  | _, _ => s.raise .handoverRefused

/-! ## Link accesses (R166) -/

/-- A link access outside INITIAL. -/
def State.takeAccess (s : State) : LinkAccess → State
  | .wctlWrite w => s.writeWctl w
  | .wadrWrite w => s.writeWadr w
  | .wdatRead => s.readWdat
  | .wdatWrite w => s.writeWdat w
  | .causeWrite w => s.writeCause w
  | .stripWrite w => s.writeStrip w

/-- A link access (R166): in INITIAL a write is ignored, and a read returns zero and moves nothing. -/
def State.access (s : State) (a : LinkAccess) : State :=
  if s.mode.mode = .initial then
    (if a = .wdatRead then s.withLink { s.link with data := 0 } else s)
  else s.takeAccess a

/-- The accesses that land at a place inside a command, in order (log 13). -/
def State.accessesAt (mid : List MidAccess) (place : Nat) (s : State) : State :=
  (mid.filter fun m => m.place == place).foldl (fun s m => s.access m.access) s

/-- WCTL_WRITE (R167). -/
def execWctlWrite (w : Word) (s : State) : Host.Outcome State Fault Refusal := .next (s.access (.wctlWrite w))

/-- WADR_WRITE (R168). -/
def execWadrWrite (w : Word) (s : State) : Host.Outcome State Fault Refusal := .next (s.access (.wadrWrite w))

/-- WDAT_READ (R168). -/
def execWdatRead (s : State) : Host.Outcome State Fault Refusal := .next (s.access .wdatRead)

/-- WDAT_WRITE (R169). -/
def execWdatWrite (w : Word) (s : State) : Host.Outcome State Fault Refusal := .next (s.access (.wdatWrite w))

/-- CAUSE_WRITE (R182). -/
def execCauseWrite (w : Word) (s : State) : Host.Outcome State Fault Refusal := .next (s.access (.causeWrite w))

/-- REGISTER_WRITE_OTHER (R166): ignored. -/
def execRegisterWriteOther (_select _data : Word) (s : State) : Host.Outcome State Fault Refusal := .next s

/-- HAND_OVER (R173): a STRIP write with the request HAND OVER, or with a code that names no request or strip. -/
def execHandOver (w : Word) (s : State) : Host.Outcome State Fault Refusal := .next (s.access (.stripWrite w))

/-- WITHDRAW (R174): a STRIP write with the request WITHDRAW. -/
def execWithdraw (w : Word) (s : State) : Host.Outcome State Fault Refusal := .next (s.access (.stripWrite w))

/-- SET ATTENTION MASK (R181). -/
def setAttentionMaskBody (s : State) (args : List Word) : State × OrderEnd :=
  let w := args.getD 0 0
  if 0x3FFF < w.toNat then refuse s .badArgument else done (s.withLink { s.link with mask := w })

/-- SET_ATTENTION_MASK (R181). -/
def execSetAttentionMask (s : State) : Host.Outcome State Fault Refusal :=
  .next (s.runOrder .setAttentionMask setAttentionMaskBody)

end Sys2Proof.Machine
end

