-- ==== Sys2Proof/Machine/Intake.lean ====
section
/-! DEFINITION. The value intake (R6 to R14): the scan, the heartbeat evaluation and the data-fault demand. -/

namespace Sys2Proof.Machine

/-! ## The slot as the host writes it (R1) -/

/-- The address of a slot's value word. -/
def valueAddr (i : Fin 64) : Nat := 0x040 + 2 * i.val

/-- The address of a slot's tag word. -/
def tagAddr (i : Fin 64) : Nat := 0x041 + 2 * i.val

/-- A tag's sequence number. -/
def tagSeq (w : Word) : BitVec 8 := w.truncate 8

/-- Qualities (R1). -/
inductive Quality where
  | valid | error | notAvailable
  deriving DecidableEq, Repr

/-- A tag's quality; the fourth code is taken as ERROR. -/
def tagQuality (w : Word) : Quality :=
  match bits w 8 2 with
  | 0 => .valid
  | 2 => .notAvailable
  | _ => .error

/-- The condition that an accepted quality gives (R8). -/
def Quality.condition : Quality → Condition
  | .valid => .good
  | .error => .error
  | .notAvailable => .notAvailable

/-! ## Slot records (R6, R7) -/

/-- A condition that ages out (R6). -/
def Condition.agesOut : Condition → Bool
  | .good | .error | .notAvailable => true
  | .never | .stale => false

/-- The record after an unchanged or discarded scan (R6, R7). -/
def SlotRec.aged (r : SlotRec) : SlotRec :=
  let age := min (r.age + 10) r.timeout
  { r with age := age, condition := if age = r.timeout ∧ r.condition.agesOut = true then .stale else r.condition }

/-- The record after an accepted reading (R7). -/
def SlotRec.accept (r : SlotRec) (tag value : Word) : SlotRec :=
  let q := tagQuality tag
  { r with
    lastSeq := tagSeq tag
    age := 0
    condition := q.condition
    accepted := if q = .valid then value else r.accepted }

/-- A slot takes a record, and the channels that read it follow (R40, R48, R49). -/
def State.changeSlot (s : State) (i : Fin 64) (r : SlotRec) (reading : Bool) : State :=
  (s.setSlot i r).forChannels (State.sourceEvent (.slot i) (s.slotRec i).condition r.condition reading)

/-- An unchanged or discarded scan of a slot; a transition into STALE sets the cause (R9). -/
def State.ageSlot (s : State) (i : Fin 64) : State :=
  let r := s.slotRec i
  let s' := if r.condition ≠ .stale ∧ r.aged.condition = .stale then s.raise .slotStale else s
  s'.changeSlot i r.aged false

/-- An accepted reading of a slot. -/
def State.acceptSlot (s : State) (i : Fin 64) (tag value : Word) : State :=
  s.changeSlot i ((s.slotRec i).accept tag value) (tagQuality tag == .valid)

/-- The reading of one slot: the tag, the value, the tag again (R6, R7), with the link accesses that land
between the readings; and whether the reading was accepted. -/
def State.readSlot (mid : List MidAccess) (s : State) (i : Fin 64) : State × Bool :=
  let t1 := s.readXm (tagAddr i)
  let s1 := s.accessesAt mid (2 * i.val)
  let value := s1.readXm (valueAddr i)
  let s2 := s1.accessesAt mid (2 * i.val + 1)
  let t2 := s2.readXm (tagAddr i)
  let r := s.slotRec i
  if r.type = .unused then (s2, false)
  else if tagSeq t1 ≠ r.lastSeq ∧ tagSeq t2 = tagSeq t1 ∧ tagQuality t2 = tagQuality t1 then
    (s2.acceptSlot i t1 value, true)
  else (s2.ageSlot i, false)

/-! ## The heartbeat (R10) -/

/-- The heartbeat timeout: that of slot 0 (R3). -/
def State.heartbeatTimeout (s : State) : Nat := (s.slotRec 0).timeout

/-- The heartbeat record after an accepted reading of slot 0. -/
def Heartbeat.accepted (h : Heartbeat) : Heartbeat :=
  if h.lost then (if h.restore = 0 then ⟨true, 0, 1⟩ else ⟨false, 0, 0⟩) else ⟨false, 0, 0⟩

/-- The heartbeat record after an unchanged or discarded scan of slot 0. -/
def Heartbeat.aged (h : Heartbeat) (timeout : Nat) : Heartbeat :=
  let age := min (h.age + 10) timeout
  if age = timeout then ⟨true, age, 0⟩ else { h with age := age }

/-- The heartbeat record changes, and mode control acts on a loss or a restoration (R161). -/
def State.setHeartbeat (s : State) (h : Heartbeat) : State :=
  let old := s.intake.heartbeat.lost
  let s' := s.withIntake { s.intake with heartbeat := h }
  if !old && h.lost then s'.enterLimp else if old && !h.lost then s'.leaveLimp else s'

/-- The heartbeat evaluation after slot 0 has been treated. -/
def State.evaluateHeartbeat (s : State) (accepted : Bool) : State :=
  s.setHeartbeat
    (if accepted then s.intake.heartbeat.accepted else s.intake.heartbeat.aged s.heartbeatTimeout)

/-! ## The data-fault demand (R14) -/

/-- A panel field names an item of the SLOT space without the page index. -/
def Page.names (p : Page) (i : Fin 64) : Bool :=
  p.fields.any fun f =>
    f.space.getD p.defaultSpace == .slot && !f.indexed && (f.base + f.displacement) % 65536 == i.val

/-- A slot is referenced. -/
def State.referenced (s : State) (i : Fin 64) : Bool :=
  (allChannels.any fun c => (s.enabledEntry c).any fun e => e.source == .slot i) ||
    (allLamps.any fun n => ((s.lampEntry n).bind LampEntry.link).any fun l => l.slot == i) ||
    (s.tables.panel.any fun t => t.pages.any fun p => p.names i)

/-- A referenced slot is in ERROR or STALE while a data-fault lamp is named. -/
def State.dataFaultNow (s : State) : Bool :=
  (s.tables.slots.bind SlotsTable.dataFaultLamp).isSome &&
    allSlots.any fun i =>
      ((s.slotRec i).condition == .error || (s.slotRec i).condition == .stale) && s.referenced i

/-- The demand is evaluated. -/
def State.evaluateDataFault (s : State) : State := s.withIntake { s.intake with dataFault := s.dataFaultNow }

/-! ## The scan -/

/-- One slot of the scan; slot 0 feeds the heartbeat. -/
def State.scanSlot (mid : List MidAccess) (s : State) (i : Fin 64) : State :=
  let r := s.readSlot mid i
  if i = 0 then r.1.evaluateHeartbeat r.2 else r.1

/-- A scan (R6). -/
def State.scan (s : State) (mid : List MidAccess) : State :=
  (allSlots.foldl (State.scanSlot mid) s).evaluateDataFault

/-- INTAKE_SCAN (R6). -/
def execIntakeScan (mid : List MidAccess) (s : State) : Host.Outcome State Fault Refusal :=
  .next (if s.mode.mode = .initial then s else s.scan mid)

/-- The slot's age reaches its timeout at the scan that comes, and the slot ages out. -/
def SlotRec.expires (r : SlotRec) : Bool :=
  r.type != .unused && r.condition.agesOut && decide (r.timeout ≤ r.age + 10)

/-- SLOT_STALE (R9, log 5): the slot ages out. The data-fault demand, which R14 evaluates at the end of a scan, is
evaluated here too (log 53). -/
def execSlotStale (i : Fin 64) (s : State) : Host.Outcome State Fault Refusal :=
  .next (if s.mode.mode ≠ .initial ∧ (s.slotRec i).expires = true then (s.ageSlot i).evaluateDataFault else s)

/-- HEARTBEAT_LOST (R10, log 5). -/
def execHeartbeatLost (s : State) : Host.Outcome State Fault Refusal :=
  .next (if s.mode.mode ≠ .initial ∧ s.intake.heartbeat.lost = false ∧
      s.heartbeatTimeout ≤ s.intake.heartbeat.age + 10 then s.evaluateHeartbeat false
    else s)

end Sys2Proof.Machine
end

