-- ==== Sys2Proof/Machine/Speed.lean ====
section
/-! DEFINITION. The speed and distance unit (R53 to R70): pulse edges, windows, moving, the completions of the
odometer store, and the four orders. -/

namespace Sys2Proof.Machine

/-! ## Edges (R53, R57, R59) -/

/-- An accepted edge is counted for distance while a calibration is valid (R57). -/
def State.countEdge (s : State) (k : Nat) : State :=
  let acc := s.speed.acc + 100
  if acc < k then s.withSpeed { s.speed with acc := acc }
  else (s.withSpeed { s.speed with acc := acc - k }).addUnits 1

/-- An accepted edge is counted (R57, R59). -/
def State.countPulse (s : State) : State :=
  match s.speed.k with
  | some k => s.countEdge k
  | none => s.withSpeed { s.speed with pulses := min (s.speed.pulses + 1) max32 }

/-- The stamp of an edge lies less than 50 microseconds after the last accepted one (R53). -/
def Speed.tooSoon (v : Speed) : Bool := v.lastStamp.any fun t => decide ((v.timer - t).toNat < 50)

/-- The capture of an accepted edge: it ends a period, or starts the timing of the next one (R53). -/
def Speed.capture (v : Speed) : Speed :=
  match v.lastStamp with
  | none => { v with lastStamp := some v.timer, standstill := false }
  | some t =>
    if v.standstill then { v with lastStamp := some v.timer, standstill := false }
    else { v with
      lastStamp := some v.timer, periods := v.periods + 1, periodSum := v.periodSum + (v.timer - t).toNat }

/-- A rising edge at the present count of the capture timer. -/
def State.speedEdge (s : State) : State :=
  if s.mode.mode = .initial ∨ s.speed.tooSoon = true then s
  else (s.withSpeed s.speed.capture).countPulse

/-- SPEED_EDGE (R53). -/
def execSpeedEdge (us : Nat) (s : State) : Host.Outcome State Fault Refusal := .next (s.elapse us).speedEdge

/-! ## Windows (R54 to R56) -/

/-- The numerator of R54. -/
def speedNumerator : Nat := 360000000000

/-- No accepted edge for 2 s or more, or none since the reset (R54). The standstill flag, once set, stands
until the next edge. -/
def Speed.rests (v : Speed) : Bool :=
  v.standstill ||
    (match v.lastStamp with
     | none => true
     | some t => decide (2000000 ≤ (v.timer - t).toNat))

/-- The decaying estimate, if time has passed since the last accepted edge (R54). -/
def Speed.estimate (v : Speed) (k : Nat) : Option Nat :=
  v.lastStamp.bind fun t =>
    let e := (v.timer - t).toNat
    if e = 0 then none else some (speedNumerator / (k * e))

/-- The speed at a window end with a calibration (R54). -/
def Speed.windowSpeed (v : Speed) (k : Nat) : Nat :=
  if 0 < v.periods then min (speedNumerator * v.periods / (k * v.periodSum)) 25000
  else if v.rests then 0
  else match v.estimate k with
    | some x => if x < v.v then x else v.v
    | none => v.v

/-- The speed and the standstill flag after a window (R54, R55); the totals of the next window start. -/
def Speed.endWindow (v : Speed) : Speed :=
  { v with
    v := (v.k.map v.windowSpeed).getD 0
    standstill := if v.periods = 0 then v.rests else v.standstill
    periods := 0
    periodSum := 0 }

/-- MOVE_SPEED in force (R56). -/
def State.moveSpeed (s : State) : Nat := (s.tables.rules.map RulesTable.moveSpeed).getD 500

/-- MOVE_TIME in force, in ms (R56). -/
def State.moveTime (s : State) : Nat := (s.tables.rules.map RulesTable.moveTime).getD 60 * 1000

/-- The moving timer and flag after a window (R56). -/
def Speed.judgeMoving (v : Speed) (moveSpeed moveTime : Nat) : Speed :=
  if moveSpeed ≤ v.v then
    let t := min (v.movingTimer + 100) moveTime
    { v with movingTimer := t, moving := v.moving || decide (t = moveTime) }
  else { v with movingTimer := 0, moving := false }

/-- The watchers of a channel with source SPEED judge the new speed (R48). -/
def State.speedReading (s : State) (c : Fin 8) : State :=
  if s.speed.k.isSome then State.sourceEvent .speed .good .good true s c else s

/-- A window ends. -/
def State.speedWindow (s : State) : State :=
  let v := s.speed.endWindow.judgeMoving s.moveSpeed s.moveTime
  let s' := (s.withSpeed v).forChannels State.speedReading
  if v.moving ≠ s.speed.moving then s'.evaluateHours else s'

/-- SPEED_WINDOW (R54). -/
def execSpeedWindow (us : Nat) (s : State) : Host.Outcome State Fault Refusal :=
  .next (if s.mode.mode = .initial then s.elapse us else (s.elapse us).speedWindow)

/-- MOVING_SET (R56, log 5): the moving timer reaches MOVE_TIME at the window that comes. -/
def execMovingSet (s : State) : Host.Outcome State Fault Refusal :=
  .next (if s.mode.mode ≠ .initial ∧ s.speed.moving = false ∧ s.moveSpeed ≤ s.speed.v ∧
      s.moveTime ≤ s.speed.movingTimer + 100 then
      (s.withSpeed { s.speed with movingTimer := s.moveTime, moving := true }).evaluateHours
    else s)

/-! ## Completions of the store (R63, R66 to R69) -/

/-- COMMIT_VERIFY_DONE (R63). -/
def execCommitVerifyDone (ok : Bool) (s : State) : Host.Outcome State Fault Refusal :=
  .next (match s.store.op with
    | some (.commit false fixed value units) => (s.commitVerified fixed value units ok).judgeDormant
    | some (.commit true _ _ _) | some (.calibration _ _ _) | none => s)

/-- The uncalibrated pulses converted at a new K (R59): acc takes the remainder, the units are added. -/
def State.convert (s : State) (k : Nat) : State :=
  (s.withSpeed { s.speed with pulses := 0, acc := 100 * s.speed.pulses % k }).addUnits (100 * s.speed.pulses / k)

/-- A channel with source SPEED learns that the speed has become GOOD (R40, R55). -/
def State.speedBecomesGood (s : State) (c : Fin 8) : State := State.sourceEvent .speed .notAvailable .good false s c

/-- K becomes valid from unset (R55, R59, R67). -/
def State.firstK (s : State) (k : Nat) : State :=
  (((s.withSpeed { s.speed with k := some k }).convert k).clear msgCalibrationMissing).forChannels
    State.speedBecomesGood

/-- What a successful calibration write does to the working copy, by the order it completes (R67 to R69). -/
def State.calibrated (s : State) (purpose : CalPurpose) (r : CalRecord) : State :=
  match purpose with
  | .setK =>
    (if s.speed.k.isSome then s.withSpeed { s.speed with k := some r.k, acc := 0 } else s.firstK r.k).raise
      .calibrationChange
  | .lock => (s.withSpeed { s.speed with lock := true }).raise .calibrationChange
  | .setOdometer => s.withSpeed { s.speed with count := r.count }

/-- A calibration write has failed (R66): its order ends STORE_FAULT. -/
def State.calibrationFailed (s : State) : State := s.endOperation.finish .storeFault detailCalibration

/-- CALIBRATION_WRITE_DONE (R66). -/
def execCalibrationWriteDone (ok : Bool) (s : State) : Host.Outcome State Fault Refusal :=
  .next (match s.store.op with
    | some (.calibration .write purpose r) =>
      (if ok then
        (((s.withStore { s.store with sector0 := some r }).calibrated purpose r).endOperation.finish .done 0).judgeDormant
      else if s.speed.k.isSome then
        (s.withStore { s.store with op := some (.calibration .restoreErase purpose r), sector0 := none }).raise
          .odoStoreFault
      else (s.raise .odoStoreFault).calibrationFailed.judgeDormant)
    | some (.calibration .erase _ _) | some (.calibration .restoreErase _ _)
    | some (.calibration .restoreWrite _ _) | some (.commit _ _ _ _) | none => s)

/-- The record that the working copy holds (R66). -/
def Speed.copyRecord (v : Speed) : Option CalRecord := v.k.map fun k => v.recordWithCount k v.count

/-- RESTORE_DONE (R66): sector 0 holds the working copy's record, or none. -/
def execRestoreDone (ok : Bool) (s : State) : Host.Outcome State Fault Refusal :=
  .next (match s.store.op with
    | some (.calibration .restoreWrite _ _) =>
      (if ok then (s.withStore { s.store with sector0 := s.speed.copyRecord }).calibrationFailed
      else (s.raise .odoStoreFault).calibrationFailed).judgeDormant
    | some (.calibration .erase _ _) | some (.calibration .write _ _)
    | some (.calibration .restoreErase _ _) | some (.commit _ _ _ _) | none => s)

/-! ## Orders (R67 to R70) -/

/-- An order requests an operation of the store and holds its strip. -/
def State.holdForStore (s : State) (r : StoreRequest) : State × OrderEnd :=
  (s.withStore (s.store.request r), .holds .store)

/-- SET K-FACTOR (R67). -/
def setKFactorBody (s : State) (args : List Word) : State × OrderEnd :=
  let k := arg args 0
  if s.speed.lock then refuse s .locked
  else if k < 2000 ∨ 25000 < k then refuse s .badArgument
  else s.holdForStore (.calibration .setK (s.speed.recordWithCount k s.speed.count))

/-- LOCK CALIBRATION (R68). -/
def lockCalibrationBody (s : State) (_args : List Word) : State × OrderEnd :=
  match s.speed.k with
  | none => refuse s .badArgument
  | some k =>
    if s.speed.lock then done s
    else s.holdForStore (.calibration .lock ⟨k, true, s.speed.count⟩)

/-- SET ODOMETER (R69). -/
def setOdometerBody (s : State) (args : List Word) : State × OrderEnd :=
  if s.speed.lock then refuse s .locked
  else if s.store.failed then (s, .ended .storeFault detailRecord)
  else s.holdForStore (.commit (arg2 args 0))

/-- The trip with a code (11_formats.md). -/
def Trip.ofCode : Nat → Option Trip
  | 0 => some .a
  | 1 => some .b
  | _ => none

/-- RESET TRIP (R70). -/
def resetTripBody (s : State) (args : List Word) : State × OrderEnd :=
  match Trip.ofCode (arg args 0) with
  | none => refuse s .badArgument
  | some t => done (s.withSpeed (s.speed.resetTrip t))

/-- SET_K_FACTOR (R67). -/
def execSetKFactor (s : State) : Host.Outcome State Fault Refusal := .next (s.runOrder .setKFactor setKFactorBody)

/-- LOCK_CALIBRATION (R68). -/
def execLockCalibration (s : State) : Host.Outcome State Fault Refusal :=
  .next (s.runOrder .lockCalibration lockCalibrationBody)

/-- SET_ODOMETER (R69). -/
def execSetOdometer (s : State) : Host.Outcome State Fault Refusal := .next (s.runOrder .setOdometer setOdometerBody)

/-- RESET_TRIP (R70). -/
def execResetTrip (s : State) : Host.Outcome State Fault Refusal := .next (s.runOrder .resetTrip resetTripBody)

end Sys2Proof.Machine
end

