-- ==== Sys2Proof/Machine/Panel.lean ====
section
/-! DEFINITION. The readout panel and its keys (R137 to R153): field spaces, rendering, the refresh, the
debouncers, key events, and the orders SELECT PAGE and TAKE KEYS. -/

namespace Sys2Proof.Machine

/-! ## Items of the field spaces (R145) -/

/-- A number as an available item. -/
def item (n : Nat) : Option Int := some (n : Int)

/-- A number that may be absent. -/
def itemOf (n : Option Nat) : Option Int := n.map Int.ofNat

/-- The SLOT space (R12, R145). -/
def State.slotItem (s : State) (n : Nat) : Option Int :=
  if h : n < 64 then
    let r := s.slotRec ⟨n, h⟩
    if r.condition = .good then some (inDomain (r.type == .signed) r.accepted) else none
  else none

/-- The GAUGE space (R32). -/
def State.gaugeItem (s : State) (n : Nat) : Option Int :=
  if h : n / 2 < 8 then
    let ch := s.gauges[n / 2]
    if n % 2 = 1 then item ch.p else if ch.state = .tracking then some ch.x else none
  else none

/-- The DIST space (R71). -/
def State.distItem (s : State) : Nat → Option Int
  | 0 => itemOf (s.speed.k.map fun _ => s.speed.v)
  | 1 => item s.speed.odometer
  | 2 => item s.speed.tripA
  | 3 => item s.speed.tripB
  | 4 => itemOf s.speed.k
  | 5 => item (flagOf s.speed.lock)
  | 6 => item s.speed.count
  | 7 => item s.speed.pulses
  | _ => none

/-- The summary items of a DRIVER space (R117). -/
def Driver.summaryItem (d : Driver) (clock : Nat) : Nat → Option Int
  | 0 => item (flagOf d.activity.isSome)
  | 1 => itemOf d.card
  | 2 => itemOf (d.activity.map fun o => o.kind.code)
  | 3 => itemOf (d.activity.map OpenActivity.start)
  | 4 => itemOf (d.activity.map fun o => clock - o.start)
  | 5 => item d.cd
  | 6 => item d.dd
  | 7 => item (flagOf d.firstTaken)
  | 8 => itemOf (d.live.map Live.cd)
  | 9 => itemOf (d.live.map Live.dd)
  | 10 => itemOf (d.live.map Live.rcd)
  | 11 => itemOf (d.live.map Live.rdd)
  | 12 => itemOf (d.live.map Live.breakNeeded)
  | 13 => item (flagOf d.alerts.prewarn)
  | 14 => item (flagOf d.alerts.cdExceeded)
  | 15 => item (flagOf d.alerts.ddExceeded)
  | _ => none

/-- One of the three items of a history entry. -/
def HistoryEntry.item (e : HistoryEntry) : Nat → Nat
  | 0 => e.kind.code
  | 1 => e.start
  | _ => e.duration

/-- A DRIVER space of 112 items (R117): the summary, then the history, the newest entry first. -/
def Driver.item (d : Driver) (clock n : Nat) : Option Int :=
  if n < 16 then d.summaryItem clock n
  else if n < 112 then itemOf ((d.history.reverse[(n - 16) / 3]?).map fun e => e.item ((n - 16) % 3))
  else none

/-- The CLOCK space (R117). -/
def Hours.clockItem (h : Hours) : Nat → Option Int
  | 0 => if h.clockSet then item h.clock else none
  | 1 => item (flagOf h.clockSet)
  | 2 => if h.clockSet then item (h.clock / 1440) else none
  | 3 => item (flagOf h.undeclared)
  | _ => none

/-- An item of a space, where it exists and is available (R145). -/
def State.spaceItem (s : State) (sp : Space) (n : Nat) : Option Int :=
  match sp with
  | .slot => s.slotItem n
  | .gauge => s.gaugeItem n
  | .dist => s.distItem n
  | .driver1 => s.hours.driver1.item s.hours.clock n
  | .driver2 => s.hours.driver2.item s.hours.clock n
  | .clock => s.hours.clockItem n

/-! ## Rendering (R144 to R148) -/

/-- Decimal digits as character codes, gathered from the last one. -/
def decimalFrom : Nat → Nat → List Nat → List Nat
  | 0, _, acc => acc
  | fuel + 1, n, acc => if n < 10 then (48 + n) :: acc else decimalFrom fuel (n / 10) ((48 + n % 10) :: acc)

/-- A number in decimal, without leading zeros. Twenty digits hold every value of the part. -/
def decimal (n : Nat) : List Nat := decimalFrom 20 n []

/-- Filled on the left to a length. -/
def padLeft (w c : Nat) (t : List Nat) : List Nat := List.replicate (w - t.length) c ++ t

/-- Filled on the right with spaces, or cut, to a length. -/
def fitRight (w : Nat) (t : List Nat) : List Nat := (t ++ List.replicate (w - t.length) 0x20).take w

/-- Dashes over a field (R145). -/
def dashes (w : Nat) : List Nat := List.replicate w 0x2D

/-- Right-aligned in a field, or what an overflow shows. -/
def alignRight (w : Nat) (t overflow : List Nat) : List Nat := if w < t.length then overflow else padLeft w 0x20 t

/-- NUMBER (R146). -/
def renderNumber (w decimals : Nat) (v : Int) : List Nat :=
  let digits := padLeft (decimals + 1) 0x30 (decimal v.natAbs)
  let whole := digits.take (digits.length - decimals)
  let text := if decimals = 0 then digits else whole ++ 0x2E :: digits.drop (digits.length - decimals)
  alignRight w (if v < 0 then 0x2D :: text else text) (List.replicate w 0x39)

/-- DURATION (R146). -/
def renderDuration (w : Nat) (v : Int) : List Nat :=
  if v < 0 then dashes w
  else
    let m := v.toNat
    alignRight w (decimal (m / 60) ++ 0x3A :: padLeft 2 0x30 (decimal (m % 60)))
      (List.replicate (w - 3) 0x39 ++ [0x3A, 0x35, 0x39])

/-- CLOCK (R147). -/
def renderClock (w : Nat) (v : Int) : List Nat :=
  let r := (v % 1440).toNat
  padLeft w 0x20 (padLeft 2 0x30 (decimal (r / 60)) ++ 0x3A :: padLeft 2 0x30 (decimal (r % 60)))

/-- ENUM (R147). -/
def renderEnum (w : Nat) (names : List (List Nat)) (v : Int) : List Nat :=
  if v < 0 then dashes w
  else
    match names[v.toNat]? with
    | none => dashes w
    | some t => fitRight w t

/-- BAR (R147). -/
def renderBar (w barChar fullScale : Nat) (v : Int) : List Nat :=
  let filled := min v.toNat fullScale * w / fullScale
  List.replicate filled barChar ++ List.replicate (w - filled) 0x20

/-- A value rendered by its kind (R146, R147). -/
def PanelTable.render (t : PanelTable) (w : Nat) (kind : FieldKind) (v : Int) : List Nat :=
  match kind with
  | .number d => renderNumber w d v
  | .duration => renderDuration w v
  | .clock => renderClock w v
  | .enum l => renderEnum w (t.nameLists.getD l []) v
  | .bar f => renderBar w t.barChar f v

/-- Codes placed in an image from a cell on. -/
def place (image : List Nat) (cell : Nat) (codes : List Nat) : List Nat :=
  image.take cell ++ codes ++ image.drop (cell + codes.length)

/-- A value, or dashes, placed in a field's cells. -/
def PanelTable.placeField (t : PanelTable) (image : List Nat) (p : FieldPlace) (v : Option Int) : List Nat :=
  place image (20 * p.line + p.column)
    (match v with
     | none => dashes p.width
     | some x => t.render p.width p.kind x)

/-- The item number of a field (R145). -/
def Field.itemNumber (f : Field) (pageIndex : Nat) : Nat :=
  (f.base + (if f.indexed then pageIndex else 0) * f.scale + f.displacement) % 65536

/-- The value of a field (R145). -/
def State.fieldValue (s : State) (p : Page) (f : Field) : Option Int :=
  s.spaceItem (f.space.getD p.defaultSpace) (f.itemNumber s.panel.index)

/-- A page rendered (R144). -/
def State.renderPage (s : State) (t : PanelTable) (p : Page) : List Nat :=
  p.fields.foldl (fun image f => t.placeField image f.place (s.fieldValue p f)) p.text

/-- Two lines of text, filled up with spaces. -/
def twoLines (line0 line1 : List Nat) : List Nat := fitRight 20 line0 ++ fitRight 20 line1

/-- Forty spaces. -/
def blankImage : List Nat := List.replicate 40 0x20

/-- The image of TEXT: "CLUSTER NOT", "CONFIGURED" (R138). -/
def textImage : List Nat :=
  twoLines [0x43, 0x4C, 0x55, 0x53, 0x54, 0x45, 0x52, 0x20, 0x4E, 0x4F, 0x54]
    [0x43, 0x4F, 0x4E, 0x46, 0x49, 0x47, 0x55, 0x52, 0x45, 0x44]

/-- The built-in start image: "ISJEDRA ISJ-2440" (R138). -/
def startImage : List Nat :=
  twoLines [0x49, 0x53, 0x4A, 0x45, 0x44, 0x52, 0x41, 0x20, 0x49, 0x53, 0x4A, 0x2D, 0x32, 0x34, 0x34, 0x30] []

/-- The built-in page: "PANEL NOT LOADED" (R141). -/
def builtinPage : List Nat :=
  twoLines [0x50, 0x41, 0x4E, 0x45, 0x4C, 0x20, 0x4E, 0x4F, 0x54, 0x20, 0x4C, 0x4F, 0x41, 0x44, 0x45, 0x44] []

/-- "MESSAGE " (R148). -/
def messageWord : List Nat := [0x4D, 0x45, 0x53, 0x53, 0x41, 0x47, 0x45, 0x20]

/-- The name of an origin (R148). -/
def originName : Origin → List Nat
  | .link => [0x4C, 0x49, 0x4E, 0x4B]
  | .gauge => [0x47, 0x41, 0x55, 0x47, 0x45]
  | .lamp => [0x4C, 0x41, 0x4D, 0x50]
  | .hours => [0x48, 0x4F, 0x55, 0x52, 0x53]
  | .distance => [0x44, 0x49, 0x53, 0x54, 0x41, 0x4E, 0x43, 0x45]
  | .system => [0x53, 0x59, 0x53, 0x54, 0x45, 0x4D]

/-- The page with a number, under a PANEL table. -/
def PanelTable.page (t : PanelTable) (n : Nat) : Option Page := t.pages[n]?

/-- The start page of the PANEL table in use. -/
def PanelTable.start (t : PanelTable) : Option Page := t.startPage.bind t.page

/-- The image of START (R138). -/
def State.startView (s : State) : List Nat :=
  match s.tables.panel with
  | none => startImage
  | some t =>
    match t.start with
    | none => startImage
    | some p => s.renderPage t p

/-- The image of PAGE (R138, R141, R144). -/
def State.pageView (s : State) : List Nat :=
  match s.tables.panel with
  | none => builtinPage
  | some t =>
    match t.page s.panel.selected with
    | none => blankImage
    | some p => s.renderPage t p

/-- The built-in message image (R148). -/
def messageImage (id : Identity) : List Nat :=
  twoLines (messageWord ++ padLeft 3 0x30 (decimal id.code)) (originName id.origin ++ 0x20 :: decimal id.arg)

/-- The text of a message code, under a PANEL table. -/
def PanelTable.textOf (t : PanelTable) (code : Nat) : Option MessageText := t.texts.find? fun x => x.code == code

/-- A message text with the entry's argument (R148). -/
def PanelTable.textImage (t : PanelTable) (x : MessageText) (arg : Nat) : List Nat :=
  match x.argument with
  | none => x.text
  | some p => t.placeField x.text p (item arg)

/-- The image of MESSAGE (R148). -/
def State.messageView (s : State) (id : Identity) : List Nat :=
  match s.tables.panel with
  | none => messageImage id
  | some t =>
    match t.textOf id.code with
    | none => messageImage id
    | some x => t.textImage x id.arg

/-! ## The refresh (R138, R139) -/

/-- The view that a refresh displays (R138). -/
def State.viewNow (s : State) : View :=
  match s.mode.mode with
  | .unconfigured => .text
  | .starting => .start
  | .running | .limp => if s.stack.top.isSome then .message else .page
  | .parking | .dormant | .initial => .blank

/-- The image that a refresh builds. -/
def State.imageNow (s : State) : List Nat :=
  match s.viewNow, s.stack.topId with
  | .text, _ => textImage
  | .start, _ => s.startView
  | .page, _ => s.pageView
  | .message, some id => s.messageView id
  | .message, none => blankImage
  | .blank, _ => blankImage

/-- A cell with no dot lit (R139). -/
def blankGlyph : List Nat := [0, 0, 0, 0, 0, 0, 0]

/-- The glyph of a character code (R139). -/
def State.glyph (s : State) (code : Nat) : List Nat :=
  if 0x20 ≤ code ∧ code ≤ 0x7E then (Config.builtinGlyph code).toList.map Fin.val
  else if 0x80 ≤ code ∧ code ≤ 0x9F then
    (match s.tables.glyph with
     | none => blankGlyph
     | some t => (t.drop (7 * (code - 0x80))).take 7)
  else blankGlyph

/-- The panel after a refresh; entering the MESSAGE view ends index mode (R148). -/
def State.panelNow (s : State) : Panel :=
  let view := s.viewNow
  { s.panel with
    view := view
    image := s.imageNow
    displayed := if view = .message then s.stack.topId else none
    indexMode := if view = .message ∧ s.panel.view ≠ .message then false else s.panel.indexMode
    backlight := view != .blank
    drivers := s.imageNow.map s.glyph }

/-- The refresh with its display report (R138, R148, R129). -/
def State.refreshPanel (s : State) : State :=
  let s' := s.withPanel s.panelNow
  match s'.panel.displayed with
  | none => s'
  | some id => s'.withStack (s'.stack.display id)

/-- PANEL_REFRESH (R138). -/
def execPanelRefresh (s : State) : Host.Outcome State Fault Refusal :=
  .next (if s.mode.mode = .initial then s else s.refreshPanel)

/-! ## Debouncers (R149) -/

/-- A key's debouncer. -/
def Panel.debouncer (p : Panel) : Key → Debouncer
  | .ok => p.keyOk
  | .up => p.keyUp
  | .down => p.keyDown
  | .back => p.keyBack

/-- A key's debouncer replaced. -/
def Panel.withDebouncer (p : Panel) (k : Key) (d : Debouncer) : Panel :=
  match k with
  | .ok => { p with keyOk := d }
  | .up => { p with keyUp := d }
  | .down => { p with keyDown := d }
  | .back => { p with keyBack := d }

/-- A key's debouncer in the part replaced. -/
def State.setDebouncer (s : State) (k : Key) (d : Debouncer) : State := s.withPanel (s.panel.withDebouncer k d)

/-- KEY_INPUT (R149): the pin changes; a return to the debounced level stops the settle timer. -/
def execKeyInput (k : Key) (pressed : Bool) (s : State) : Host.Outcome State Fault Refusal :=
  .next (let d := s.panel.debouncer k
    s.setDebouncer k { d with input := pressed, settle := if pressed = d.level then 0 else d.settle })

/-- ACCEPTED_PRESS (R149): the settle timer of a pressed key stands at 30 ms (log 3). -/
def execAcceptedPress (k : Key) (s : State) : Host.Outcome State Fault Refusal :=
  .next (let d := s.panel.debouncer k
    if s.mode.mode ≠ .initial ∧ d.input = true ∧ d.level = false ∧ d.settle = 30 then
      s.setDebouncer k { d with level := true, settle := 0, hold := 0, longGiven := false }
    else s)

/-! ## Key events (R150, R151) -/

/-- The page count in force (R141). -/
def State.pageCount (s : State) : Nat :=
  match s.tables.panel with
  | none => 1
  | some t => t.pages.length

/-- The selected page, under the PANEL table in use. Without a table there is none: the built-in page is not
indexed and its OK LONG clears no trip, R141 giving it its text and nothing else (log 45). -/
def State.selectedPage (s : State) : Option Page := s.tables.panel.bind fun t => t.page s.panel.selected

/-- A page is selected (R151, R152). -/
def Panel.select (p : Panel) (n : Nat) : Panel := { p with selected := n, index := 0 }

/-- OK LONG in the PAGE view clears the page's trip (R151). -/
def State.clearPageTrip (s : State) : State :=
  match s.selectedPage.bind Page.tripReset with
  | none => s
  | some t => s.withSpeed (s.speed.resetTrip t)

/-- A key event in the PAGE view with index mode no (R151). -/
def State.pageKey (s : State) (k : Key) (long : Bool) : State :=
  match k, long with
  | .up, false =>
    s.withPanel (s.panel.select (if s.panel.selected = 0 then s.pageCount - 1 else s.panel.selected - 1))
  | .down, false =>
    s.withPanel (s.panel.select (if s.panel.selected + 1 < s.pageCount then s.panel.selected + 1 else 0))
  | .ok, false => if s.selectedPage.any Page.indexed then s.withPanel { s.panel with indexMode := true } else s
  | .ok, true => s.clearPageTrip
  | .up, true | .down, true | .back, _ => s

/-- A key event in the PAGE view with index mode yes (R151). -/
def State.indexKey (s : State) (k : Key) (long : Bool) : State :=
  match k, long with
  | .up, false => s.withPanel { s.panel with index := s.panel.index - 1 }
  | .down, false => s.withPanel { s.panel with index := min (s.panel.index + 1) 31 }
  | .back, false => s.withPanel { s.panel with indexMode := false }
  | .ok, true => s.clearPageTrip
  | .ok, false | .up, true | .down, true | .back, true => s

/-- The action of a key event in RUNNING and LIMP, by the view last displayed (R151). -/
def State.keyAction (s : State) (k : Key) (long : Bool) : State :=
  match s.panel.view with
  | .message => if k = .ok ∧ long = false then s.keyAcknowledge s.panel.displayed else s
  | .page => if s.panel.indexMode then s.indexKey k long else s.pageKey k long
  | .text | .start | .blank => s

/-- The queue after a key event (R153). -/
def Panel.enqueue (p : Panel) (k : Key) (long : Bool) : Panel :=
  if p.queue.length < 16 then { p with queue := p.queue ++ [⟨k, long, p.stamp⟩] } else p

/-- The PANEL table in use enables the click (R141). -/
def State.clicks (s : State) : Bool := s.tables.panel.any PanelTable.click

/-- A key event (R150). -/
def State.keyEvent (s : State) (k : Key) (long : Bool) : State :=
  let s1 := (s.withPanel (s.panel.enqueue k long)).raise .keyEvent
  let s2 := if s1.clicks then s1.request Chime.requestClick else s1
  if s2.mode.mode = .running ∨ s2.mode.mode = .limp then s2.keyAction k long else s2

/-- The release of a pressed key is accepted, its settle timer standing at 30 ms (log 3). -/
def State.acceptRelease (s : State) (k : Key) : State :=
  let d := s.panel.debouncer k
  if s.mode.mode ≠ .initial ∧ d.input = false ∧ d.level = true ∧ d.settle = 30 then
    let s' := s.setDebouncer k { d with level := false, settle := 0 }
    if d.longGiven then s' else s'.keyEvent k false
  else s

/-- ACCEPTED_RELEASE (R149). -/
def execAcceptedRelease (k : Key) (us : Nat) (s : State) : Host.Outcome State Fault Refusal :=
  .next ((s.elapse us).acceptRelease k)

/-- The hold timer of a pressed key stands at 1000 ms (log 3). -/
def State.giveLong (s : State) (k : Key) : State :=
  let d := s.panel.debouncer k
  if s.mode.mode ≠ .initial ∧ d.level = true ∧ d.longGiven = false ∧ d.hold = 1000 then
    (s.setDebouncer k { d with longGiven := true }).keyEvent k true
  else s

/-- LONG_KEY_EVENT (R149). -/
def execLongKeyEvent (k : Key) (us : Nat) (s : State) : Host.Outcome State Fault Refusal :=
  .next ((s.elapse us).giveLong k)

/-! ## Orders (R152, R153) -/

/-- SELECT PAGE (R152). -/
def selectPageBody (s : State) (args : List Word) : State × OrderEnd :=
  let n := arg args 0
  if s.pageCount ≤ n then refuse s .badArgument
  else done (s.withPanel { s.panel.select n with indexMode := false })

/-- SELECT_PAGE (R152). -/
def execSelectPage (s : State) : Host.Outcome State Fault Refusal := .next (s.runOrder .selectPage selectPageBody)

/-- The code of a key (11_formats.md). -/
def keyCode : Key → Nat
  | .ok => 0
  | .up => 1
  | .down => 2
  | .back => 3

/-- The two words of a key entry (11_formats.md). -/
def KeyEntry.words (e : KeyEntry) : List Word := [wordOf (keyCode e.key + 16 * flagOf e.long), wordOf e.stamp]

/-- TAKE KEYS (R153). -/
def takeKeysBody (s : State) (args : List Word) : State × OrderEnd :=
  let a := arg args 0
  let most := arg args 1
  if most < 1 ∨ 16 < most ∨ a < 0x500 ∨ 0x1000 < a + 2 * most then refuse s .badArgument
  else
    let taken := s.panel.queue.take most
    let s' := s.writeWords a (taken.flatMap KeyEntry.words)
    (s'.withPanel { s'.panel with queue := s'.panel.queue.drop most }, .ended .done taken.length)

/-- TAKE_KEYS (R153). -/
def execTakeKeys (s : State) : Host.Outcome State Fault Refusal := .next (s.runOrder .takeKeys takeKeysBody)

end Sys2Proof.Machine
end

