-- ==== Sys2Proof/Machine/Report.lean ====
section
/-! DEFINITION. What the part writes into exchange memory of its own state: the report block (R172) and the
records of COPY OUT (R180), in the layouts of 11_formats.md. -/

namespace Sys2Proof.Machine

/-! ## Codes of the layouts -/

/-- The code of a device mode. -/
def DeviceMode.code : DeviceMode → Nat
  | .initial => 0
  | .unconfigured => 1
  | .starting => 2
  | .running => 3
  | .limp => 4
  | .parking => 5
  | .dormant => 6

/-- The code of a channel state. -/
def ChannelState.code : ChannelState → Nat
  | .idle => 0
  | .unhomed => 1
  | .homing => 2
  | .sweeping => 3
  | .tracking => 4
  | .holding => 5
  | .failed => 6
  | .parking => 7
  | .parked => 8

/-- The code of a lamp fault state. -/
def LampFault.code : LampFault → Nat
  | .none => 0
  | .open => 1
  | .shortWait => 2
  | .latchedOff => 3

/-- The code of a slot type. -/
def SlotType.code : SlotType → Nat
  | .unused => 0
  | .signed => 1
  | .unsigned => 2
  | .lampWord => 3
  | .heartbeat => 4

/-- The code of a slot condition. -/
def Condition.code : Condition → Nat
  | .never => 0
  | .good => 1
  | .error => 2
  | .notAvailable => 3
  | .stale => 4

/-- The code of an entry's state. -/
def EntryState.code : EntryState → Nat
  | .new => 0
  | .shown => 1
  | .acked => 2

/-- The not-available code. -/
def notAvailable : Word := 0xFFFF

/-- A word that may be not available. -/
def wordOrNot (n : Option Nat) : Word := (n.map wordOf).getD notAvailable

/-- Numbers packed into one word, the first in the least significant bits. -/
def pack (width : Nat) : List Nat → Nat
  | [] => 0
  | x :: xs => x + 2 ^ width * pack width xs

/-- Numbers packed into `count` words of `per` numbers each. -/
def packWords (width per : Nat) : Nat → List Nat → List Word
  | 0, _ => []
  | count + 1, xs => wordOf (pack width (xs.take per)) :: packWords width per count (xs.drop per)

/-! ## The report block (R172) -/

/-- Word 1: mode, ignition state and reset kind. -/
def ModeControl.word (m : ModeControl) : Word :=
  wordOf (m.mode.code + 16 * flagOf m.ignition + 32 * flagOf (m.kind == .hard))

/-- The alert flags. -/
def Alerts.word (a : Alerts) : Word :=
  wordOf (flagOf a.prewarn + 2 * flagOf a.cdExceeded + 4 * flagOf a.ddExceeded)

/-- The activity of a slot, 7 for none. -/
def Driver.activityWord (d : Driver) : Word := wordOf ((d.activity.map fun o => o.kind.code).getD 7)

/-- The six words of a driver slot. -/
def Driver.reportWords (d : Driver) : List Word :=
  [wordOf (flagOf d.activity.isSome), d.activityWord, wordOrNot (d.live.map Live.rcd), wordOrNot (d.live.map Live.rdd),
    wordOrNot (d.live.map Live.breakNeeded), d.alerts.word]

/-- A lamp's output state (R94). -/
def LampRec.outputCode (r : LampRec) : Nat := if r.fault.dark then 0 else r.shown.code

/-- The view-top's identity (words 48 and 49). Without a view-top the code and the argument, for which the layout
gives no content beside origin 7, hold 0 (log 48). -/
def Stack.topWords (k : Stack) : List Word :=
  match k.topId with
  | none => [wordOf (7 * 256), 0]
  | some id => [wordOf (id.code + 256 * originCode id.origin), wordOf id.arg]

/-- Words 1 to 62 as gathered from the units. -/
def State.reportContent (s : State) : List Word :=
  [s.mode.word, s.engine.stripRegister, wordOf s.speed.v] ++ twoWords s.speed.odometer ++ twoWords s.speed.tripA ++
    twoWords s.speed.tripB ++ twoWords s.hours.clock ++ [wordOf (flagOf s.hours.clockSet)] ++
    s.hours.driver1.reportWords ++ s.hours.driver2.reportWords ++
    s.gauges.toList.map (fun ch => wordOf ch.p) ++
    packWords 4 4 2 (s.gauges.toList.map fun ch => ch.state.code) ++
    packWords 2 8 5 (s.lamps.recs.toList.map LampRec.outputCode) ++
    packWords 1 16 3 (s.lamps.recs.toList.map fun r => flagOf (r.fault != .none)) ++
    packWords 1 16 4 (s.intake.slots.toList.map fun r => flagOf (r.condition != .good)) ++
    [wordOf s.stack.entries.length] ++ s.stack.topWords ++ [wordOf s.panel.queue.length] ++
    List.replicate 12 0

/-- The words of a pass from a place on, with the link accesses that land between them (log 13). -/
def State.writePass (mid : List MidAccess) : Nat → List Word → State → State
  | _, [], s => s
  | n, w :: ws, s => State.writePass mid (n + 1) ws (State.accessesAt mid (n + 1) (s.writeXm n w))

/-- The content that a pass gathers, by its places in words 1 to 62. -/
def State.gathered (s : State) : Vector Word 62 := Vector.ofFn fun i => s.reportContent.getD i.val 0

/-- A refresh pass (R172): the content is gathered, the sequence number increases, and the writes are the sequence
number, the content, and the sequence number again. -/
def State.reportPass (s : State) (mid : List MidAccess) : State :=
  let seq := s.link.refreshSeq + 1
  State.writePass mid 0 (seq :: s.gathered.toList ++ [seq]) (s.withLink { s.link with refreshSeq := seq })

/-- REPORT_REFRESH (R172). -/
def execReportRefresh (mid : List MidAccess) (s : State) : Host.Outcome State Fault Refusal :=
  .next (if s.mode.mode = .initial then s else s.reportPass mid)

/-! ## Records copied out (R180) -/

/-- The words of a history entry; an empty one has kind 7 and zeros. -/
def historyWords (e : Option HistoryEntry) : List Word :=
  match e with
  | none => [7, 0, 0]
  | some e => wordOf (e.kind.code + 8 * e.duration) :: twoWords e.start

/-- The places 0 to n - 1 of a list. -/
def places {α : Type} (n : Nat) (l : List α) : List (Option α) := (List.range n).map fun i => l[i]?

/-- DRIVER (R118). The words of an absent card number, activity start or withdrawal minute, for which the layout
has presence bits and no content, hold 0 (log 48). -/
def Hours.driverRecord (h : Hours) (slot : DriverSlot) : List Word :=
  let d := h.driver slot
  [wordOf (flagOf d.activity.isSome)] ++ twoWords (d.card.getD 0) ++
    [wordOf (flagOf d.card.isSome + 2 * flagOf d.withdrawal.isSome), d.activityWord] ++
    twoWords ((d.activity.map OpenActivity.start).getD 0) ++
    [wordOf d.cd, wordOf d.dd, wordOf (flagOf d.firstTaken)] ++ twoWords (d.withdrawal.getD 0) ++
    [d.alerts.word, wordOrNot (d.live.map fun l => min l.cd 65534), wordOrNot (d.live.map fun l => min l.dd 65534),
      wordOrNot (d.live.map Live.rcd), wordOrNot (d.live.map Live.rdd), wordOrNot (d.live.map Live.breakNeeded)] ++
    twoWords h.clock ++ [wordOf (flagOf h.clockSet), wordOf d.history.length, 0, 0] ++
    (places 32 d.history).flatMap historyWords

/-- The words of a message entry, or of an empty place, in which everything but origin 7, for which the layout gives
no content, holds 0 (log 48). -/
def entryWords (e : Option Entry) : List Word :=
  match e with
  | none => [wordOf (7 * 256), 0, 0, 0, 0, 0]
  | some e =>
    [wordOf (e.id.code + 256 * originCode e.id.origin + 4096 * e.severity.code), wordOf e.id.arg,
      wordOf (e.state.code + 16 * flagOf e.active)] ++ twoWords e.arrival ++ [wordOf (e.shownTime / 100)]

/-- An entry put before the first later arrival. -/
def insertByArrival (e : Entry) : List Entry → List Entry
  | [] => [e]
  | b :: bs => if e.arrival < b.arrival then e :: b :: bs else b :: insertByArrival e bs

/-- The entries in order of arrival, the oldest first. -/
def byArrival (es : List Entry) : List Entry := es.foldl (fun acc e => insertByArrival e acc) []

/-- MESSAGES (R135). -/
def Stack.messagesRecord (k : Stack) : List Word := (places 16 (byArrival k.entries)).flatMap entryWords

/-- A channel's eight words (R32). -/
def Channel.words (ch : Channel) : List Word :=
  [wordOf (ch.state.code + 256 * flagOf ch.alarm0 + 512 * flagOf ch.alarm1), BitVec.ofInt 16 ch.x, wordOf ch.t,
    wordOf ch.f, wordOf ch.g, wordOf ch.p, wordOf (ch.hold / 10), wordOf ch.homing]

/-- A lamp's two words (R94). Bits 4 and 5 of the first, the link contribution, hold 0 where bit 6 says that there
is none (log 48). -/
def LampRec.words (r : LampRec) : List Word :=
  [wordOf (r.shown.code + 4 * r.operating.code + 16 * (r.contribution.map Demand.code).getD 0 +
      64 * flagOf r.contribution.isNone + 256 * r.fault.code),
    wordOf (r.openCount + 16 * r.shortCount + 256 * flagOf r.sources.watchers + 512 * flagOf r.sources.hours +
      1024 * flagOf r.sources.dataFault + 2048 * flagOf r.sources.tellTale)]

/-- A slot's word (R16). -/
def SlotRec.word (r : SlotRec) : Word := wordOf (r.type.code + 16 * r.condition.code + 128 * (r.age / 10))

/-- The record of a kind. -/
def State.record (s : State) : CopyKind → List Word
  | .driver1 => s.hours.driverRecord .one
  | .driver2 => s.hours.driverRecord .two
  | .messages => s.stack.messagesRecord
  | .gauges => s.gauges.toList.flatMap Channel.words
  | .lamps => s.lamps.recs.toList.flatMap LampRec.words
  | .slots => s.intake.slots.toList.map SlotRec.word

/-- The length of a kind's record (R180). -/
def CopyKind.length : CopyKind → Nat
  | .driver1 | .driver2 => 120
  | .messages => 96
  | .gauges => 64
  | .lamps => 80
  | .slots => 64

/-- The kind that a kind code names, DRIVER before its selector is read (R118). -/
def copyKindOf : Nat → Option CopyKind
  | 1 => some .driver1
  | 2 => some .messages
  | 3 => some .gauges
  | 4 => some .lamps
  | 5 => some .slots
  | _ => none

/-- DRIVER takes its slot from the selector; the other kinds do not read it (R118, R180). -/
def CopyKind.select (k : CopyKind) (selector : Nat) : Option CopyKind :=
  match k with
  | .driver1 | .driver2 => if selector = 1 then some .driver1 else if selector = 2 then some .driver2 else none
  | .messages | .gauges | .lamps | .slots => some k

/-- COPY OUT (R180). -/
def copyOutBody (s : State) (args : List Word) : State × OrderEnd :=
  let a := arg args 2
  match copyKindOf (arg args 0) with
  | none => refuse s .badArgument
  | some k =>
    if a < 0x500 ∨ 0x1000 < a + k.length then refuse s .badArgument
    else
      match k.select (arg args 1) with
      | none => refuse s .badArgument
      | some k => (s, .holds (.copy k a))

/-- COPY_OUT (R180). -/
def execCopyOut (s : State) : Host.Outcome State Fault Refusal := .next (s.runOrder .copyOut copyOutBody)

/-- COPY_OUT_SNAPSHOT (R180): the record is written and the order ends in one step. The record of every kind, those
of DRIVER and MESSAGES among them, which R118 and R135 take at once at the order's start, is the one that stands at
this event (log 51). -/
def execCopyOutSnapshot (s : State) : Host.Outcome State Fault Refusal :=
  .next (match s.engine.hold with
    | some (.copy k a) => (s.writeWords a (s.record k)).finish .done 0
    | some (.table _) | some .store | none => s)

end Sys2Proof.Machine
end

