-- ==== Sys2Proof/Machine/Tables.lean ====
section
/-! DEFINITION. Table images (R178, R184 to R186): the content validation of each kind (R4, R36, R73, R99, R140,
R142), the reading of a body into a table, and LOAD TABLE. -/

namespace Sys2Proof.Machine

/-! ## Checks -/

/-- A check of the content validation: the field index (R186) and whether the field passes. -/
abbrev Check := Nat × Bool

/-- The index of the field at a bit of a body word (R186). -/
def fieldIndex (offset bit : Nat) : Nat := 16 * offset + bit

/-- The index of the first field that fails. -/
def firstFailure : List Check → Option Nat
  | [] => none
  | (i, ok) :: cs => if ok then firstFailure cs else some i

/-- A body word. -/
def wordAt (b : List Word) (i : Nat) : Word := b.getD i 0

/-- A body word as a number. -/
def numAt (b : List Word) (i : Nat) : Nat := (wordAt b i).toNat

/-- A field of a body word. -/
def fieldAt (b : List Word) (i lo n : Nat) : Nat := bits (wordAt b i) lo n

/-- A number within a range. -/
def within (lo hi n : Nat) : Bool := decide (lo ≤ n ∧ n ≤ hi)

/-- A lamp number or the code for absent (R184). -/
def lampOrAbsent (n : Nat) : Bool := decide (n < 40) || n == 255

/-- A check of a whole body word. -/
def wordCheck (offset : Nat) (ok : Bool) : Check := (fieldIndex offset 0, ok)

/-! ## SLOTS (R4) -/

/-- The slot type with a code. -/
def SlotType.ofCode : Nat → Option SlotType
  | 0 => some .unused
  | 1 => some .signed
  | 2 => some .unsigned
  | 3 => some .lampWord
  | _ => none

/-- A SIGNED or UNSIGNED slot, which a gauge channel can read. -/
def SlotType.numeric : SlotType → Bool
  | .signed | .unsigned => true
  | .unused | .lampWord | .heartbeat => false

/-- Breakpoints in strictly rising order of x. -/
def risingX (signed : Bool) : List Breakpoint → Bool
  | [] => true
  | [_] => true
  | a :: b :: rest => decide (inDomain signed a.x < inDomain signed b.x) && risingX signed (b :: rest)

/-- A release level strictly on the releasing side of its set level (R35). -/
def releases (signed above : Bool) (set release : Word) : Bool :=
  if above then decide (inDomain signed release < inDomain signed set)
  else decide (inDomain signed set < inDomain signed release)

/-- A channel's x values and levels stand in order in a domain (R4). -/
def GaugeEntry.ordered (e : GaugeEntry) (signed : Bool) : Bool :=
  risingX signed e.points && releases signed e.watcher0.above e.watcher0.setLevel e.watcher0.releaseLevel &&
    releases signed e.watcher1.above e.watcher1.setLevel e.watcher1.releaseLevel

/-- A channel accepts the new type of its source slot (R4). -/
def GaugeEntry.accepts (e : GaugeEntry) (old new : SlotType) : Bool :=
  new.numeric && (!old.numeric || old == new || e.ordered (new == .signed))

/-- The gauge channels that read a slot accept its new type. -/
def State.gaugesAccept (s : State) (i : Fin 64) (new : SlotType) : Bool :=
  allChannels.all fun c =>
    match s.enabledEntry c with
    | none => true
    | some e => e.source != .slot i || e.accepts (s.slotRec i).type new

/-- The lamps that read a slot accept its new type. -/
def State.lampsAccept (s : State) (i : Fin 64) (new : SlotType) : Bool :=
  allLamps.all fun n =>
    match (s.lampEntry n).bind LampEntry.link with
    | none => true
    | some l => l.slot != i || new == .lampWord

/-- A slot's type field passes. -/
def State.typePasses (s : State) (i : Fin 64) (code : Nat) : Bool :=
  match SlotType.ofCode code with
  | none => false
  | some t => s.gaugesAccept i t && s.lampsAccept i t

/-- The heartbeat timeout field, split over words 0 and 1. -/
def slotsHeartbeat (b : List Word) : Nat := 16 * fieldAt b 0 12 4 + fieldAt b 1 12 4

/-- The data-fault lamp field, split over words 2 and 3. -/
def slotsDataFault (b : List Word) : Nat := 16 * fieldAt b 2 12 4 + fieldAt b 3 12 4

/-- The checks of one slot's word, in the order of their field index. -/
def State.slotChecks (s : State) (b : List Word) (i : Fin 64) : List Check :=
  let n := i.val
  (if n = 0 then [(fieldIndex 0 12, within 10 200 (slotsHeartbeat b))]
  else
    [(fieldIndex n 0, fieldAt b n 9 3 == 0 || within 5 500 (fieldAt b n 0 9)),
      (fieldIndex n 9, s.typePasses i (fieldAt b n 9 3))]) ++
  (if n = 2 then [(fieldIndex 2 12, lampOrAbsent (slotsDataFault b))] else [])

/-- The checks of a SLOTS body. -/
def State.slotsChecks (s : State) (b : List Word) : List Check := allSlots.flatMap (s.slotChecks b)

/-- A SLOTS body as a table. -/
def readSlots (b : List Word) : SlotsTable where
  entries := Vector.ofFn fun i : Fin 64 => ⟨(SlotType.ofCode (fieldAt b i 9 3)).getD .unused, fieldAt b i 0 9⟩
  heartbeatTimeout := slotsHeartbeat b
  dataFaultLamp := lampOfCode (slotsDataFault b)

/-! ## GAUGE (R36) -/

/-- The source with a code: a slot 1 to 63, or 64 for SPEED. -/
def sourceOfCode (n : Nat) : Option Source :=
  if n = 64 then some .speed else if h : 0 < n ∧ n < 64 then some (.slot ⟨n, h.2⟩) else none

/-- The x values and levels of an entry with this source are read as signed numbers; for a slot that is neither
SIGNED nor UNSIGNED the domain is free (log 15). A code that names no source fails before its domain is asked. -/
def State.domainSigned (s : State) (src : Option Source) : Bool :=
  match src with
  | some (.slot i) =>
    (match (s.slotRec i).type with
     | .signed => true
     | .unsigned => false
     | .unused | .lampWord | .heartbeat => Config.untypedSourceSigned i)
  | some .speed | none => false

/-- A source that an enabled channel can have (R36). -/
def State.sourceUsable (s : State) (src : Option Source) : Bool :=
  match src with
  | some (.slot i) => (s.slotRec i).type.numeric
  | some .speed => true
  | none => false

/-- The length of a GAUGE entry. -/
def gaugeStride (b : List Word) : Nat := numAt b 0

/-- The first word of a channel's entry. -/
def gaugeBase (b : List Word) (c : Nat) : Nat := 4 + c * gaugeStride b

/-- The checks of one breakpoint below the count. -/
def breakpointChecks (signed : Bool) (b : List Word) (base i : Nat) : List Check :=
  let x := base + 8 + 2 * i
  [wordCheck x (i == 0 || decide (inDomain signed (wordAt b (x - 2)) < inDomain signed (wordAt b x))),
    wordCheck (x + 1) (decide (numAt b (x + 1) ≤ numAt b (base + 1)))]

/-- The checks of one watcher. -/
def watcherChecks (signed : Bool) (b : List Word) (o : Nat) : List Check :=
  [wordCheck o (within 0 1 (numAt b o)),
    wordCheck (o + 2) (releases signed (numAt b o == 1) (wordAt b (o + 1)) (wordAt b (o + 2))),
    wordCheck (o + 3) (lampOrAbsent (numAt b (o + 3))),
    wordCheck (o + 4) (within 0 239 (numAt b (o + 4))),
    wordCheck (o + 5) (numAt b (o + 4) == 0 || within 0 2 (numAt b (o + 5)))]

/-- The checks of one channel's entry. -/
def State.gaugeEntryChecks (s : State) (b : List Word) (c : Fin 8) : List Check :=
  let o := gaugeBase b c
  let enabled := bit (wordAt b 1) c
  let src := sourceOfCode (numAt b o)
  let signed := s.domainSigned src
  [wordCheck o (src.isSome && (!enabled || s.sourceUsable src)),
    wordCheck (o + 1) (within 1 4095 (numAt b (o + 1))),
    wordCheck (o + 2) (within 2 12 (numAt b (o + 2))),
    wordCheck (o + 3) (within 1 256 (numAt b (o + 3))),
    wordCheck (o + 4) (within 1 255 (numAt b (o + 4))),
    wordCheck (o + 5) (within 0 7 (numAt b (o + 5))),
    wordCheck (o + 6) (within 0 1000 (numAt b (o + 6))),
    wordCheck (o + 7) (decide (numAt b (o + 7) ≤ numAt b (o + 1)))] ++
    (List.range (min 12 (numAt b (o + 2)))).flatMap (breakpointChecks signed b o) ++
    watcherChecks signed b (o + 32) ++ watcherChecks signed b (o + 38)

/-- The checks of a GAUGE body. -/
def State.gaugeChecks (s : State) (b : List Word) : List Check := allChannels.flatMap (s.gaugeEntryChecks b)

/-- A message field of a table: a code, 0 for absent, and a severity. -/
def messageOf (code severity : Nat) : Option (Nat × Severity) :=
  if code = 0 then none else (Severity.ofCode severity).map fun v => (code, v)

/-- A watcher's entry read from a body. -/
def readWatcher (b : List Word) (o number : Nat) : WatcherEntry where
  above := numAt b o == 1
  setLevel := wordAt b (o + 1)
  releaseLevel := wordAt b (o + 2)
  lamp := lampOfCode (numAt b (o + 3))
  message := messageOf (numAt b (o + 4)) (numAt b (o + 5))
  alarmOnFail := bit (wordAt b 3) number

/-- A channel's entry read from a body. -/
def readGaugeEntry (b : List Word) (c : Fin 8) : GaugeEntry :=
  let o := gaugeBase b c
  { enabled := bit (wordAt b 1) c
    source := (sourceOfCode (numAt b o)).getD .speed
    travelMax := numAt b (o + 1)
    points := (List.range (numAt b (o + 2))).map fun i => ⟨wordAt b (o + 8 + 2 * i), numAt b (o + 9 + 2 * i)⟩
    k := numAt b (o + 3)
    slew := numAt b (o + 4)
    deadBand := numAt b (o + 5)
    holdTime := 10 * numAt b (o + 6)
    failPosition := numAt b (o + 7)
    sweep := bit (wordAt b 2) c
    watcher0 := readWatcher b (o + 32) (2 * c)
    watcher1 := readWatcher b (o + 38) (2 * c + 1) }

/-- A GAUGE body as a table. -/
def readGauge (b : List Word) : GaugeTable := Vector.ofFn (readGaugeEntry b)

/-! ## LAMP (R73) -/

/-- The colour class with a code. -/
def Colour.ofCode : Nat → Option Colour
  | 0 => some .red
  | 1 => some .amber
  | 2 => some .green
  | 3 => some .blue
  | 4 => some .white
  | _ => none

/-- GREEN, BLUE or WHITE. -/
def mildColour (code : Nat) : Bool := within 2 4 code

/-- The used flag of a lamp. -/
def lampUsed (b : List Word) (n : Nat) : Bool := bit (wordAt b (6 * n)) 0

/-- The colour code of a lamp. -/
def lampColour (b : List Word) (n : Nat) : Nat := fieldAt b (6 * n + 1) 0 3

/-- The fault tell-tale field. -/
def lampTellTale (b : List Word) : Nat := fieldAt b 0 8 6

/-- The fault tell-tale names a used RED or AMBER lamp. -/
def tellTalePasses (b : List Word) : Bool :=
  decide (lampTellTale b < 40) && lampUsed b (lampTellTale b) && !mildColour (lampColour b (lampTellTale b))

/-- The link source field of a used lamp names a LAMP_WORD slot, that of a legal lamp is present. -/
def State.linkPasses (s : State) (used legal : Bool) (slot : Nat) : Bool :=
  if h : slot < 64 then
    if slot = 0 then !legal else !used || (s.slotRec ⟨slot, h⟩).type == .lampWord
  else false

/-- The checks of one lamp's entry. Where a GREEN, BLUE or WHITE lamp has chime on rise CONTINUOUS, R73 names no
failing field; the chime field is reported, not the colour class (log 46). -/
def State.lampChecks (s : State) (b : List Word) (n : Nat) : List Check :=
  let o := 6 * n
  let used := lampUsed b n
  let legal := bit (wordAt b o) 1
  let slot := fieldAt b (o + 2) 0 6
  let stale := fieldAt b (o + 3) 0 2
  let limp := fieldAt b (o + 3) 4 2
  let chime := fieldAt b (o + 4) 0 2
  let code := fieldAt b (o + 5) 0 8
  [(fieldIndex o 1, !legal || (used && !mildColour (lampColour b n)))] ++
    (if n = 0 then [(fieldIndex o 8, tellTalePasses b)] else []) ++
    [(fieldIndex (o + 1) 0, decide (lampColour b n ≤ 4)),
      (fieldIndex (o + 2) 0, s.linkPasses used legal slot),
      (fieldIndex (o + 3) 0, slot == 0 || !legal || (stale != 0 && stale != 3)),
      (fieldIndex (o + 3) 4, slot == 0 || (limp != 3 && (!legal || limp != 0))),
      (fieldIndex (o + 4) 0, chime != 3 && !(mildColour (lampColour b n) && chime == 2)),
      (fieldIndex (o + 5) 0, within 0 239 code),
      (fieldIndex (o + 5) 8, code == 0 || fieldAt b (o + 5) 8 2 != 3)]

/-- The checks of a LAMP body. -/
def State.lampTableChecks (s : State) (b : List Word) : List Check := (List.range 40).flatMap (s.lampChecks b)

/-- The stale state with a code. -/
def StaleState.ofCode : Nat → StaleState
  | 0 => .off
  | 1 => .on
  | 2 => .flashSlow
  | _ => .hold

/-- The chime on rise with a code. -/
def RiseChime.ofCode : Nat → RiseChime
  | 1 => .single
  | 2 => .continuous
  | _ => .none

/-- The link source of a lamp. -/
def readLink (w : Word) : Option LinkSource :=
  if h : 0 < bits w 0 6 ∧ bits w 0 6 < 64 then some ⟨⟨bits w 0 6, h.2⟩, bits w 8 3⟩ else none

/-- A lamp's entry read from a body. -/
def readLampEntry (b : List Word) (n : Fin 40) : LampEntry :=
  let o := 6 * n.val
  { used := lampUsed b n
    colour := (Colour.ofCode (lampColour b n)).getD .red
    legal := bit (wordAt b o) 1
    check := bit (wordAt b o) 2
    ignitionOff := bit (wordAt b o) 3
    link := readLink (wordAt b (o + 2))
    stale := StaleState.ofCode (fieldAt b (o + 3) 0 2)
    limp := Demand.ofCode (fieldAt b (o + 3) 4 2)
    chime := RiseChime.ofCode (fieldAt b (o + 4) 0 2)
    message := messageOf (fieldAt b (o + 5) 0 8) (fieldAt b (o + 5) 8 2) }

/-- A LAMP body as a table. -/
def readLamp (b : List Word) : LampTable where
  entries := Vector.ofFn (readLampEntry b)
  faultTellTale := (lampOfCode (lampTellTale b)).getD 0

/-! ## GLYPH (R140) and RULES (R99) -/

/-- The checks of a GLYPH body. -/
def glyphChecks (b : List Word) : List Check :=
  (List.range 224).map fun i => wordCheck i (decide (numAt b i ≤ 31))

/-- A GLYPH body as a table. -/
def readGlyph (b : List Word) : GlyphTable := (List.range 224).map (numAt b)

/-- The checks of a RULES body. -/
def rulesChecks (b : List Word) : List Check :=
  [wordCheck 0 (within 1 600 (numAt b 0)),
    wordCheck 1 (within 1 119 (numAt b 1)),
    wordCheck 2 (within 2 120 (numAt b 2) && decide (numAt b 1 < numAt b 2)),
    wordCheck 3 (within 1 120 (numAt b 3) && decide (numAt b 2 ≤ numAt b 3)),
    wordCheck 4 (within 1 900 (numAt b 4)),
    wordCheck 5 (within 60 1440 (numAt b 5) && decide (numAt b 3 < numAt b 5)),
    wordCheck 6 (within 0 60 (numAt b 6)),
    wordCheck 7 (within 0 1 (numAt b 7)),
    wordCheck 8 (within 100 3000 (numAt b 8)),
    wordCheck 9 (within 1 300 (numAt b 9)),
    wordCheck 10 (lampOrAbsent (numAt b 10)),
    wordCheck 11 (lampOrAbsent (numAt b 11)),
    wordCheck 12 (lampOrAbsent (numAt b 12))]

/-- A RULES body as a table. -/
def readRules (b : List Word) : RulesTable where
  cdLimit := numAt b 0
  splitFirst := numAt b 1
  splitSecond := numAt b 2
  breakFull := numAt b 3
  dailyLimit := numAt b 4
  dailyRest := numAt b 5
  prewarn := numAt b 6
  gapAsRest := numAt b 7 == 1
  moveSpeed := numAt b 8
  moveTime := numAt b 9
  prewarnLamp := lampOfCode (numAt b 10)
  limitLamp := lampOfCode (numAt b 11)
  undeclaredLamp := lampOfCode (numAt b 12)

/-! ## PANEL (R142) -/

/-- The first word of a page. -/
def pageBase (p : Nat) : Nat := 6 + 61 * p

/-- The first word of a page's field. -/
def panelFieldBase (p f : Nat) : Nat := pageBase p + 21 + 5 * f

/-- The first word of a name list. -/
def nameListBase (j : Nat) : Nat := 738 + 65 * j

/-- The first word of a message text. -/
def textBase (t : Nat) : Nat := 1258 + 24 * t

/-- The column of the field at a word. -/
def fieldColumn (b : List Word) (o : Nat) : Nat := fieldAt b o 1 5

/-- The width of the field at a word. -/
def fieldWidth (b : List Word) (o : Nat) : Nat := fieldAt b o 8 5

/-- Two fields share a cell. A field of width 0 has no cells and shares none (log 47). -/
def sharesCell (b : List Word) (o o' : Nat) : Bool :=
  fieldAt b o 0 1 == fieldAt b o' 0 1 && decide (0 < fieldWidth b o ∧ 0 < fieldWidth b o') &&
    decide (fieldColumn b o < fieldColumn b o' + fieldWidth b o' ∧ fieldColumn b o' < fieldColumn b o + fieldWidth b o)

/-- The width that a kind needs (R142). -/
def leastWidth (kind parameter : Nat) : Nat :=
  if kind = 0 then (if parameter = 0 then 1 else parameter + 2)
  else if kind = 1 then 4
  else if kind = 2 then 5
  else 1

/-- A field's width passes. -/
def widthPasses (b : List Word) (o : Nat) : Bool :=
  within 1 20 (fieldWidth b o) && decide (fieldColumn b o + fieldWidth b o ≤ 20) &&
    decide (leastWidth (fieldAt b (o + 1) 0 3) (numAt b (o + 2)) ≤ fieldWidth b o)

/-- A field's parameter passes (R141, R142). -/
def parameterPasses (b : List Word) (o : Nat) : Bool :=
  match fieldAt b (o + 1) 0 3 with
  | 0 => within 0 4 (numAt b (o + 2))
  | 3 => within 0 7 (numAt b (o + 2)) && decide (numAt b (o + 2) < numAt b 4)
  | 4 => decide (1 ≤ numAt b (o + 2))
  | _ => true

/-- The checks of a page's field. -/
def panelFieldChecks (b : List Word) (p f : Nat) : List Check :=
  let o := panelFieldBase p f
  [(fieldIndex o 1, within 0 19 (fieldColumn b o) &&
      (List.range f).all fun e => !sharesCell b (panelFieldBase p e) o),
    (fieldIndex o 8, widthPasses b o),
    (fieldIndex (o + 1) 0, decide (fieldAt b (o + 1) 0 3 ≤ 4)),
    (fieldIndex (o + 1) 4, decide (fieldAt b (o + 1) 4 3 ≤ 6)),
    (fieldIndex (o + 1) 12, within 1 4 (fieldAt b (o + 1) 12 3)),
    (fieldIndex (o + 2) 0, parameterPasses b o)]

/-- The field count of a page. -/
def fieldCount (b : List Word) (p : Nat) : Nat := fieldAt b (pageBase p + 20) 8 4

/-- The checks of a page. -/
def pageChecks (b : List Word) (p : Nat) : List Check :=
  let o := pageBase p + 20
  [(fieldIndex o 0, decide (fieldAt b o 0 3 ≤ 5)),
    (fieldIndex o 6, fieldAt b o 6 2 != 3),
    (fieldIndex o 8, decide (fieldCount b p ≤ 8))] ++
    (List.range (min 8 (fieldCount b p))).flatMap (panelFieldChecks b p)

/-- The checks of a name list: its count, and no name that begins with code 0 (log 39). -/
def nameListChecks (b : List Word) (j : Nat) : List Check :=
  let o := nameListBase j
  wordCheck o (within 1 16 (numAt b o)) ::
    (List.range (min 16 (numAt b o))).map fun n => wordCheck (o + 1 + 4 * n) (fieldAt b (o + 1 + 4 * n) 8 8 != 0)

/-- The checks of a message text's argument field, when present. -/
def argumentChecks (b : List Word) (o : Nat) : List Check :=
  if bit (wordAt b o) 15 then
    [(fieldIndex o 1, within 0 19 (fieldColumn b o)),
      (fieldIndex o 8, widthPasses b o),
      (fieldIndex (o + 1) 0, decide (fieldAt b (o + 1) 0 3 ≤ 4)),
      (fieldIndex (o + 2) 0, parameterPasses b o)]
  else []

/-- The checks of a message text. -/
def textChecks (b : List Word) (t : Nat) : List Check :=
  let o := textBase t
  wordCheck o (within 1 255 (numAt b o) && (List.range t).all fun e => numAt b (textBase e) != numAt b o) ::
    argumentChecks b (o + 21)

/-- The checks of a PANEL body. -/
def panelChecks (b : List Word) : List Check :=
  [wordCheck 0 (within 1 12 (numAt b 0)),
    wordCheck 1 (numAt b 1 == 255 || (within 0 11 (numAt b 1) && decide (numAt b 1 < numAt b 0))),
    wordCheck 2 (within 0 1 (numAt b 2)),
    wordCheck 3 (within 0x20 0x9F (numAt b 3)),
    wordCheck 4 (within 0 8 (numAt b 4)),
    wordCheck 5 (within 0 64 (numAt b 5))] ++
    (List.range (min 12 (numAt b 0))).flatMap (pageChecks b) ++
    (List.range (min 8 (numAt b 4))).flatMap (nameListChecks b) ++
    (List.range (min 64 (numAt b 5))).flatMap (textChecks b)

/-- The character codes of `n` words, two to a word, the earlier in bits 8 to 15. -/
def unpack (b : List Word) (o n : Nat) : List Nat :=
  (List.range n).flatMap fun i => [fieldAt b (o + i) 8 8, fieldAt b (o + i) 0 8]

/-- The field space with a code; 6 is DEFAULT. -/
def spaceOfCode : Nat → Option Space
  | 0 => some .slot
  | 1 => some .gauge
  | 2 => some .dist
  | 3 => some .driver1
  | 4 => some .driver2
  | 5 => some .clock
  | _ => none

/-- The kind of field with a code and a parameter. -/
def fieldKindOf (code parameter : Nat) : FieldKind :=
  match code with
  | 0 => .number parameter
  | 1 => .duration
  | 2 => .clock
  | 3 => .enum parameter
  | _ => .bar parameter

/-- A field's place and kind. -/
def readPlace (b : List Word) (o : Nat) : FieldPlace where
  line := fieldAt b o 0 1
  column := fieldColumn b o
  width := fieldWidth b o
  kind := fieldKindOf (fieldAt b (o + 1) 0 3) (numAt b (o + 2))

/-- A page's field. -/
def readField (b : List Word) (p f : Nat) : Field :=
  let o := panelFieldBase p f
  { place := readPlace b o
    space := spaceOfCode (fieldAt b (o + 1) 4 3)
    base := numAt b (o + 3)
    indexed := bit (wordAt b (o + 1)) 8
    scale := fieldAt b (o + 1) 12 3
    displacement := numAt b (o + 4) }

/-- The trip-reset choice with a code. -/
def tripResetOf : Nat → Option Trip
  | 1 => some .a
  | 2 => some .b
  | _ => none

/-- A page. -/
def readPage (b : List Word) (p : Nat) : Page :=
  let o := pageBase p
  { text := unpack b o 20
    defaultSpace := (spaceOfCode (fieldAt b (o + 20) 0 3)).getD .slot
    indexed := bit (wordAt b (o + 20)) 4
    tripReset := tripResetOf (fieldAt b (o + 20) 6 2)
    fields := (List.range (fieldCount b p)).map (readField b p) }

/-- A name: its codes up to the first code 0. -/
def readName (b : List Word) (o : Nat) : List Nat := (unpack b o 4).takeWhile fun c => c != 0

/-- A name list. -/
def readNameList (b : List Word) (j : Nat) : List (List Nat) :=
  (List.range (numAt b (nameListBase j))).map fun n => readName b (nameListBase j + 1 + 4 * n)

/-- A message text. -/
def readText (b : List Word) (t : Nat) : MessageText :=
  let o := textBase t
  { code := numAt b o
    text := unpack b (o + 1) 20
    argument := if bit (wordAt b (o + 21)) 15 then some (readPlace b (o + 21)) else none }

/-- A PANEL body as a table. -/
def readPanel (b : List Word) : PanelTable where
  pages := (List.range (numAt b 0)).map (readPage b)
  startPage := if numAt b 1 = 255 then none else some (numAt b 1)
  click := numAt b 2 == 1
  barChar := numAt b 3
  nameLists := (List.range (numAt b 4)).map (readNameList b)
  texts := (List.range (numAt b 5)).map (readText b)

/-! ## LOAD TABLE (R178) -/

/-- The tag of a kind (11_formats.md). -/
def TableKind.tag : TableKind → Word
  | .gauge => 0x4741
  | .lamp => 0x4C41
  | .slots => 0x534C
  | .panel => 0x5041
  | .glyph => 0x474C
  | .rules => 0x5255

/-- The body length that a kind requires (R186). -/
def lengthPasses (k : TableKind) (b : List Word) : Bool :=
  match k with
  | .slots => b.length == 64
  | .lamp => b.length == 240
  | .glyph => b.length == 224
  | .rules => b.length == 13
  | .panel => b.length == 2794
  | .gauge => decide (44 ≤ gaugeStride b) && b.length == 4 + 8 * gaugeStride b

/-- The checks of a body by its owning unit. -/
def State.contentChecks (s : State) (k : TableKind) (b : List Word) : List Check :=
  match k with
  | .slots => s.slotsChecks b
  | .lamp => s.lampTableChecks b
  | .glyph => glyphChecks b
  | .rules => rulesChecks b
  | .panel => panelChecks b
  | .gauge => s.gaugeChecks b

/-- The field index of the first content failure, the length of the body first (R186). -/
def State.contentFailure (s : State) (k : TableKind) (b : List Word) : Option Nat :=
  if lengthPasses k b then firstFailure (s.contentChecks k b) else some 0xFFFF

/-- A body as a table of its kind. -/
def readBody (k : TableKind) (b : List Word) : TableBody :=
  match k with
  | .gauge => .gauge (readGauge b)
  | .lamp => .lamp (readLamp b)
  | .slots => .slots (readSlots b)
  | .panel => .panel (readPanel b)
  | .glyph => .glyph (readGlyph b)
  | .rules => .rules (readRules b)

/-- The sum of words modulo 65536. -/
def sumWords (ws : List Word) : Word := ws.foldl (· + ·) 0

/-- The checks of an image up to its sum (R178), with the detail of the first that fails. -/
def State.imageFailure (s : State) (k : TableKind) (a len : Nat) : Option TableDetail :=
  if s.readXm a ≠ k.tag then some .tag
  else if s.readXm (a + 1) ≠ 1 then some .version
  else if len ≠ (s.readXm (a + 2)).toNat + 4 then some .length
  else if 0x1000 < a + len then some .length
  else if sumWords (s.readWords a len) ≠ 0 then some .sum
  else none

/-- The load report is rewritten (R170). -/
def State.reportLoad (s : State) (kind : Nat) (r : Result) (detail field : Nat) : State :=
  s.withTables { s.tables with report := ⟨kind, r.code, detail, field⟩ }

/-- A LOAD TABLE that a check ends. -/
def State.refuseLoad (s : State) (kind : Nat) (r : Result) (detail field : Nat) : State × OrderEnd :=
  (s.reportLoad kind r detail field, .ended r detail)

/-- An image that has passed its image checks is judged by its content, and becomes the incoming table (R179). -/
def State.takeImage (s : State) (k : TableKind) (a len : Nat) : State × OrderEnd :=
  let b := s.readWords (a + 3) (len - 4)
  match s.contentFailure k b with
  | some f => s.refuseLoad k.code .badTable TableDetail.content.code f
  | none =>
    (s.withTables { s.tables with incoming := some ⟨readBody k b, len - 4, s.readXm (a + len - 1)⟩ },
      .holds (.table k))

/-- LOAD TABLE (R178). -/
def loadTableBody (s : State) (args : List Word) : State × OrderEnd :=
  let kind := arg args 0
  let a := arg args 1
  let len := arg args 2
  match TableKind.ofCode kind with
  | none => s.refuseLoad kind .badArgument 0 0
  | some k =>
    if a < 0x500 ∨ 0xFFC < a then s.refuseLoad kind .badArgument 0 0
    else
      match s.imageFailure k a len with
      | some d => s.refuseLoad kind .badTable d.code 0
      | none => s.takeImage k a len

/-- LOAD_TABLE (R178). -/
def execLoadTable (s : State) : Host.Outcome State Fault Refusal := .next (s.runOrder .loadTable loadTableBody)

end Sys2Proof.Machine
end

