-- ==== Sys2Proof/Machine/Adoption.lean ====
section
/-! DEFINITION. The adoption of an incoming table by its owning unit (R15, R33, R37, R38, R74, R100, R140, R143,
R179). -/

namespace Sys2Proof.Machine

/-! ## Common to the six kinds (R179, R170) -/

/-- The directory with an entry replaced. -/
def Directory.withEntry (d : Directory) (k : TableKind) (e : DirEntry) : Directory :=
  match k with
  | .gauge => { d with gauge := e }
  | .lamp => { d with lamp := e }
  | .slots => { d with slots := e }
  | .panel => { d with panel := e }
  | .glyph => { d with glyph := e }
  | .rules => { d with rules := e }

/-- The table store with the incoming table in use (R179). -/
def Tables.install (t : Tables) (b : TableBody) : Tables :=
  match b with
  | .gauge x => { t with gauge := some x }
  | .lamp x => { t with lamp := some x }
  | .slots x => { t with slots := some x }
  | .panel x => { t with panel := some x }
  | .glyph x => { t with glyph := some x }
  | .rules x => { t with rules := some x }

/-- The incoming table replaces the one in use, and the directory entry of its kind follows. -/
def State.install (s : State) (k : TableKind) (i : Incoming) : State :=
  let t := s.tables.install i.body
  s.withTables { t with incoming := none, dir := t.dir.withEntry k ⟨true, i.length, i.sum⟩ }

/-- The held LOAD TABLE ends: the load report and the result word, in one step. -/
def State.endLoad (s : State) (k : TableKind) (r : Result) : State :=
  (s.withTables { s.tables with incoming := none, report := ⟨k.code, r.code, 0, 0⟩ }).finish r 0

/-- The incoming table that a held LOAD TABLE of a kind waits for. -/
def State.awaited (s : State) (k : TableKind) : Option Incoming :=
  if s.mode.mode ≠ .initial ∧ s.engine.hold = some (.table k) then s.tables.incoming else none

/-! ## SLOTS (R15) -/

/-- A slot record under a new entry. -/
def SlotRec.adopt (r : SlotRec) (e : SlotEntry) : SlotRec :=
  let timeout := 10 * e.timeout
  if e.type = r.type then { r with timeout := timeout, age := min r.age timeout }
  else { r with type := e.type, timeout := timeout, condition := .never, age := 0, accepted := 0 }

/-- The entry that a slot takes from a table: slot 0 stays the heartbeat slot (R2, R3). -/
def SlotsTable.entryOf (t : SlotsTable) (i : Fin 64) : SlotEntry :=
  if i = 0 then ⟨.heartbeat, t.heartbeatTimeout⟩ else t.entries[i]

/-- One slot at the adoption, with the channels that read it. -/
def State.adoptSlot (t : SlotsTable) (s : State) (i : Fin 64) : State :=
  s.changeSlot i ((s.slotRec i).adopt (t.entryOf i)) false

/-- The heartbeat record under a new timeout. -/
def State.adoptHeartbeat (s : State) : State :=
  let h := s.intake.heartbeat
  s.withIntake { s.intake with heartbeat := { h with age := min h.age s.heartbeatTimeout }, dataFault := false }

/-- SLOTS_TABLE_ADOPTION (R15). -/
def execSlotsTableAdoption (s : State) : Host.Outcome State Fault Refusal :=
  .next (match s.awaited .slots with
    | some ⟨.slots t, len, sum⟩ =>
      ((allSlots.foldl (State.adoptSlot t) (s.install .slots ⟨.slots t, len, sum⟩)).adoptHeartbeat).endLoad .slots .done
    | _ => s)

/-! ## GAUGE (R33, R37, R38) -/

/-- A GAUGE load is refused IN_USE (R37). -/
def State.gaugesInUse (s : State) (t : GaugeTable) : Bool :=
  allChannels.any fun c =>
    s.gauges[c].state == .homing || s.gauges[c].state == .sweeping ||
      (t[c].enabled && decide (t[c].travelMax < s.gauges[c].p))

/-- A channel becomes IDLE (R38). -/
def State.idleChannel (s : State) (c : Fin 8) : State :=
  s.enterWith c { s.gauges[c] with x := 0, t := 0, f := 0, g := 0, p := 0 } .idle

/-- A channel becomes enabled (R38): UNHOMED, and homing at once in the modes that call for it. -/
def State.enableChannel (s : State) (c : Fin 8) (e : GaugeEntry) : State :=
  let s' := s.enterState c .unhomed
  match s.mode.mode with
  | .starting | .running | .limp => s'.enterHoming c e .source
  | .parking => s'.enterHoming c e .park
  | .initial | .unconfigured | .dormant => s'

/-- A channel enabled in both tables follows a change of source or of hold time (R38). -/
def State.rejudgeChannel (s : State) (c : Fin 8) (old new : GaugeEntry) : State :=
  match s.gauges[c].state with
  | .tracking | .failed => if old.source = new.source then s else s.enterState c (s.calledFor new.source)
  | .holding =>
    if old.source = new.source then (if new.holdTime ≤ s.gauges[c].hold then s.enterState c .failed else s)
    else s.enterState c (s.calledFor new.source)
  | .idle | .unhomed | .homing | .sweeping | .parking | .parked => s

/-- A channel enabled in both tables (R33, R38). -/
def State.keepChannel (s : State) (c : Fin 8) (old new : GaugeEntry) : State :=
  (s.setChannel c { s.gauges[c] with f := min s.gauges[c].f (16 * new.travelMax) }).rejudgeChannel c old new

/-- One channel at the adoption, under the new table (R38). -/
def State.adoptChannel (old : Option GaugeTable) (t : GaugeTable) (s : State) (c : Fin 8) : State :=
  if t[c].enabled then
    match (old.map fun o => o[c]).filter GaugeEntry.enabled with
    | none => s.enableChannel c t[c]
    | some o => s.keepChannel c o t[c]
  else s.idleChannel c

/-- The watchers are re-armed in the modes that arm them (R38, R49). -/
def State.rearm (s : State) : State := if s.mode.mode.chimes then s.forChannels State.arm else s

/-- The gauge unit adopts a table: the alarms of the old one end first. -/
def State.adoptGauges (s : State) (t : GaugeTable) (i : Incoming) : State :=
  let s' := (s.forChannels State.disarm).install .gauge i
  ((s'.forChannels (State.adoptChannel s.tables.gauge t)).rearm.endLoad .gauge .done).judgeRunning.judgeDormant

/-- GAUGE_TABLE_ADOPTION (R37). -/
def execGaugeTableAdoption (s : State) : Host.Outcome State Fault Refusal :=
  .next (match s.awaited .gauge with
    | some ⟨.gauge t, len, sum⟩ =>
      if s.gaugesInUse t then s.endLoad .gauge .inUse else s.adoptGauges t ⟨.gauge t, len, sum⟩
    | _ => s)

/-! ## LAMP (R74) -/

/-- A lamp's record under a new table. -/
def LampRec.adopt (r : LampRec) (old new : Option LampEntry) : LampRec :=
  match old, new with
  | some o, some e => if o.link = e.link then r else { r with held := .off }
  | none, some _ =>
    { r with held := .off, fault := .none, openCount := 0, goodCount := 0, shortCount := 0, cleanCount := 0, wait := 0 }
  | _, none =>
    { r with fault := .none, openCount := 0, goodCount := 0, shortCount := 0, cleanCount := 0, wait := 0 }

/-- One lamp at the adoption, under the new table: LAMP FAULT follows its legality and fault state (log 21). -/
def State.adoptLamp (old : Option LampTable) (s : State) (n : Fin 40) : State :=
  let was := (old.map fun t => t.entries[n]).filter LampEntry.used
  let r := (s.lamp n).adopt was (s.lampEntry n)
  (s.setLamp n r).lampFaultMessage n (legalUnder old n && (s.lamp n).fault.reported) (s.legal n && r.fault.reported)

/-- LAMP_TABLE_ADOPTION (R74): the messages on rise of the old table end first. -/
def execLampTableAdoption (s : State) : Host.Outcome State Fault Refusal :=
  .next (match s.awaited .lamp with
    | some ⟨.lamp t, len, sum⟩ =>
      (allLamps.foldl (State.adoptLamp s.tables.lamp)
        ((allLamps.foldl State.dropRise s).install .lamp ⟨.lamp t, len, sum⟩)).endLoad .lamp .done
    | _ => s)

/-! ## PANEL, GLYPH and RULES (R143, R140, R100) -/

/-- The selected page, the page index and index mode under a new PANEL table (R143). -/
def Panel.adopt (p : Panel) (t : PanelTable) : Panel :=
  match t.page p.selected with
  | none => { p with selected := 0, index := 0, indexMode := false }
  | some page => { p with indexMode := p.indexMode && page.indexed }

/-- PANEL_TABLE_ADOPTION (R143). -/
def execPanelTableAdoption (s : State) : Host.Outcome State Fault Refusal :=
  .next (match s.awaited .panel with
    | some ⟨.panel t, len, sum⟩ =>
      ((s.install .panel ⟨.panel t, len, sum⟩).withPanel (s.panel.adopt t)).endLoad .panel .done
    | _ => s)

/-- GLYPH_TABLE_ADOPTION (R140). -/
def execGlyphTableAdoption (s : State) : Host.Outcome State Fault Refusal :=
  .next (match s.awaited .glyph with
    | some ⟨.glyph t, len, sum⟩ => (s.install .glyph ⟨.glyph t, len, sum⟩).endLoad .glyph .done
    | _ => s)

/-- RULES_TABLE_ADOPTION (R100): the adoption makes an evaluation. R100 puts it at once at the order's start; here it
falls when this event comes (log 52). -/
def execRulesTableAdoption (s : State) : Host.Outcome State Fault Refusal :=
  .next (match s.awaited .rules with
    | some ⟨.rules t, len, sum⟩ => ((s.install .rules ⟨.rules t, len, sum⟩).evaluateHours).endLoad .rules .done
    | _ => s)

end Sys2Proof.Machine
end

