-- ==== Sys2Proof/Machine/Reset.lean ====
section
/-! DEFINITION. The two kinds of reset with their end (R155), the scan of the odometer store and the reading of
the calibration record (R64, R65), and the end of INITIAL (R156). -/

namespace Sys2Proof.Machine

/-! ## What a reset cuts (R63, R66) -/

/-- Places of the sector being erased that the cut leaves neither valid nor blank (log 14). -/
def Store.spoilSector (t : Store) (spoiled : List Nat) : Store :=
  { t with places := Vector.ofFn fun p : Fin 128 =>
      if sectorOf p.val = sectorOf t.nextPlace ∧ p.val ∈ spoiled then .spoiled else t.places[p] }

/-- A cut operation: `spoiled` for an erase of a commit, `written` where the write of a calibration record had
completed (R63, R66, log 14). -/
def Store.cut (t : Store) (copy : Option CalRecord) (spoiled : List Nat) (written : Bool) : Store :=
  match t.op with
  | none => t
  | some (.commit true _ _ _) => t.spoilSector spoiled
  | some (.commit false _ _ _) => { t with places := t.places.setIfInBounds t.nextPlace .spoiled }
  | some (.calibration .erase _ _) | some (.calibration .restoreErase _ _) => { t with sector0 := none }
  | some (.calibration .write _ r) => { t with sector0 := if written then some r else none }
  | some (.calibration .restoreWrite _ _) => { t with sector0 := if written then copy else none }

/-- The store holds no request and no operation. -/
def Store.idle (t : Store) : Store := { t with op := none, pending := false, waiting := none }

/-! ## The reset values (R155) -/

/-- A driver record through a HARD reset (R119). -/
def Driver.hardReset (d : Driver) : Driver := { d with alerts := ⟨false, false, false⟩, live := none }

/-- The hours unit through a HARD reset (R119). -/
def Hours.hardReset (h : Hours) : Hours :=
  { h with driver1 := h.driver1.hardReset, driver2 := h.driver2.hardReset, undeclared := false }

/-- The speed unit's state outside the always-on domain takes its reset values (R53 to R57). -/
def Speed.hardReset (v : Speed) : Speed :=
  { v with
    timer := 0, lastStamp := none, standstill := true, periods := 0, periodSum := 0, v := 0, movingTimer := 0,
    moving := false, acc := 0 }

/-- The always-on part of the speed unit begins empty at a POWER-ON reset (R58, R59, R65). -/
def Speed.powerOn (v : Speed) : Speed :=
  { v with odometer := 0, tripA := 0, tripB := 0, pulses := 0, k := none, lock := false, count := 0 }

/-- Every state outside the always-on domain and the non-volatile store takes its reset value (R155). The pins,
the kind of the reset and whether it is held stay. -/
def State.volatileReset (s : State) : State :=
  { s with
    mode := { s.mode with mode := .initial, ignition := false, settle := 0, initialMs := 0 }
    link := Link.reset
    xm := []
    engine := Engine.reset
    tables := Tables.reset
    intake := Intake.reset
    gauges := Vector.replicate 8 Channel.reset
    speed := s.speed.hardReset
    store := s.store.idle
    lamps := Lamps.reset
    chime := Chime.reset
    hours := s.hours.hardReset
    stack := Stack.reset
    panel := Panel.reset s.panel.keyOk.input s.panel.keyUp.input s.panel.keyDown.input s.panel.keyBack.input }

/-- The always-on domain begins empty (R155). -/
def State.emptyAlwaysOn (s : State) : State := (s.withSpeed s.speed.powerOn).withHours Hours.reset

/-- The kind that is recorded: a reset in INITIAL keeps a POWER-ON that came before (R155). -/
def ModeControl.kindAfter (m : ModeControl) (kind : ResetKind) : ResetKind :=
  if m.mode = .initial ∧ m.kind = .powerOn then .powerOn else kind

/-- What holds the part once a reset of a kind begins: a POWER-ON reset that is still held stays the one that
holds it, since the battery feed is still absent (R155, log 41). -/
def ModeControl.heldAfter (m : ModeControl) (kind : ResetKind) : ResetKind :=
  if m.held = some .powerOn then .powerOn else kind

/-- A reset begins: the operation in flight is cut, and the part is held (R155). -/
def State.beginReset (s : State) (kind : ResetKind) (spoiled : List Nat) (written : Bool) : State :=
  let cut := s.withStore (s.store.cut s.speed.copyRecord spoiled written)
  let held := cut.withMode { s.mode with kind := s.mode.kindAfter kind, held := some (s.mode.heldAfter kind) }
  held.volatileReset

/-- POWER_ON_RESET (R155). -/
def execPowerOnReset (spoiled : List Nat) (written : Bool) (s : State) : Host.Outcome State Fault Refusal :=
  .next (s.beginReset .powerOn spoiled written).emptyAlwaysOn

/-- HARD_RESET (R155). -/
def execHardReset (spoiled : List Nat) (written : Bool) (s : State) : Host.Outcome State Fault Refusal :=
  .next (s.beginReset .hard spoiled written)

/-! ## The work of INITIAL (R64, R65) -/

/-- A valid place, if it is newer than what has been found. -/
def newerOf (found : Option (Nat × Nat × Nat)) (p : Nat × Place) : Option (Nat × Nat × Nat) :=
  match p.2, found with
  | .valid seq value, none => some (p.1, seq, value)
  | .valid seq value, some (q, best, v) => if best < seq then some (p.1, seq, value) else some (q, best, v)
  | .blank, _ => found
  | .spoiled, _ => found

/-- The newest record: its place, its sequence number and its value (R64). -/
def Store.newest (t : Store) : Option (Nat × Nat × Nat) :=
  ((List.range 128).zip t.places.toList).foldl newerOf none

/-- A place that the next commit can write: blank, or the first of its sector (R64). -/
def Store.writable (t : Store) (p : Nat) : Bool :=
  p % 32 == 0 || (match t.places[p]? with
    | some .blank => true
    | some (.valid _ _) | some .spoiled | none => false)

/-- The first writable place after a place, going round the ring (R64). -/
def Store.nextWritable (t : Store) (p : Nat) : Nat :=
  (((List.range 128).map fun i => (p + 1 + i) % 128).find? t.writable).getD 0

/-- The store's fields after the scan (R64). -/
def Store.scanned (t : Store) : Store :=
  match t.newest with
  | none => { t with failed := false, nextPlace := 0, nextSeq := 1, base := 0, failures := 0 }
  | some (p, seq, value) =>
    { t with
      failed := decide (max32 ≤ seq)
      nextPlace := t.nextWritable p
      nextSeq := min (seq + 1) max32
      base := value
      failures := 0 }

/-- The working value and ODOMETER LOST after the scan (R64, R136). -/
def Speed.scanned (v : Speed) (t : Store) (kind : ResetKind) : Speed :=
  match kind, t.newest with
  | .powerOn, none => { v with odometer := 0, odometerLost := true }
  | .powerOn, some (_, _, value) => { v with odometer := value, odometerLost := false }
  | .hard, _ => { v with odometerLost := false }

/-- The calibration record in sector 0 is valid (R65). -/
def Store.calibration (t : Store) : Option CalRecord :=
  t.sector0.filter fun r => decide (2000 ≤ r.k ∧ r.k ≤ 25000)

/-- The working copy after the reading of sector 0 (R65). -/
def Speed.calibrated (v : Speed) (r : Option CalRecord) : Speed :=
  match r with
  | some r => { v with k := some r.k, lock := r.lock, count := r.count }
  | none => { v with k := none, lock := false, count := 0 }

/-- The scan of the store and the reading of sector 0 (R64, R65). -/
def State.initialWork (s : State) : State :=
  (s.withSpeed ((s.speed.scanned s.store s.mode.kind).calibrated s.store.calibration)).withStore s.store.scanned

/-- RESET_CAUSE_END (R155): the part is no longer held, and the work of INITIAL is done (log 29). -/
def execResetCauseEnd (s : State) : Host.Outcome State Fault Refusal :=
  .next (if s.mode.mode = .initial ∧ s.mode.held.isSome then
      (s.volatileReset.initialWork).withMode { s.volatileReset.mode with held := none }
    else s)

/-! ## The end of INITIAL (R156) -/

/-- The speed unit posts the messages whose conditions hold (R55, R63, R64, R71). -/
def State.postConditions (s : State) : State :=
  let s1 := if s.speed.k.isNone then s.post msgCalibrationMissing .amber else s
  let s2 := if s1.speed.odometerLost then s1.post msgOdometerLost .amber else s1
  if s2.store.failed then s2.post msgStoreFault .amber else s2

/-- INITIAL is left (R156): the posts, the hours unit's first evaluation and the panel's first refresh (log 28). -/
def State.leaveInitial (s : State) : State :=
  let s1 := (s.setMode .unconfigured).withLamps { s.lamps with phase := 0 }
  let s2 := s1.withPanel { s1.panel with stamp := 0 }
  (s2.postConditions.evaluateHours).refreshPanel

/-- INITIAL_END (R156, R172): 20 ms after the cause of the reset has ended (log 3). The first report pass falls here,
with the link accesses that land inside it (log 28). -/
def execInitialEnd (s : State) (mid : List MidAccess := []) : Host.Outcome State Fault Refusal :=
  .next (if s.mode.mode = .initial ∧ s.mode.held = none ∧ s.mode.initialMs = 20 then s.leaveInitial.reportPass mid
    else s)

end Sys2Proof.Machine
end

