-- ==== Sys2Proof/Machine/Dispatch.lean ====
section
/-! DEFINITION. The dispatcher: the meaning of each command, one arm for each row of the table. -/

namespace Sys2Proof.Machine

/-- The effect of a command on everything but the queue. -/
def exec (i : Instr) (s : State) : Host.Outcome State Fault Refusal :=
  match i with
  | .powerOnReset spoiled written => Sys2Proof.Machine.execPowerOnReset spoiled written s
  | .hardReset spoiled written => Sys2Proof.Machine.execHardReset spoiled written s
  | .resetCauseEnd => Sys2Proof.Machine.execResetCauseEnd s
  | .initialEnd mid => Sys2Proof.Machine.execInitialEnd s mid
  | .wctlWrite w => Sys2Proof.Machine.execWctlWrite w s
  | .wadrWrite w => Sys2Proof.Machine.execWadrWrite w s
  | .wdatRead => Sys2Proof.Machine.execWdatRead s
  | .wdatWrite w => Sys2Proof.Machine.execWdatWrite w s
  | .causeWrite w => Sys2Proof.Machine.execCauseWrite w s
  | .handOver w => Sys2Proof.Machine.execHandOver w s
  | .withdraw w => Sys2Proof.Machine.execWithdraw w s
  | .registerWriteOther select data => Sys2Proof.Machine.execRegisterWriteOther select data s
  | .endOrder => Sys2Proof.Machine.execEndOrder s
  | .loadTable => Sys2Proof.Machine.execLoadTable s
  | .slotsTableAdoption => Sys2Proof.Machine.execSlotsTableAdoption s
  | .gaugeTableAdoption => Sys2Proof.Machine.execGaugeTableAdoption s
  | .lampTableAdoption => Sys2Proof.Machine.execLampTableAdoption s
  | .panelTableAdoption => Sys2Proof.Machine.execPanelTableAdoption s
  | .glyphTableAdoption => Sys2Proof.Machine.execGlyphTableAdoption s
  | .rulesTableAdoption => Sys2Proof.Machine.execRulesTableAdoption s
  | .start => Sys2Proof.Machine.execStart s
  | .setAttentionMask => Sys2Proof.Machine.execSetAttentionMask s
  | .copyOut => Sys2Proof.Machine.execCopyOut s
  | .copyOutSnapshot => Sys2Proof.Machine.execCopyOutSnapshot s
  | .setTime => Sys2Proof.Machine.execSetTime s
  | .cardIn => Sys2Proof.Machine.execCardIn s
  | .cardOut => Sys2Proof.Machine.execCardOut s
  | .activity => Sys2Proof.Machine.execActivity s
  | .setKFactor => Sys2Proof.Machine.execSetKFactor s
  | .setOdometer => Sys2Proof.Machine.execSetOdometer s
  | .lockCalibration => Sys2Proof.Machine.execLockCalibration s
  | .resetTrip => Sys2Proof.Machine.execResetTrip s
  | .postMessage => Sys2Proof.Machine.execPostMessage s
  | .clearMessage => Sys2Proof.Machine.execClearMessage s
  | .ackMessage => Sys2Proof.Machine.execAckMessage s
  | .selectPage => Sys2Proof.Machine.execSelectPage s
  | .takeKeys => Sys2Proof.Machine.execTakeKeys s
  | .testLamps => Sys2Proof.Machine.execTestLamps s
  | .sectorEraseDone => Sys2Proof.Machine.execSectorEraseDone s
  | .commitVerifyDone ok => Sys2Proof.Machine.execCommitVerifyDone ok s
  | .calibrationWriteDone ok => Sys2Proof.Machine.execCalibrationWriteDone ok s
  | .restoreDone ok => Sys2Proof.Machine.execRestoreDone ok s
  | .speedEdge us => Sys2Proof.Machine.execSpeedEdge us s
  | .speedWindow us => Sys2Proof.Machine.execSpeedWindow us s
  | .movingSet => Sys2Proof.Machine.execMovingSet s
  | .intakeScan mid => Sys2Proof.Machine.execIntakeScan mid s
  | .slotStale slot => Sys2Proof.Machine.execSlotStale slot s
  | .heartbeatLost => Sys2Proof.Machine.execHeartbeatLost s
  | .gaugeUpdate order => Sys2Proof.Machine.execGaugeUpdate order s
  | .homingEnd channel => Sys2Proof.Machine.execHomingEnd channel s
  | .holdTimeExpired channel => Sys2Proof.Machine.execHoldTimeExpired channel s
  | .lampEvaluation order opens => Sys2Proof.Machine.execLampEvaluation order opens s
  | .overcurrent lamp => Sys2Proof.Machine.execOvercurrent lamp s
  | .shortWaitEnd lamp => Sys2Proof.Machine.execShortWaitEnd lamp s
  | .bulbCheckOver => Sys2Proof.Machine.execBulbCheckOver s
  | .lampTestEnd => Sys2Proof.Machine.execLampTestEnd s
  | .flashEdge => Sys2Proof.Machine.execFlashEdge s
  | .singleEnd => Sys2Proof.Machine.execSingleEnd s
  | .clickEnd => Sys2Proof.Machine.execClickEnd s
  | .minuteDue => Sys2Proof.Machine.execMinuteDue s
  | .stackTick => Sys2Proof.Machine.execStackTick s
  | .shownTimeExpired code origin arg => Sys2Proof.Machine.execShownTimeExpired code origin arg s
  | .panelRefresh => Sys2Proof.Machine.execPanelRefresh s
  | .keyInput key pressed => Sys2Proof.Machine.execKeyInput key pressed s
  | .acceptedPress key => Sys2Proof.Machine.execAcceptedPress key s
  | .acceptedRelease key us => Sys2Proof.Machine.execAcceptedRelease key us s
  | .longKeyEvent key us => Sys2Proof.Machine.execLongKeyEvent key us s
  | .reportRefresh mid => Sys2Proof.Machine.execReportRefresh mid s
  | .ignInput on => Sys2Proof.Machine.execIgnInput on s
  | .ignitionOnEvent => Sys2Proof.Machine.execIgnitionOnEvent s
  | .ignitionOffEvent => Sys2Proof.Machine.execIgnitionOffEvent s
  | .continuousToneEdge => Sys2Proof.Machine.execContinuousToneEdge s

end Sys2Proof.Machine
end

