-- ==== Sys2Proof/Machine/Step.lean ====
section
/-! DEFINITION. One step of the part: the command at the front of the queue, or, on an empty queue, one
millisecond of the time base (log 2). -/

namespace Sys2Proof.Machine

/-- Microseconds that pass at a step on an empty queue (log 2). -/
def idleTime : Nat := 1000

/-- Takes the command at the front of the queue and runs it on the state with the queue's rest. -/
def step (s : State) : Host.Outcome State Fault Refusal :=
  match s.pending with
  | [] => .next (s.elapse idleTime)
  | c :: rest => exec c (s.withPending rest)

/-- The command that a word of the table spells, put at the front of the queue; no row spells a word. -/
def State.withFetchWord (s : State) (nbits w : Nat) : State :=
  match decodeTableWord nbits w with
  | none => s
  | some c => s.withPending (c :: s.pending)

end Sys2Proof.Machine
end

