-- ==== Sys2Proof/Machine/Coils.lean ====
section
/-! DEFINITION. The two outputs of a channel's coils (R31, R42): functions of the electrical angle that the state
holds (log 36). -/

namespace Sys2Proof.Machine

/-- The electrical angle of a step, of which a full turn has 48 (R31). -/
noncomputable def electricalAngle (step : Nat) : ℝ := 2 * Real.pi * step / 48

/-- Coil A's output, a signed fraction of full drive: the cosine of the electrical angle, nothing while the coils
are released (R31, R42). -/
noncomputable def Channel.coilA (ch : Channel) : ℝ := (ch.coil.map fun step => Real.cos (electricalAngle step)).getD 0

/-- Coil B's output: the sine of the electrical angle, nothing while the coils are released (R31, R42). -/
noncomputable def Channel.coilB (ch : Channel) : ℝ := (ch.coil.map fun step => Real.sin (electricalAngle step)).getD 0

/-- The outputs are those of a microstep position or a homing count: coil A at the cosine of the electrical angle,
coil B at its sine, each a signed fraction of full drive, with 48 microsteps to a full turn (R31, R42). -/
def Channel.coilsFollow (ch : Channel) (p : Nat) : Prop :=
  ch.coilA = Real.cos (2 * Real.pi * p / 48) ∧ ch.coilB = Real.sin (2 * Real.pi * p / 48)

end Sys2Proof.Machine
end

