-- ==== Sys2Proof/Content.lean ====
section
/-! DEFINITION. The content of table images, for the statements: for each kind the fields that fail, by their field
index (R186), as the rules R4, R36, R73, R99, R140 and R142 give them, and the table that a body reads as, as
11_formats.md lays it out. A body is a function from an offset to its word. -/

namespace Sys2Proof.Machine

/-- A body's word as a number. -/
abbrev number (b : Nat → Word) (i : Nat) : Nat := (b i).toNat

/-- The index of a field: 16 times its word's offset plus the number of its least significant bit (R186). -/
abbrev indexOf (offset bit : Nat) : Nat := 16 * offset + bit

/-- A lamp number or the code for absent (R184). -/
def lampOrNone (n : Nat) : Prop := n < 40 ∨ n = 255

/-- A lamp field reads as a lamp, or as none. -/
def lampRead (l : Option (Fin 40)) (n : Nat) : Prop := ∀ k : Fin 40, l = some k ↔ n = k.val

/-- A message field reads as a message, or as none where its code is 0. -/
def messageRead (m : Option (Nat × Severity)) (code severity : Nat) : Prop :=
  (code = 0 → m = none) ∧ (code ≠ 0 → ∃ v, m = some (code, v) ∧ v.code = severity)

/-- Two character codes to a word, the earlier in bits 8 to 15. -/
def textRead (b : Nat → Word) (o words : Nat) (t : List Nat) : Prop :=
  t.length = 2 * words ∧
    ∀ i, i < words → t[2 * i]? = some (bits (b (o + i)) 8 8) ∧ t[2 * i + 1]? = some (bits (b (o + i)) 0 8)

/-! ## SLOTS (R4) -/

/-- The heartbeat timeout, split over words 0 and 1. -/
def heartbeatField (b : Nat → Word) : Nat := 16 * bits (b 0) 12 4 + bits (b 1) 12 4

/-- The data-fault lamp, split over words 2 and 3. -/
def dataFaultField (b : Nat → Word) : Nat := 16 * bits (b 2) 12 4 + bits (b 3) 12 4

/-- A channel's breakpoint x values and its watchers' levels stand in order in a domain (R4). -/
def levelsOrdered (e : GaugeEntry) (signed : Bool) : Prop :=
  (∀ i x y, e.points[i]? = some x → e.points[i + 1]? = some y → inDomain signed x.x < inDomain signed y.x) ∧
  ∀ w : Watcher,
    if (e.watcher w).above then inDomain signed (e.watcher w).releaseLevel < inDomain signed (e.watcher w).setLevel
    else inDomain signed (e.watcher w).setLevel < inDomain signed (e.watcher w).releaseLevel

/-- The GAUGE and LAMP tables in use accept a slot's new type (R4). -/
def typeAccepted (s : State) (i : Fin 64) (type : SlotType) : Prop :=
  (∀ c e, s.enabledEntry c = some e → e.source = .slot i →
    (type = .signed ∨ type = .unsigned) ∧
    ((s.slotRec i).type = .signed ∧ type = .unsigned ∨ (s.slotRec i).type = .unsigned ∧ type = .signed →
      levelsOrdered e (type == .signed))) ∧
  ∀ n e l, s.lampEntry n = some e → e.link = some l → l.slot = i → type = .lampWord

/-- The fields of a SLOTS body that fail (R4). -/
def slotsFails (s : State) (b : Nat → Word) (f : Nat) : Prop :=
  (f = indexOf 0 12 ∧ ¬(10 ≤ heartbeatField b ∧ heartbeatField b ≤ 200)) ∨
  (f = indexOf 2 12 ∧ ¬lampOrNone (dataFaultField b)) ∨
  ∃ i : Fin 64, i ≠ 0 ∧
    (f = indexOf i 0 ∧ bits (b i) 9 3 ≠ 0 ∧ ¬(5 ≤ bits (b i) 0 9 ∧ bits (b i) 0 9 ≤ 500) ∨
      f = indexOf i 9 ∧ ¬∃ type : SlotType, type ≠ .heartbeat ∧ type.code = bits (b i) 9 3 ∧ typeAccepted s i type)

/-- A SLOTS body reads as a table. The entry of slot 0 is not read. -/
def slotsRead (b : Nat → Word) (t : SlotsTable) : Prop :=
  t.heartbeatTimeout = heartbeatField b ∧ lampRead t.dataFaultLamp (dataFaultField b) ∧
    ∀ i : Fin 64, i ≠ 0 → t.entries[i].type.code = bits (b i) 9 3 ∧ t.entries[i].timeout = bits (b i) 0 9

/-! ## GAUGE (R36) -/

/-- Word `i` of a channel's entry. -/
def gaugeWord (b : Nat → Word) (c : Fin 8) (i : Nat) : Nat := 4 + c.val * number b 0 + i

/-- The domain in which the x values and levels of an entry are read: signed for a SIGNED slot, unsigned for an
UNSIGNED slot and for SPEED, and a free value for a slot of another type (R34, R36, log 15). -/
def domainRead (s : State) (source : Nat) (signed : Bool) : Prop :=
  (source = 64 → signed = false) ∧
  ∀ i : Fin 64, source = i.val →
    match (s.slotRec i).type with
    | .signed => signed = true
    | .unsigned => signed = false
    | .unused | .lampWord | .heartbeat => signed = Config.untypedSourceSigned i

/-- The fields of a watcher, whose first word stands at an offset, that fail. -/
def watcherFails (signed : Bool) (b : Nat → Word) (o f : Nat) : Prop :=
  (f = indexOf o 0 ∧ 1 < number b o) ∨
  (f = indexOf (o + 2) 0 ∧
    ¬(if number b o = 1 then inDomain signed (b (o + 2)) < inDomain signed (b (o + 1))
      else inDomain signed (b (o + 1)) < inDomain signed (b (o + 2)))) ∨
  (f = indexOf (o + 3) 0 ∧ ¬lampOrNone (number b (o + 3))) ∨
  (f = indexOf (o + 4) 0 ∧ 239 < number b (o + 4)) ∨
  (f = indexOf (o + 5) 0 ∧ number b (o + 4) ≠ 0 ∧ 2 < number b (o + 5))

/-- The fields of a channel's entry that fail (R36). `o` is the entry's first word. -/
def gaugeEntryFails (s : State) (b : Nat → Word) (c : Fin 8) (o f : Nat) : Prop :=
  (f = indexOf o 0 ∧ ¬(1 ≤ number b o ∧ number b o ≤ 64 ∧
    (bit (b 1) c = true → ∀ i : Fin 64, number b o = i.val →
      (s.slotRec i).type = .signed ∨ (s.slotRec i).type = .unsigned))) ∨
  (f = indexOf (o + 1) 0 ∧ ¬(1 ≤ number b (o + 1) ∧ number b (o + 1) ≤ 4095)) ∨
  (f = indexOf (o + 2) 0 ∧ ¬(2 ≤ number b (o + 2) ∧ number b (o + 2) ≤ 12)) ∨
  (f = indexOf (o + 3) 0 ∧ ¬(1 ≤ number b (o + 3) ∧ number b (o + 3) ≤ 256)) ∨
  (f = indexOf (o + 4) 0 ∧ ¬(1 ≤ number b (o + 4) ∧ number b (o + 4) ≤ 255)) ∨
  (f = indexOf (o + 5) 0 ∧ 7 < number b (o + 5)) ∨
  (f = indexOf (o + 6) 0 ∧ 1000 < number b (o + 6)) ∨
  (f = indexOf (o + 7) 0 ∧ number b (o + 1) < number b (o + 7)) ∨
  (∃ i, i < number b (o + 2) ∧ i < 12 ∧ f = indexOf (o + 9 + 2 * i) 0 ∧ number b (o + 1) < number b (o + 9 + 2 * i)) ∨
  ∃ signed, domainRead s (number b o) signed ∧
    ((∃ i, 0 < i ∧ i < number b (o + 2) ∧ i < 12 ∧ f = indexOf (o + 8 + 2 * i) 0 ∧
        ¬inDomain signed (b (o + 6 + 2 * i)) < inDomain signed (b (o + 8 + 2 * i))) ∨
      watcherFails signed b (o + 32) f ∨ watcherFails signed b (o + 38) f)

/-- The fields of a GAUGE body that fail. -/
def gaugeFails (s : State) (b : Nat → Word) (f : Nat) : Prop := ∃ c : Fin 8, gaugeEntryFails s b c (gaugeWord b c 0) f

/-- A watcher's six words and its fail state read as a watcher's entry. -/
def watcherRead (b : Nat → Word) (o : Nat) (fail : Bool) (w : WatcherEntry) : Prop :=
  (w.above = true ↔ number b o = 1) ∧ w.setLevel = b (o + 1) ∧ w.releaseLevel = b (o + 2) ∧
    lampRead w.lamp (number b (o + 3)) ∧ messageRead w.message (number b (o + 4)) (number b (o + 5)) ∧
    w.alarmOnFail = fail

/-- A channel's entry, whose first word stands at offset `o`, reads as an entry of the table. -/
def gaugeEntryRead (b : Nat → Word) (c : Fin 8) (o : Nat) (e : GaugeEntry) : Prop :=
  e.enabled = bit (b 1) c ∧ e.sweep = bit (b 2) c ∧
    (e.source = .speed ↔ number b o = 64) ∧ (∀ i, e.source = .slot i → number b o = i.val) ∧
    e.travelMax = number b (o + 1) ∧ e.points.length = number b (o + 2) ∧
    (∀ i, i < number b (o + 2) → e.points[i]? = some ⟨b (o + 8 + 2 * i), number b (o + 9 + 2 * i)⟩) ∧
    e.k = number b (o + 3) ∧ e.slew = number b (o + 4) ∧ e.deadBand = number b (o + 5) ∧
    e.holdTime = 10 * number b (o + 6) ∧ e.failPosition = number b (o + 7) ∧
    watcherRead b (o + 32) (bit (b 3) (2 * c)) e.watcher0 ∧ watcherRead b (o + 38) (bit (b 3) (2 * c + 1)) e.watcher1

/-- A GAUGE body reads as a table. -/
def gaugeRead (b : Nat → Word) (t : GaugeTable) : Prop := ∀ c : Fin 8, gaugeEntryRead b c (gaugeWord b c 0) t[c]

/-! ## LAMP (R73) -/

/-- The used flag of a lamp. -/
abbrev usedField (b : Nat → Word) (n : Nat) : Bool := bit (b (6 * n)) 0

/-- The colour class of a lamp. -/
abbrev colourField (b : Nat → Word) (n : Nat) : Nat := bits (b (6 * n + 1)) 0 3

/-- The fields of a lamp's entry that fail (R73). A GREEN, BLUE or WHITE lamp with chime on rise CONTINUOUS fails its
chime field (log 46). -/
def lampEntryFails (s : State) (b : Nat → Word) (n o f : Nat) : Prop :=
  (f = indexOf o 1 ∧ bit (b o) 1 = true ∧
    ¬(usedField b n = true ∧ ¬(2 ≤ colourField b n ∧ colourField b n ≤ 4))) ∨
  (f = indexOf (o + 1) 0 ∧ 4 < colourField b n) ∨
  (f = indexOf (o + 2) 0 ∧
    (bit (b o) 1 = true ∧ bits (b (o + 2)) 0 6 = 0 ∨
      usedField b n = true ∧ ∃ i : Fin 64, i ≠ 0 ∧ bits (b (o + 2)) 0 6 = i.val ∧ (s.slotRec i).type ≠ .lampWord)) ∨
  (f = indexOf (o + 3) 0 ∧ bits (b (o + 2)) 0 6 ≠ 0 ∧ bit (b o) 1 = true ∧
    (bits (b (o + 3)) 0 2 = 0 ∨ bits (b (o + 3)) 0 2 = 3)) ∨
  (f = indexOf (o + 3) 4 ∧ bits (b (o + 2)) 0 6 ≠ 0 ∧
    (bits (b (o + 3)) 4 2 = 3 ∨ bit (b o) 1 = true ∧ bits (b (o + 3)) 4 2 = 0)) ∨
  (f = indexOf (o + 4) 0 ∧ (bits (b (o + 4)) 0 2 = 3 ∨
    bits (b (o + 4)) 0 2 = 2 ∧ 2 ≤ colourField b n ∧ colourField b n ≤ 4)) ∨
  (f = indexOf (o + 5) 0 ∧ 239 < bits (b (o + 5)) 0 8) ∨
  (f = indexOf (o + 5) 8 ∧ bits (b (o + 5)) 0 8 ≠ 0 ∧ bits (b (o + 5)) 8 2 = 3)

/-- The fields of a LAMP body that fail: the fault tell-tale, in L0's entry, and those of the entries. -/
def lampFails (s : State) (b : Nat → Word) (f : Nat) : Prop :=
  (f = indexOf 0 8 ∧ ¬∃ n, n < 40 ∧ bits (b 0) 8 6 = n ∧ usedField b n = true ∧
    ¬(2 ≤ colourField b n ∧ colourField b n ≤ 4)) ∨
  ∃ n, n < 40 ∧ lampEntryFails s b n (6 * n) f

/-- A lamp's entry, whose first word stands at offset `o`, reads as an entry of the table. The stale state and the
limp state are read only with a link source. -/
def lampEntryRead (b : Nat → Word) (o : Nat) (e : LampEntry) : Prop :=
  e.used = bit (b o) 0 ∧ e.legal = bit (b o) 1 ∧ e.check = bit (b o) 2 ∧ e.ignitionOff = bit (b o) 3 ∧
    (match e.colour with
     | .red => 0
     | .amber => 1
     | .green => 2
     | .blue => 3
     | .white => 4) = bits (b (o + 1)) 0 3 ∧
    (bits (b (o + 2)) 0 6 = 0 → e.link = none) ∧
    (∀ i : Fin 64, i ≠ 0 → bits (b (o + 2)) 0 6 = i.val →
      e.link = some ⟨i, bits (b (o + 2)) 8 3⟩ ∧
      (match e.stale with
       | .off => 0
       | .on => 1
       | .flashSlow => 2
       | .hold => 3) = bits (b (o + 3)) 0 2 ∧
      e.limp.code = bits (b (o + 3)) 4 2) ∧
    (match e.chime with
     | .none => 0
     | .single => 1
     | .continuous => 2) = bits (b (o + 4)) 0 2 ∧
    messageRead e.message (bits (b (o + 5)) 0 8) (bits (b (o + 5)) 8 2)

/-- A LAMP body reads as a table. -/
def lampTableRead (b : Nat → Word) (t : LampTable) : Prop :=
  t.faultTellTale.val = bits (b 0) 8 6 ∧ ∀ n : Fin 40, lampEntryRead b (6 * n.val) t.entries[n]

/-! ## GLYPH (R140) and RULES (R99) -/

/-- The rows of a GLYPH body that fail. -/
def glyphFails (b : Nat → Word) (f : Nat) : Prop := ∃ i, i < 224 ∧ f = indexOf i 0 ∧ 31 < number b i

/-- A GLYPH body reads as a table: its rows in order. -/
def glyphRead (b : Nat → Word) (t : GlyphTable) : Prop :=
  t.length = 224 ∧ ∀ i, i < 224 → t[i]? = some (number b i)

/-- The fields of a RULES body that fail. -/
def rulesFails (b : Nat → Word) (f : Nat) : Prop :=
  (f = indexOf 0 0 ∧ ¬(1 ≤ number b 0 ∧ number b 0 ≤ 600)) ∨
  (f = indexOf 1 0 ∧ ¬(1 ≤ number b 1 ∧ number b 1 ≤ 119)) ∨
  (f = indexOf 2 0 ∧ ¬(2 ≤ number b 2 ∧ number b 2 ≤ 120 ∧ number b 1 < number b 2)) ∨
  (f = indexOf 3 0 ∧ ¬(1 ≤ number b 3 ∧ number b 3 ≤ 120 ∧ number b 2 ≤ number b 3)) ∨
  (f = indexOf 4 0 ∧ ¬(1 ≤ number b 4 ∧ number b 4 ≤ 900)) ∨
  (f = indexOf 5 0 ∧ ¬(60 ≤ number b 5 ∧ number b 5 ≤ 1440 ∧ number b 3 < number b 5)) ∨
  (f = indexOf 6 0 ∧ 60 < number b 6) ∨
  (f = indexOf 7 0 ∧ 1 < number b 7) ∨
  (f = indexOf 8 0 ∧ ¬(100 ≤ number b 8 ∧ number b 8 ≤ 3000)) ∨
  (f = indexOf 9 0 ∧ ¬(1 ≤ number b 9 ∧ number b 9 ≤ 300)) ∨
  ∃ i, 10 ≤ i ∧ i < 13 ∧ f = indexOf i 0 ∧ ¬lampOrNone (number b i)

/-- A RULES body reads as a table. -/
def rulesRead (b : Nat → Word) (t : RulesTable) : Prop :=
  t.cdLimit = number b 0 ∧ t.splitFirst = number b 1 ∧ t.splitSecond = number b 2 ∧ t.breakFull = number b 3 ∧
    t.dailyLimit = number b 4 ∧ t.dailyRest = number b 5 ∧ t.prewarn = number b 6 ∧
    (t.gapAsRest = true ↔ number b 7 = 1) ∧ t.moveSpeed = number b 8 ∧ t.moveTime = number b 9 ∧
    lampRead t.prewarnLamp (number b 10) ∧ lampRead t.limitLamp (number b 11) ∧
    lampRead t.undeclaredLamp (number b 12)

/-! ## PANEL (R142) -/

/-- The offset of field `f` of page `p`. -/
def fieldWord (p f : Nat) : Nat := 6 + 61 * p + 21 + 5 * f

/-- The column and the width of the field at an offset. -/
def columnField (b : Nat → Word) (o : Nat) : Nat := bits (b o) 1 5

/-- The width of the field at an offset. -/
def widthField (b : Nat → Word) (o : Nat) : Nat := bits (b o) 8 5

/-- A cell that the field at an offset occupies, on its line. A field of width 0 occupies none (log 47). -/
def occupies (b : Nat → Word) (o line cell : Nat) : Prop :=
  line = bits (b o) 0 1 ∧ columnField b o ≤ cell ∧ cell < columnField b o + widthField b o

/-- The width of the field at an offset fails: its range, the end of the line, and what its kind needs. -/
def widthFails (b : Nat → Word) (o : Nat) : Prop :=
  widthField b o = 0 ∨ 20 < widthField b o ∨ 20 < columnField b o + widthField b o ∨
    (bits (b (o + 1)) 0 3 = 0 ∧ 0 < number b (o + 2) ∧ widthField b o < number b (o + 2) + 2) ∨
    (bits (b (o + 1)) 0 3 = 1 ∧ widthField b o < 4) ∨ (bits (b (o + 1)) 0 3 = 2 ∧ widthField b o < 5)

/-- The parameter of the field at an offset fails: its range by the kind, and for ENUM the name-list count. -/
def parameterFails (b : Nat → Word) (o : Nat) : Prop :=
  (bits (b (o + 1)) 0 3 = 0 ∧ 4 < number b (o + 2)) ∨
  (bits (b (o + 1)) 0 3 = 3 ∧ (7 < number b (o + 2) ∨ number b 4 ≤ number b (o + 2))) ∨
  (bits (b (o + 1)) 0 3 = 4 ∧ number b (o + 2) = 0)

/-- The parts that a page's field and an argument field have in common, at an offset, that fail. -/
def placeFails (b : Nat → Word) (o f : Nat) : Prop :=
  (f = indexOf o 1 ∧ 19 < columnField b o) ∨ (f = indexOf o 8 ∧ widthFails b o) ∨
    (f = indexOf (o + 1) 0 ∧ 4 < bits (b (o + 1)) 0 3) ∨ (f = indexOf (o + 2) 0 ∧ parameterFails b o)

/-- The parts of field `i` of page `p` that fail. -/
def fieldFails (b : Nat → Word) (p i f : Nat) : Prop :=
  placeFails b (fieldWord p i) f ∨
  (f = indexOf (fieldWord p i) 1 ∧ ∃ j line cell, j < i ∧ occupies b (fieldWord p j) line cell ∧
    occupies b (fieldWord p i) line cell) ∨
  (f = indexOf (fieldWord p i + 1) 4 ∧ 6 < bits (b (fieldWord p i + 1)) 4 3) ∨
  (f = indexOf (fieldWord p i + 1) 12 ∧
    ¬(1 ≤ bits (b (fieldWord p i + 1)) 12 3 ∧ bits (b (fieldWord p i + 1)) 12 3 ≤ 4))

/-- The word of page `p` with its default space, flags and field count. -/
def pageWord (p : Nat) : Nat := 6 + 61 * p + 20

/-- The parts of page `p` that fail. -/
def pageFails (b : Nat → Word) (p f : Nat) : Prop :=
  (f = indexOf (pageWord p) 0 ∧ 5 < bits (b (pageWord p)) 0 3) ∨
  (f = indexOf (pageWord p) 6 ∧ bits (b (pageWord p)) 6 2 = 3) ∨
  (f = indexOf (pageWord p) 8 ∧ 8 < bits (b (pageWord p)) 8 4) ∨
  ∃ i, i < bits (b (pageWord p)) 8 4 ∧ i < 8 ∧ fieldFails b p i f

/-- The parts of name list `j` that fail: its count, and a name that begins with code 0 (log 39). -/
def nameListFails (b : Nat → Word) (j f : Nat) : Prop :=
  (f = indexOf (738 + 65 * j) 0 ∧ ¬(1 ≤ number b (738 + 65 * j) ∧ number b (738 + 65 * j) ≤ 16)) ∨
  ∃ i, i < number b (738 + 65 * j) ∧ i < 16 ∧ f = indexOf (739 + 65 * j + 4 * i) 0 ∧
    bits (b (739 + 65 * j + 4 * i)) 8 8 = 0

/-- The parts of message text `t` that fail. -/
def messageTextFails (b : Nat → Word) (t f : Nat) : Prop :=
  (f = indexOf (1258 + 24 * t) 0 ∧ (¬(1 ≤ number b (1258 + 24 * t) ∧ number b (1258 + 24 * t) ≤ 255) ∨
    ∃ e, e < t ∧ number b (1258 + 24 * e) = number b (1258 + 24 * t))) ∨
  (bit (b (1258 + 24 * t + 21)) 15 = true ∧ placeFails b (1258 + 24 * t + 21) f)

/-- The fields of a PANEL body that fail (R142). -/
def panelFails (b : Nat → Word) (f : Nat) : Prop :=
  (f = indexOf 0 0 ∧ ¬(1 ≤ number b 0 ∧ number b 0 ≤ 12)) ∨
  (f = indexOf 1 0 ∧ ¬(number b 1 = 255 ∨ number b 1 ≤ 11 ∧ number b 1 < number b 0)) ∨
  (f = indexOf 2 0 ∧ 1 < number b 2) ∨
  (f = indexOf 3 0 ∧ ¬(0x20 ≤ number b 3 ∧ number b 3 ≤ 0x9F)) ∨
  (f = indexOf 4 0 ∧ 8 < number b 4) ∨
  (f = indexOf 5 0 ∧ 64 < number b 5) ∨
  (∃ p, p < number b 0 ∧ p < 12 ∧ pageFails b p f) ∨
  (∃ j, j < number b 4 ∧ j < 8 ∧ nameListFails b j f) ∨
  ∃ t, t < number b 5 ∧ t < 64 ∧ messageTextFails b t f

/-- A space code reads as a space; DEFAULT as none. -/
def spaceRead (code : Nat) (x : Option Space) : Prop :=
  (match x with
   | some .slot => 0
   | some .gauge => 1
   | some .dist => 2
   | some .driver1 => 3
   | some .driver2 => 4
   | some .clock => 5
   | none => 6) = code

/-- The place, width, kind and parameter of the field at an offset. -/
def placeRead (b : Nat → Word) (o : Nat) (x : FieldPlace) : Prop :=
  x.line = bits (b o) 0 1 ∧ x.column = columnField b o ∧ x.width = widthField b o ∧
    match x.kind with
    | .number d => bits (b (o + 1)) 0 3 = 0 ∧ d = number b (o + 2)
    | .duration => bits (b (o + 1)) 0 3 = 1
    | .clock => bits (b (o + 1)) 0 3 = 2
    | .enum l => bits (b (o + 1)) 0 3 = 3 ∧ l = number b (o + 2)
    | .bar n => bits (b (o + 1)) 0 3 = 4 ∧ n = number b (o + 2)

/-- The five words of a page's field read as a field. -/
def fieldRead (b : Nat → Word) (o : Nat) (x : Field) : Prop :=
  placeRead b o x.place ∧ spaceRead (bits (b (o + 1)) 4 3) x.space ∧ x.indexed = bit (b (o + 1)) 8 ∧
    x.scale = bits (b (o + 1)) 12 3 ∧ x.base = number b (o + 3) ∧ x.displacement = number b (o + 4)

/-- A page's words read as a page. -/
def pageRead (b : Nat → Word) (p : Nat) (g : Page) : Prop :=
  textRead b (6 + 61 * p) 20 g.text ∧ spaceRead (bits (b (pageWord p)) 0 3) (some g.defaultSpace) ∧
    g.indexed = bit (b (pageWord p)) 4 ∧
    (match g.tripReset with
     | none => 0
     | some .a => 1
     | some .b => 2) = bits (b (pageWord p)) 6 2 ∧
    g.fields.length = bits (b (pageWord p)) 8 4 ∧
    ∀ i x, g.fields[i]? = some x → fieldRead b (fieldWord p i) x

/-- A name's four words read as its codes up to the first code 0. -/
def nameRead (b : Nat → Word) (o : Nat) (name : List Nat) : Prop :=
  ∃ all, textRead b o 4 all ∧ name.length ≤ 8 ∧
    (∀ i, i < name.length → name[i]? = all[i]? ∧ all[i]? ≠ some 0) ∧
    (name.length < 8 → all[name.length]? = some 0)

/-- A text's words read as a message text. -/
def messageTextRead (b : Nat → Word) (o : Nat) (x : MessageText) : Prop :=
  x.code = number b o ∧ textRead b (o + 1) 20 x.text ∧
    (bit (b (o + 21)) 15 = false → x.argument = none) ∧
    (bit (b (o + 21)) 15 = true → ∃ a, x.argument = some a ∧ placeRead b (o + 21) a)

/-- A PANEL body reads as a table. -/
def panelRead (b : Nat → Word) (t : PanelTable) : Prop :=
  t.pages.length = number b 0 ∧ (∀ p g, t.pages[p]? = some g → pageRead b p g) ∧
    t.startPage = (if number b 1 = 255 then none else some (number b 1)) ∧
    (t.click = true ↔ number b 2 = 1) ∧ t.barChar = number b 3 ∧
    t.nameLists.length = number b 4 ∧
    (∀ j names, t.nameLists[j]? = some names → names.length = number b (738 + 65 * j) ∧
      ∀ i name, names[i]? = some name → nameRead b (739 + 65 * j + 4 * i) name) ∧
    t.texts.length = number b 5 ∧ ∀ i x, t.texts[i]? = some x → messageTextRead b (1258 + 24 * i) x

/-! ## All kinds -/

/-- The body length that a kind requires (R186). -/
def bodyLength (k : TableKind) (b : Nat → Word) (len : Nat) : Prop :=
  match k with
  | .slots => len = 64
  | .lamp => len = 240
  | .glyph => len = 224
  | .rules => len = 13
  | .panel => len = 2794
  | .gauge => 44 ≤ number b 0 ∧ len = 4 + 8 * number b 0

/-- The fields of a body that fail, by their index. -/
def contentFails (s : State) (k : TableKind) (b : Nat → Word) (f : Nat) : Prop :=
  match k with
  | .slots => slotsFails s b f
  | .gauge => gaugeFails s b f
  | .lamp => lampFails s b f
  | .glyph => glyphFails b f
  | .rules => rulesFails b f
  | .panel => panelFails b f

/-- A body reads as a table. -/
def bodyRead (b : Nat → Word) (t : TableBody) : Prop :=
  match t with
  | .slots t => slotsRead b t
  | .gauge t => gaugeRead b t
  | .lamp t => lampTableRead b t
  | .glyph t => glyphRead b t
  | .rules t => rulesRead b t
  | .panel t => panelRead b t

/-- The kind of a table. -/
def TableBody.kind : TableBody → TableKind
  | .gauge _ => .gauge
  | .lamp _ => .lamp
  | .slots _ => .slots
  | .panel _ => .panel
  | .glyph _ => .glyph
  | .rules _ => .rules

end Sys2Proof.Machine
end

