-- ==== Sys2Proof/Records.lean ====
section
/-! DEFINITION. What the part writes of its own state, for the statements: the words of the report block (R172) and of
the records of COPY OUT (R180), word by word as 11_formats.md lays them out. A block is a function from an offset to its
word. -/

namespace Sys2Proof.Machine

/-! ## Codes (11_formats.md): each name stands at the place of its code -/

/-- Device modes. -/
abbrev modeCodes : List DeviceMode := [.initial, .unconfigured, .starting, .running, .limp, .parking, .dormant]
/-- Strip states. -/
abbrev stripCodes : List StripState := [.free, .queued, .running]
/-- Channel states. -/
abbrev channelCodes : List ChannelState :=
  [.idle, .unhomed, .homing, .sweeping, .tracking, .holding, .failed, .parking, .parked]
/-- Demands. -/
abbrev demandCodes : List Demand := [.off, .on, .flashSlow, .flashFast]
/-- Lamp fault states. -/
abbrev faultCodes : List LampFault := [.none, .open, .shortWait, .latchedOff]
/-- Activities. -/
abbrev activityCodes : List Activity := [.drive, .work, .available, .rest, .unknown]
/-- Slot types. -/
abbrev typeCodes : List SlotType := [.unused, .signed, .unsigned, .lampWord, .heartbeat]
/-- Slot conditions. -/
abbrev conditionCodes : List Condition := [.never, .good, .error, .notAvailable, .stale]
/-- Origins. -/
abbrev originCodes : List Origin := [.link, .gauge, .lamp, .hours, .distance, .system]
/-- Severities. -/
abbrev severityCodes : List Severity := [.red, .amber, .info]
/-- States of a message entry. -/
abbrev entryCodes : List EntryState := [.new, .shown, .acked]

/-! ## Words -/

/-- The word that holds a number. -/
abbrev word (n : Nat) : Word := BitVec.ofNat 16 n

/-- A two-word quantity, the more significant word first (R184). -/
def longAt (w : Nat → Word) (a n : Nat) : Prop := w a = word (n / 65536) ∧ w (a + 1) = word n

/-- The word of a value that may be not available. -/
abbrev orNone (n : Option Nat) : Word :=
  match n with
  | none => 0xFFFF
  | some k => word k

/-- The code of an open activity, 7 for none. -/
def activityNumber (d : Driver) : Nat :=
  match d.activity with
  | none => 7
  | some o => activityCodes.idxOf o.kind

/-- The alert flags. -/
def alertNumber (a : Alerts) : Nat := a.prewarn.toNat + 2 * a.cdExceeded.toNat + 4 * a.ddExceeded.toNat

/-! ## The report block (R172) -/

/-- The six words of a driver slot (R116). -/
def driverReported (w : Nat → Word) (a : Nat) (d : Driver) : Prop :=
  w a = word d.activity.isSome.toNat ∧ w (a + 1) = word (activityNumber d) ∧
    w (a + 2) = orNone (d.live.map Live.rcd) ∧ w (a + 3) = orNone (d.live.map Live.rdd) ∧
    w (a + 4) = orNone (d.live.map Live.breakNeeded) ∧ w (a + 5) = word (alertNumber d.alerts)

/-- An entry is the view-top: NEW or SHOWN, and before every other such entry by severity and then by its later
arrival (R128). -/
def Stack.viewTop (k : Stack) (e : Entry) : Prop :=
  k.find e.id = some e ∧ e.state ≠ .acked ∧
    ∀ x ∈ k.entries, x ≠ e → x.state ≠ .acked →
      e.severity.rank < x.severity.rank ∨ (e.severity.rank = x.severity.rank ∧ x.arrival < e.arrival)

/-- The words of the stack (R135): origin 7 without a view-top, the rest of the two words then 0 (log 48). -/
def stackReported (w : Nat → Word) (k : Stack) : Prop :=
  w 47 = word k.entries.length ∧
    ((∀ e ∈ k.entries, e.state = .acked) → w 48 = 0x0700 ∧ w 49 = 0) ∧
    ∀ e, k.viewTop e → w 48 = word (e.id.code + 256 * originCodes.idxOf e.id.origin) ∧ w 49 = word e.id.arg

/-- Words 1 to 62 show a state of the part. -/
def reportShows (s : State) (w : Nat → Word) : Prop :=
  w 1 = word (modeCodes.idxOf s.mode.mode + 16 * s.mode.ignition.toNat + 32 * (if s.mode.kind = .hard then 1 else 0)) ∧
    w 2 = word (stripCodes.idxOf s.engine.strip1 + 16 * stripCodes.idxOf s.engine.strip2) ∧
    w 3 = word s.speed.v ∧ longAt w 4 s.speed.odometer ∧ longAt w 6 s.speed.tripA ∧ longAt w 8 s.speed.tripB ∧
    longAt w 10 s.hours.clock ∧ w 12 = word s.hours.clockSet.toNat ∧
    driverReported w 13 s.hours.driver1 ∧ driverReported w 19 s.hours.driver2 ∧
    (∀ c : Fin 8, w (25 + c.val) = word s.gauges[c].p) ∧
    (∀ c : Fin 8, bits (w (33 + c.val / 4)) (4 * (c.val % 4)) 4 = channelCodes.idxOf s.gauges[c].state) ∧
    (∀ l : Fin 40, bits (w (35 + l.val / 8)) (2 * (l.val % 8)) 2 =
      if s.lamps.recs[l].fault = .shortWait ∨ s.lamps.recs[l].fault = .latchedOff then 0
      else demandCodes.idxOf s.lamps.recs[l].shown) ∧
    (∀ l : Fin 40, bit (w (40 + l.val / 16)) (l.val % 16) = true ↔ s.lamps.recs[l].fault ≠ .none) ∧
    (∀ i, 8 ≤ i → i < 16 → bit (w 42) i = false) ∧
    (∀ i : Fin 64, bit (w (43 + i.val / 16)) (i.val % 16) = true ↔ s.intake.slots[i].condition ≠ .good) ∧
    stackReported w s.stack ∧ w 50 = word s.panel.queue.length ∧ ∀ a, 51 ≤ a → a ≤ 62 → w a = 0

/-! ## The records of COPY OUT (R180) -/

/-- DRIVER (R118). The words of an absent card number, activity start or withdrawal minute hold 0 (log 48). -/
def driverCopied (w : Nat → Word) (h : Hours) (d : Driver) : Prop :=
  w 0 = word d.activity.isSome.toNat ∧ longAt w 1 (d.card.getD 0) ∧
    w 3 = word (d.card.isSome.toNat + 2 * d.withdrawal.isSome.toNat) ∧ w 4 = word (activityNumber d) ∧
    (d.activity = none → longAt w 5 0) ∧ (∀ o, d.activity = some o → longAt w 5 o.start) ∧
    w 7 = word d.cd ∧ w 8 = word d.dd ∧ w 9 = word d.firstTaken.toNat ∧ longAt w 10 (d.withdrawal.getD 0) ∧
    w 12 = word (alertNumber d.alerts) ∧
    w 13 = orNone (d.live.map fun l => min l.cd 65534) ∧ w 14 = orNone (d.live.map fun l => min l.dd 65534) ∧
    w 15 = orNone (d.live.map Live.rcd) ∧ w 16 = orNone (d.live.map Live.rdd) ∧
    w 17 = orNone (d.live.map Live.breakNeeded) ∧
    longAt w 18 h.clock ∧ w 20 = word h.clockSet.toNat ∧ w 21 = word d.history.length ∧ w 22 = 0 ∧ w 23 = 0 ∧
    (∀ i e, i < 32 → d.history[i]? = some e →
      w (24 + 3 * i) = word (activityCodes.idxOf e.kind + 8 * e.duration) ∧ longAt w (25 + 3 * i) e.start) ∧
    ∀ i, d.history.length ≤ i → i < 32 → w (24 + 3 * i) = 7 ∧ longAt w (25 + 3 * i) 0

/-- The six words of a message entry. -/
def messageCopied (w : Nat → Word) (o : Nat) (e : Entry) : Prop :=
  w o = word (e.id.code + 256 * originCodes.idxOf e.id.origin + 4096 * severityCodes.idxOf e.severity) ∧
    w (o + 1) = word e.id.arg ∧ w (o + 2) = word (entryCodes.idxOf e.state + 16 * e.active.toNat) ∧
    longAt w (o + 3) e.arrival ∧ w (o + 5) = word (e.shownTime / 100)

/-- MESSAGES (R135): an entry's place is the number of entries that arrived before it (of equal arrival numbers, which
no run reaches, the one listed first). An empty place has origin 7, and 0 in everything else (log 48). -/
def messagesCopied (w : Nat → Word) (k : Stack) : Prop :=
  (∀ j e i, k.entries[j]? = some e →
    i = (k.entries.filter fun x => decide (x.arrival < e.arrival)).length +
      ((k.entries.take j).filter fun x => decide (x.arrival = e.arrival)).length →
    i < 16 → messageCopied w (6 * i) e) ∧
  ∀ i, k.entries.length ≤ i → i < 16 → w (6 * i) = 0x0700 ∧ ∀ j, 1 ≤ j → j < 6 → w (6 * i + j) = 0

/-- The eight words of a channel (R32). -/
def channelCopied (w : Nat → Word) (o : Nat) (ch : Channel) : Prop :=
  w o = word (channelCodes.idxOf ch.state + 256 * ch.alarm0.toNat + 512 * ch.alarm1.toNat) ∧
    w (o + 1) = BitVec.ofInt 16 ch.x ∧ w (o + 2) = word ch.t ∧ w (o + 3) = word ch.f ∧ w (o + 4) = word ch.g ∧
    w (o + 5) = word ch.p ∧ w (o + 6) = word (ch.hold / 10) ∧ w (o + 7) = word ch.homing

/-- The two words of a lamp (R94). Bits 4 and 5 of the first hold 0 where bit 6 says that there is no link contribution
(log 48); contribution and sources are those of the last evaluation (log 26). -/
def lampCopied (w : Nat → Word) (o : Nat) (r : LampRec) : Prop :=
  w o = word (demandCodes.idxOf r.shown + 4 * demandCodes.idxOf r.operating +
      16 * demandCodes.idxOf (r.contribution.getD .off) + 64 * r.contribution.isNone.toNat +
      256 * faultCodes.idxOf r.fault) ∧
    w (o + 1) = word (r.openCount + 16 * r.shortCount + 256 * r.sources.watchers.toNat +
      512 * r.sources.hours.toNat + 1024 * r.sources.dataFault.toNat + 2048 * r.sources.tellTale.toNat)

/-- The word of a slot (R16). -/
def slotCopied (w : Nat → Word) (o : Nat) (r : SlotRec) : Prop :=
  w o = word (typeCodes.idxOf r.type + 16 * conditionCodes.idxOf r.condition + 128 * (r.age / 10))

/-- The words of a record show a state of the part. -/
def recordShows (s : State) (k : CopyKind) (w : Nat → Word) : Prop :=
  match k with
  | .driver1 => driverCopied w s.hours s.hours.driver1
  | .driver2 => driverCopied w s.hours s.hours.driver2
  | .messages => messagesCopied w s.stack
  | .gauges => ∀ c : Fin 8, channelCopied w (8 * c.val) s.gauges[c]
  | .lamps => ∀ l : Fin 40, lampCopied w (2 * l.val) s.lamps.recs[l]
  | .slots => ∀ i : Fin 64, slotCopied w i.val s.intake.slots[i]

end Sys2Proof.Machine
end

