-- ==== Sys2Proof/Display.lean ====
section
/-! DEFINITION. What the panel's image shows, for the statements: the items of the field spaces (R145), item by item,
the rendering of fields (R144 to R147) and the two message images (R148), cell by cell. -/

namespace Sys2Proof.Machine

/-- The character codes of a text. -/
def codes (t : String) : List Nat := t.toList.map Char.toNat

/-- A number in decimal: its digits from the last one back, and no leading zero. -/
def decimalText (n : Nat) (t : List Nat) : Prop :=
  1 ≤ t.length ∧ n < 10 ^ t.length ∧ (1 < t.length → 10 ^ (t.length - 1) ≤ n) ∧
    ∀ i, i < t.length → t[t.length - 1 - i]? = some (48 + n / 10 ^ i % 10)

/-- A number as exactly `d` digits. -/
def digitsText (d n : Nat) (t : List Nat) : Prop :=
  t.length = d ∧ ∀ i, i < d → t[d - 1 - i]? = some (48 + n / 10 ^ i % 10)

/-- The text of NUMBER with `d` decimals (R146). -/
def numberText (d : Nat) (v : Int) (t : List Nat) : Prop :=
  ∃ whole fraction, decimalText (v.natAbs / 10 ^ d) whole ∧ digitsText d (v.natAbs % 10 ^ d) fraction ∧
    t = (if v < 0 then [0x2D] else []) ++ whole ++ (if d = 0 then [] else 0x2E :: fraction)

/-- The text of DURATION for `m` minutes (R146). -/
def durationText (m : Nat) (t : List Nat) : Prop :=
  ∃ hours minutes, decimalText (m / 60) hours ∧ digitsText 2 (m % 60) minutes ∧ t = hours ++ 0x3A :: minutes

/-- A text right-aligned in a field, or what the field shows where the text is longer. -/
def rightAligned (w : Nat) (t overflow cells : List Nat) : Prop :=
  (t.length ≤ w → cells = List.replicate (w - t.length) 0x20 ++ t) ∧ (w < t.length → cells = overflow)

/-- The cells that show an available value (R146, R147). -/
def valueShown (p : PanelTable) (w : Nat) (kind : FieldKind) (v : Int) (cells : List Nat) : Prop :=
  match kind with
  | .number d => ∃ t, numberText d v t ∧ rightAligned w t (List.replicate w 0x39) cells
  | .duration =>
    (v < 0 → cells = List.replicate w 0x2D) ∧
    (0 ≤ v → ∃ t, durationText v.toNat t ∧
      rightAligned w t (List.replicate (w - 3) 0x39 ++ [0x3A, 0x35, 0x39]) cells)
  | .clock =>
    ∃ (hours minutes : List Nat) (r : Nat), (r : Int) = v % 1440 ∧ digitsText 2 (r / 60) hours ∧ digitsText 2 (r % 60) minutes ∧
      cells = List.replicate (w - 5) 0x20 ++ hours ++ 0x3A :: minutes
  | .enum l =>
    ∀ names, names = p.nameLists.getD l [] →
      (v < 0 ∨ (names.length : Int) ≤ v → cells = List.replicate w 0x2D) ∧
      ∀ i name, v = ((i : Nat) : Int) → names[i]? = some name →
        ∀ j, j < w → cells[j]? = some (name.getD j 0x20)
  | .bar f =>
    ∀ j, j < w → cells[j]? = some (if j < (min (max v 0) f).toNat * w / f then p.barChar else 0x20)

/-- A field's place is one that the table's checks let through (R142). -/
def FieldPlace.fits (x : FieldPlace) : Prop :=
  x.line ≤ 1 ∧ 1 ≤ x.width ∧ x.column + x.width ≤ 20 ∧
  match x.kind with
  | .duration => 4 ≤ x.width
  | .clock => 5 ≤ x.width
  | .bar f => 1 ≤ f
  | .number _ | .enum _ => True

/-- A cell of the image lies in a field. -/
def FieldPlace.covers (x : FieldPlace) (cell : Nat) : Prop :=
  20 * x.line + x.column ≤ cell ∧ cell < 20 * x.line + x.column + x.width

/-- A field of the image shows a value, or dashes where there is none (R145). A value lies within 20 digits, as every
value of the part does. -/
def fieldShown (p : PanelTable) (x : FieldPlace) (v : Option Int) (image : List Nat) : Prop :=
  ∃ cells : List Nat, cells.length = x.width ∧
    (∀ j, j < x.width → image[20 * x.line + x.column + j]? = cells[j]?) ∧
    (v = none → cells = List.replicate x.width 0x2D) ∧
    ∀ n, v = some n → n.natAbs < 10 ^ 20 → valueShown p x.width x.kind n cells

/-- The size of a field space (R145). -/
def Space.size : Space → Nat
  | .slot => 64
  | .gauge => 16
  | .dist => 8
  | .driver1 | .driver2 => 112
  | .clock => 4

/-- A number as an item's value. -/
abbrev value (n : Nat) : Option Int := some (n : Int)

/-- A number that may be not available, as an item's value. -/
abbrev valueOf (n : Option Nat) : Option Int := n.map fun k => (k : Int)

/-- The items of the GAUGE space (R32). -/
def gaugeItemShown (s : State) (n : Nat) (v : Option Int) : Prop :=
  ∀ c : Fin 8,
    (n = 2 * c.val → v = if s.gauges[c].state = .tracking then some s.gauges[c].x else none) ∧
    (n = 2 * c.val + 1 → v = value s.gauges[c].p)

/-- The items of the DIST space (R71). -/
def distItemShown (s : State) (n : Nat) (v : Option Int) : Prop :=
  (n = 0 → v = if s.speed.k = none then none else value s.speed.v) ∧
  (n = 1 → v = value s.speed.odometer) ∧ (n = 2 → v = value s.speed.tripA) ∧ (n = 3 → v = value s.speed.tripB) ∧
  (n = 4 → v = valueOf s.speed.k) ∧ (n = 5 → v = value s.speed.lock.toNat) ∧
  (n = 6 → v = value s.speed.count) ∧ (n = 7 → v = value s.speed.pulses)

/-- The items of a DRIVER space (R117): the summary, and the history with its newest entry first. -/
def driverItemShown (d : Driver) (clock n : Nat) (v : Option Int) : Prop :=
  (n = 0 → v = value d.activity.isSome.toNat) ∧ (n = 1 → v = valueOf d.card) ∧
  (n = 2 → v = valueOf (d.activity.map fun o => activityCodes.idxOf o.kind)) ∧
  (n = 3 → v = valueOf (d.activity.map fun o => o.start)) ∧
  (n = 4 → v = valueOf (d.activity.map fun o => clock - o.start)) ∧
  (n = 5 → v = value d.cd) ∧ (n = 6 → v = value d.dd) ∧ (n = 7 → v = value d.firstTaken.toNat) ∧
  (n = 8 → v = valueOf (d.live.map Live.cd)) ∧ (n = 9 → v = valueOf (d.live.map Live.dd)) ∧
  (n = 10 → v = valueOf (d.live.map Live.rcd)) ∧ (n = 11 → v = valueOf (d.live.map Live.rdd)) ∧
  (n = 12 → v = valueOf (d.live.map Live.breakNeeded)) ∧ (n = 13 → v = value d.alerts.prewarn.toNat) ∧
  (n = 14 → v = value d.alerts.cdExceeded.toNat) ∧ (n = 15 → v = value d.alerts.ddExceeded.toNat) ∧
  ∀ j e, j < 32 → e = d.history.reverse[j]? →
    (n = 16 + 3 * j → v = valueOf (e.map fun h => activityCodes.idxOf h.kind)) ∧
    (n = 17 + 3 * j → v = valueOf (e.map fun h => h.start)) ∧
    (n = 18 + 3 * j → v = valueOf (e.map fun h => h.duration))

/-- The items of the CLOCK space (R117). -/
def clockItemShown (h : Hours) (n : Nat) (v : Option Int) : Prop :=
  (n = 0 → v = if h.clockSet = true then value h.clock else none) ∧ (n = 1 → v = value h.clockSet.toNat) ∧
  (n = 2 → v = if h.clockSet = true then value (h.clock / 1440) else none) ∧ (n = 3 → v = value h.undeclared.toNat)

/-- The items of the SLOT space: the accepted value of a GOOD slot (R12). -/
def slotItemShown (s : State) (n : Nat) (v : Option Int) : Prop :=
  ∀ i : Fin 64, n = i.val →
    v = (if (s.slotRec i).condition = .good then
      some (if (s.slotRec i).type = .signed then (s.slotRec i).accepted.toInt
        else ((s.slotRec i).accepted.toNat : Int)) else none)

/-- The item that a field names: nothing beyond the space's size, and within it what the owning unit gives (R145). -/
def itemShown (s : State) (g : Page) (f : Field) (v : Option Int) : Prop :=
  ∀ space n, space = f.space.getD g.defaultSpace →
    n = (f.base + (if f.indexed then s.panel.index else 0) * f.scale + f.displacement) % 65536 →
    v = s.spaceItem space n ∧ (space.size ≤ n → v = none) ∧
    match space with
    | .slot => slotItemShown s n v
    | .gauge => gaugeItemShown s n v
    | .dist => distItemShown s n v
    | .driver1 => driverItemShown s.hours.driver1 s.hours.clock n v
    | .driver2 => driverItemShown s.hours.driver2 s.hours.clock n v
    | .clock => clockItemShown s.hours n v

/-- A page rendered (R144), where its fields pass the table's checks: each field shows its item, and the cells of no
field show the fixed text. -/
def pageShown (s : State) (p : PanelTable) (g : Page) (image : List Nat) : Prop :=
  g.text.length = 40 → (∀ f ∈ g.fields, f.place.fits) →
  (∀ (i j : Nat) (f h : Field) (cell : Nat), i < j → g.fields[i]? = some f → g.fields[j]? = some h → f.place.covers cell →
    ¬h.place.covers cell) →
  image.length = 40 ∧
  (∀ f ∈ g.fields, ∃ v, itemShown s g f v ∧ fieldShown p f.place v image) ∧
  ∀ cell, cell < 40 → (∀ f ∈ g.fields, ¬f.place.covers cell) → image[cell]? = g.text[cell]?

/-- A message text of the PANEL table with the entry's argument (R148). -/
def textShown (p : PanelTable) (x : MessageText) (id : Identity) (image : List Nat) : Prop :=
  (x.argument = none → image = x.text) ∧
  ∀ a, x.argument = some a → x.text.length = 40 → a.fits →
    image.length = 40 ∧ fieldShown p a (some (id.arg : Int)) image ∧
    ∀ cell, cell < 40 → ¬a.covers cell → image[cell]? = x.text[cell]?

/-- The name of an origin in the built-in message text (R148). -/
def originText : Origin → String
  | .link => "LINK"
  | .gauge => "GAUGE"
  | .lamp => "LAMP"
  | .hours => "HOURS"
  | .distance => "DISTANCE"
  | .system => "SYSTEM"

/-- The built-in message text (R148), for a code of three digits and an argument of a word. -/
def builtinShown (id : Identity) (image : List Nat) : Prop :=
  id.code < 1000 → id.arg < 65536 →
  ∃ code arg, digitsText 3 id.code code ∧ decimalText id.arg arg ∧ image.length = 40 ∧
    image.take 20 = codes "MESSAGE " ++ code ++ List.replicate 9 0x20 ∧
    image.drop 20 = codes (originText id.origin) ++ 0x20 :: arg ++
      List.replicate (19 - (originText id.origin).length - arg.length) 0x20

end Sys2Proof.Machine
end

