-- ==== Sys2Proof/Safety.lean ====
section
/-! DEFINITION. What the statements are about: invariants of the part, frames, and the shapes in which an order
ends. -/

namespace Sys2Proof.Machine

/-! ## Invariants -/

/-- A strip is QUEUED only while the other is RUNNING, and never both are RUNNING (R173). -/
def Engine.legal (e : Engine) : Prop :=
  ¬(e.strip1 = .running ∧ e.strip2 = .running) ∧ (e.strip1 = .queued → e.strip2 = .running) ∧
    (e.strip2 = .queued → e.strip1 = .running)

/-- At most 16 entries, never two with one identity, at most 12 that are not RED, and no arrival number beyond
the arrival counter (R121, R122). -/
def Stack.withinCapacity (k : Stack) : Prop :=
  k.entries.length ≤ 16 ∧ k.nonRedCount ≤ 12 ∧ (k.entries.map Entry.id).Nodup ∧
    ∀ e ∈ k.entries, e.arrival ≤ k.counter

/-- At most one driver slot has DRIVE open (R105). -/
def Hours.oneDrives (h : Hours) : Prop := ¬(h.driver1.drives = true ∧ h.driver2.drives = true)

/-- The ignition state that goes with a mode (R154, R164). -/
def ModeControl.ignitionFits (m : ModeControl) : Prop :=
  match m.mode with
  | .starting | .running | .limp => m.ignition = true
  | .initial | .parking | .dormant => m.ignition = false
  | .unconfigured => True

/-! ## Frames -/

/-- `t` is `s` but for exchange memory, the link port and the order engine. -/
abbrev onlyExchange (s t : State) : Prop := ((t.withXm s.xm).withLink s.link).withEngine s.engine = s

/-- `t` is `s` but for the message stack, the chime and the link port. -/
abbrev onlyMessages (s t : State) : Prop := ((t.withStack s.stack).withChime s.chime).withLink s.link = s

/-- A cause is pending. -/
abbrev pends (t : State) (c : Cause) : Prop := bit t.link.causes c.place = true

/-- Every byte of memory reads as before: the words of exchange memory. -/
def sameMemory (s t : State) : Prop := ∀ a, t.readXm a = s.readXm a

/-! ## The passing of time (R53, R82, R91, R95, R137, R149, R155, R157) -/

/-- A debouncer after some milliseconds: the settle timer runs to 30 ms while the input differs from the debounced
level, the hold timer to 1000 ms while the key is PRESSED and no LONG has been given (R149). -/
def debouncerPassed (ms : Nat) (d d' : Debouncer) : Prop :=
  d'.input = d.input ∧ d'.level = d.level ∧ d'.longGiven = d.longGiven ∧
    (d.input = d.level → d'.settle = d.settle) ∧ (d.input ≠ d.level → d'.settle = min (d.settle + ms) 30) ∧
    (d.level = true → d.longGiven = false → d'.hold = min (d.hold + ms) 1000) ∧
    (d.level = false ∨ d.longGiven = true → d'.hold = d.hold)

/-- The chime after some milliseconds: a SINGLE and a CLICK wait at their length, and CONTINUOUS in the last
millisecond of its half second, for the event that ends it (log 3); the tone stays as it was (R91, R92). -/
def chimePassed (ms : Nat) (c c' : Chime) : Prop :=
  c' = { c with time := c'.time } ∧ c'.tone = c.tone ∧
    match c.playing with
    | .silent => c'.time = c.time
    | .single => c'.time = min (c.time + ms) 600
    | .click => c'.time = min (c.time + ms) 20
    | .continuous => c'.time = min (c.time + ms) (if c.time < 500 then 499 else 999)

/-- `t` is `s` some microseconds later on the part's time base, no event having come (log 2). Milliseconds are counted
as they fill. The capture timer, the minute count, the INITIAL count or the ignition settle timer, the flash phase, the
stamp count, the debouncers and the play time go on; a timer whose end is an event of its own waits for it (log 3).
The minute count stands still while a POWER-ON reset holds the part (log 41). Everything else stays. -/
def timePassed (us : Nat) (s t : State) : Prop :=
  ∀ ms, ms = (s.prescale + us) / 1000 →
    t = { s with
      prescale := (s.prescale + us) % 1000, mode := t.mode, speed := t.speed, hours := t.hours, chime := t.chime,
      lamps := t.lamps, panel := t.panel } ∧
    t.speed = { s.speed with timer := s.speed.timer + BitVec.ofNat 32 us } ∧
    t.hours = { s.hours with minuteCount := t.hours.minuteCount } ∧
    (s.mode.held = some .powerOn → t.hours.minuteCount = s.hours.minuteCount) ∧
    (s.mode.held ≠ some .powerOn → t.hours.minuteCount = min (s.hours.minuteCount + ms) 59999) ∧
    chimePassed ms s.chime t.chime ∧
    (s.mode.mode = .initial → t.lamps = s.lamps ∧ t.panel = s.panel ∧ t.mode = { s.mode with
      initialMs := if s.mode.held = none then min (s.mode.initialMs + ms) 20 else s.mode.initialMs }) ∧
    (s.mode.mode ≠ .initial →
      t.mode = { s.mode with settle :=
        if s.mode.ignInput = s.mode.ignition then s.mode.settle else min (s.mode.settle + ms) 100 } ∧
      t.lamps = { s.lamps with
        phase := min (s.lamps.phase + ms) (250 * (s.lamps.phase / 250) + 249) } ∧
      (∀ k, debouncerPassed ms (s.panel.debouncer k) (t.panel.debouncer k)) ∧
      t.panel = { s.panel with
        stamp := (s.panel.stamp + ms) % 65536, keyOk := t.panel.keyOk, keyUp := t.panel.keyUp,
        keyDown := t.panel.keyDown, keyBack := t.panel.keyBack })

/-! ## The report pass (R172) -/

/-- `t` is `s` after a refresh pass with link accesses inside it: the same new sequence number in words 0 and 63, and
between them the state as it stood when the pass began, whatever lands. A word that is read inside the pass, after `p`
words have been written, is the new one of those and the old one of the others. Without accesses nothing but the block
and the number changes. -/
def passWritten (mid : List MidAccess) (s t : State) : Prop :=
  onlyExchange s t ∧ t.link.refreshSeq = s.link.refreshSeq + 1 ∧ t.readXm 0 = s.link.refreshSeq + 1 ∧
    t.readXm 63 = s.link.refreshSeq + 1 ∧ reportShows s t.readXm ∧
    (mid = [] → t.link = { s.link with refreshSeq := s.link.refreshSeq + 1 } ∧ t.engine = s.engine ∧
      ∀ a, 64 ≤ a → t.readXm a = s.readXm a) ∧
    ∀ p, mid = [⟨p, .wdatRead⟩] → 1 ≤ p → p ≤ 64 → s.link.space = 0 → s.link.addr < 64 →
      t.link.data = (if s.link.addr < p then t.readXm s.link.addr else s.readXm s.link.addr)

/-! ## Resets (R63, R64, R66) -/

/-- What a reset leaves of the store operation that it cuts: a cut erase leaves the named places of its sector neither
valid nor blank, a cut write its place; a cut calibration write leaves sector 0 with the record whose writing had
completed, or with none (log 14). -/
def storeCut (s : State) (spoiled : List Nat) (written : Bool) (t : Store) : Prop :=
  match s.store.op with
  | none => t.places = s.store.places ∧ t.sector0 = s.store.sector0
  | some (.commit true _ _ _) =>
    t.sector0 = s.store.sector0 ∧
    ∀ p : Fin 128, t.places[p] =
      (if p.val / 32 = s.store.nextPlace / 32 ∧ p.val ∈ spoiled then .spoiled else s.store.places[p])
  | some (.commit false _ _ _) =>
    t.sector0 = s.store.sector0 ∧
    ∀ p : Fin 128, t.places[p] = (if p.val = s.store.nextPlace then .spoiled else s.store.places[p])
  | some (.calibration .erase _ _) | some (.calibration .restoreErase _ _) =>
    t.places = s.store.places ∧ t.sector0 = none
  | some (.calibration .write _ r) => t.places = s.store.places ∧ t.sector0 = (if written then some r else none)
  | some (.calibration .restoreWrite _ _) =>
    t.places = s.store.places ∧
    t.sector0 = (if written then s.speed.k.map fun k => ⟨k, s.speed.lock, s.speed.count⟩ else none)

/-- A place at which the scan can put the next commit: blank, or the first of its sector (R64). -/
def Store.takes (t : Store) (p : Nat) : Prop := p % 32 = 0 ∨ t.places[p]? = some .blank

/-- The next place behind a place, going round the ring: the first that is blank or begins a sector (R64). -/
def Store.nextAfter (t : Store) (p next : Nat) : Prop :=
  ∃ d, 1 ≤ d ∧ d ≤ 128 ∧ next = (p + d) % 128 ∧ t.takes next ∧ ∀ i, 1 ≤ i → i < d → ¬t.takes ((p + i) % 128)

/-! ## Orders -/

/-- Argument word `i` of the order at the execution position of a strip, as a number (R175, R185). -/
def State.argNum (s : State) (n : Strip) (i : Nat) : Nat :=
  (s.readXm (n.base + s.engine.position + 1 + i)).toNat

/-- The two-word argument that begins at argument word `i`. -/
def State.argLong (s : State) (n : Strip) (i : Nat) : Nat := s.argNum n i * 65536 + s.argNum n (i + 1)

/-- The address of the closing word of the order at the execution position. -/
def State.closing (s : State) (n : Strip) (o : Order) : Nat := n.base + s.engine.position + o.argCount + 1

/-- A RUNNING strip goes on at position `p`: END stands there, or an order whose closing word lies inside the strip
and holds the mark (R175). -/
def State.runsAt (s : State) (n : Strip) (p : Nat) : Prop :=
  p < 512 ∧ (s.stripWord n p = 0 ∨
    ∃ o, Order.ofCode (s.stripWord n p).toNat = some o ∧ p + o.argCount + 1 ≤ 511 ∧
      s.stripWord n (p + o.argCount + 1) = 0xFFFF)

/-- A RUNNING strip stops at position `p` with `k` orders executed, and is returned with this header: OVERRUN with
the count, UNKNOWN_FUNCTION or MALFORMED with the offset (R174, R175). -/
def State.stopsAt (s : State) (n : Strip) (p k : Nat) (header : Word) : Prop :=
  (512 ≤ p ∧ header = BitVec.ofNat 16 (0x4000 + k % 512)) ∨
  (p < 512 ∧ s.stripWord n p ≠ 0 ∧
    (Order.ofCode (s.stripWord n p).toNat = none ∧ header = BitVec.ofNat 16 (0x3000 + p) ∨
      ∃ o, Order.ofCode (s.stripWord n p).toNat = some o ∧
        (511 < p + o.argCount + 1 ∧ header = BitVec.ofNat 16 (0x4000 + k % 512) ∨
          p + o.argCount + 1 ≤ 511 ∧ s.stripWord n (p + o.argCount + 1) ≠ 0xFFFF ∧
            header = BitVec.ofNat 16 (0x2000 + p))))

/-- `t` is `m` with a strip returned (R174): its header and its returned cause. Where the other strip is FREE it
stays so and nothing else of the exchange changes; where it is QUEUED and goes on at word 1 it is RUNNING there. -/
def stripReturned (m t : State) (n : Strip) (header : Word) : Prop :=
  t.engine.strip n = .free ∧ t.engine.hold = none ∧ t.readXm n.base = header ∧
    (m.engine.strip n.other = .free →
      t.engine.strip n.other = .free ∧ (∀ a, a ≠ n.base → t.readXm a = m.readXm a) ∧
        t.link = { m.link with causes := m.link.causes ||| (if n = .one then 0x0002 else 0x0004) }) ∧
    (m.engine.strip n.other = .queued → m.runsAt n.other 1 →
      t.engine.strip n.other = .running ∧ t.engine.position = 1 ∧ t.engine.executed = 0 ∧
        (∀ a, a ≠ n.base → t.readXm a = m.readXm a) ∧
        t.link = { m.link with causes := m.link.causes ||| (if n = .one then 0x0002 else 0x0004) })

/-- What the end of an order leaves of the exchange (R175, R176): the result word in the closing word and nothing
held. Where the strip goes on behind the closing word, the position stands there with one more order executed; where
it stops there, it is returned. Beside the closing word only a header can change, and beside the two returned causes
nothing of the link port. -/
def orderEnded (m t : State) (n : Strip) (o : Order) (r : Word) : Prop :=
  t.readXm (m.closing n o) = r ∧
    (∀ a, a ≠ m.closing n o → a ≠ 0x100 → a ≠ 0x300 → t.readXm a = m.readXm a) ∧
    t.engine.hold = none ∧
    t.link = { m.link with causes := t.link.causes } ∧
    (∀ i, i ≠ 1 → i ≠ 2 → bit t.link.causes i = bit m.link.causes i) ∧
    (m.runsAt n (m.engine.position + o.argCount + 2) →
      t.engine =
        { m.engine with
          position := m.engine.position + o.argCount + 2, executed := m.engine.executed + 1, hold := none }) ∧
    ∀ header, m.stopsAt n (m.engine.position + o.argCount + 2) (m.engine.executed + 1) header →
      stripReturned (m.writeXm (m.closing n o) r) t n header

/-- The command answers a next state in which the order has ended with a result word, and which is otherwise
`m`: the state before with the order's own effect. -/
def endsOrder (c : Instr) (s m : State) (n : Strip) (o : Order) (r : Word) : Prop :=
  ∃ t, exec c s = .next t ∧ onlyExchange m t ∧ orderEnded m t n o r

/-- The command answers a next state in which the order holds its strip, and which is otherwise `m`. -/
def holdsOrder (c : Instr) (s m : State) (h : Hold) : Prop :=
  exec c s = .next (m.withEngine { m.engine with hold := some h })

/-- The order stands at the execution position of strip `n` and waits for its event (R175), and exchange memory
has its canonical form, which every step keeps. -/
abbrev due (s : State) (n : Strip) (o : Order) : Prop := s.dueOrder = some (n, o) ∧ s.xm.wf = true

/-- An order holds strip `n` and waits for the event that completes it (R176), exchange memory having its
canonical form. -/
abbrev awaits (s : State) (n : Strip) (h : Hold) (o : Order) : Prop :=
  s.mode.mode ≠ .initial ∧ s.engine.hold = some h ∧ s.engine.running = some n ∧ s.standing n = .order o ∧
    s.xm.wf = true

/-! ## Driver hours (R96, R97, R108, R109, R111, R113, R115) -/

/-- The two records differ at most in what an evaluation computes. -/
def sameRecord (d d' : Driver) : Prop := d' = { d with live := d'.live, alerts := d'.alerts }

/-- The counters and the break stage stay. -/
def sameCounters (d d' : Driver) : Prop := d'.cd = d.cd ∧ d'.dd = d.dd ∧ d'.firstTaken = d.firstTaken

/-- What a closed REST of a length does to the counters and the break stage (R109). -/
def restCounted (d d' : Driver) (rules : Option RulesTable) (len : Nat) : Prop :=
  match rules with
  | none => sameCounters d d'
  | some r =>
    if r.dailyRest ≤ len then d'.cd = 0 ∧ d'.dd = 0 ∧ d'.firstTaken = false
    else d'.dd = d.dd ∧
      (if r.breakFull ≤ len then d'.cd = 0 ∧ d'.firstTaken = false
      else if d.firstTaken = false then d'.cd = d.cd ∧ d'.firstTaken = decide (r.splitFirst ≤ len)
      else if r.splitSecond ≤ len then d'.cd = 0 ∧ d'.firstTaken = false
      else d'.cd = d.cd ∧ d'.firstTaken = true)

/-- `d'` is `d` after an activity from minute `start` closed at minute `t` (R102, R108). -/
def closedInto (d d' : Driver) (rules : Option RulesTable) (kind : Activity) (start t : Nat) : Prop :=
  (t ≤ start → d'.history = d.history ∧ sameCounters d d') ∧
  (start < t →
    d'.history = (if d.history.length < 32 then d.history else d.history.drop 1) ++
      [⟨kind, start, min (t - start) 8191⟩] ∧
    (match kind with
     | .drive => d'.cd = min (d.cd + (t - start)) 65535 ∧ d'.dd = min (d.dd + (t - start)) 65535 ∧
        d'.firstTaken = d.firstTaken
     | .rest => restCounted d d' rules (t - start)
     | .work | .available | .unknown => sameCounters d d'))

/-- The live values of an open activity at a clock value (R111). -/
def liveFits (r : RulesTable) (clock : Nat) (d : Driver) (o : OpenActivity) (l : Live) : Prop :=
  let driven := if o.kind = .drive then clock - o.start else 0
  let rest := if o.kind = .rest then clock - o.start else 0
  let base := if d.firstTaken = true then r.splitSecond else r.breakFull
  (r.dailyRest ≤ rest → l.cd = 0 ∧ l.dd = 0) ∧
  (rest < r.dailyRest → l.dd = d.dd + driven ∧ (base ≤ rest → l.cd = 0) ∧ (rest < base → l.cd = d.cd + driven)) ∧
  l.breakNeeded = base - rest ∧ l.rcd = r.cdLimit - l.cd ∧ l.rdd = r.dailyLimit - l.dd

/-- A driver record carries what an evaluation computes (R111 to R113). -/
def judgedRecord (rules : Option RulesTable) (clock : Nat) (d : Driver) : Prop :=
  match rules, d.activity with
  | some r, some o =>
    ∃ l, d.live = some l ∧ liveFits r clock d o l ∧
      (d.alerts.prewarn = true ↔ o.kind = .drive ∧ 0 < l.rcd ∧ l.rcd ≤ r.prewarn) ∧
      (d.alerts.cdExceeded = true ↔ o.kind = .drive ∧ l.rcd = 0) ∧
      (d.alerts.ddExceeded = true ↔ o.kind = .drive ∧ l.rdd = 0)
  | none, _ | some _, none => d.live = none ∧ d.alerts = ⟨false, false, false⟩

/-- The hours unit has been evaluated: both records, and undeclared driving (R110, R115). -/
def Hours.judged (h : Hours) (rules : Option RulesTable) (moving : Bool) : Prop :=
  judgedRecord rules h.clock h.driver1 ∧ judgedRecord rules h.clock h.driver2 ∧
    (h.undeclared = true ↔ moving = true ∧ ¬(h.driver1.drives = true) ∧ ¬(h.driver2.drives = true))

/-- The clock follows a reported minute forward (R97). -/
def clockFollows (s m : State) (t : Nat) : Prop :=
  m.hours.clockSet = s.hours.clockSet ∧ m.hours.clock = max s.hours.clock t ∧
    m.hours.minuteCount = (if s.hours.clock < t then 0 else s.hours.minuteCount)

/-! ## Messages (R121, R122, R125) -/

/-- A new arrival when the arrival counter stands at its end (R121): the entries are renumbered 1, 2, 3 and so on in
their arrival order, the counter takes the next number, and the arrival comes with it; an entry of its identity is
replaced. -/
def Stack.renumberedFor (k k' : Stack) (id : Identity) (sev : Severity) : Prop :=
  k'.counter = k.entries.length + 1 ∧
  k'.entries.map Entry.id = (k.entries.map Entry.id).filter (fun x => x != id) ++ [id] ∧
  (∀ b ∈ k.entries, b.id ≠ id →
    { b with arrival := 1 + (k.entries.filter fun x => decide (x.arrival < b.arrival)).length } ∈ k'.entries) ∧
  ∀ b ∈ k'.entries, b.id = id → b = ⟨id, sev, .new, true, k'.counter, 0⟩

/-- A message with a severity is kept: it waits for room with that severity, or it is held active with it. -/
def Stack.keeps (k : Stack) (id : Identity) (sev : Severity) : Prop :=
  (∀ v, (id, v) ∈ k.waiting → v = sev) ∧
    (k.waits id = true ∨ ∃ e, k.find id = some e ∧ e.active = true ∧ e.severity = sev)

/-- A message is neither held active nor waiting. -/
def Stack.dropped (k : Stack) (id : Identity) : Prop := k.holdsActive id = false ∧ k.waits id = false

/-- A unit's message has followed its owning condition: posted at its rise, cleared at its fall. Claimed for a stack
that meets its invariant. -/
def messageFollows (s m : State) (id : Identity) (sev : Severity) (old new : Bool) : Prop :=
  s.stack.withinCapacity →
    (old = false → new = true → m.stack.keeps id sev) ∧ (old = true → new = false → m.stack.dropped id)

/-- The seven alerts of the hours unit (R114, R115) have their messages, and at a rise of any the cause. -/
def alertsFollow (s m : State) : Prop :=
  (∀ d : DriverSlot, ∀ a b, a = (s.hours.driver d).alerts → b = (m.hours.driver d).alerts →
    messageFollows s m ⟨246, .hours, d.number⟩ .amber a.prewarn b.prewarn ∧
    messageFollows s m ⟨247, .hours, d.number⟩ .red a.cdExceeded b.cdExceeded ∧
    messageFollows s m ⟨248, .hours, d.number⟩ .amber a.ddExceeded b.ddExceeded ∧
    (a.prewarn = false ∧ b.prewarn = true ∨ a.cdExceeded = false ∧ b.cdExceeded = true ∨
      a.ddExceeded = false ∧ b.ddExceeded = true → pends m .hoursAlert)) ∧
  messageFollows s m ⟨249, .hours, 0⟩ .amber s.hours.undeclared m.hours.undeclared ∧
  (s.hours.undeclared = false → m.hours.undeclared = true → pends m .hoursAlert)

/-- `m` is `s` but for an evaluated hours unit, its messages and its cause. -/
def hoursSettled (s m : State) : Prop :=
  onlyMessages (s.withHours m.hours) m ∧ m.hours.judged s.tables.rules s.speed.moving ∧ alertsFollow s m

/-- The entry of a kind that has the lowest arrival number. -/
def oldestOf (k : Stack) (p : Entry → Prop) (v : Entry) : Prop :=
  v ∈ k.entries ∧ p v ∧ ∀ e ∈ k.entries, p e → e ≠ v → v.arrival < e.arrival

/-! ## Gauge channels (R40) -/

/-- A channel has followed its source from one condition to another. At most its state, its hold timer and its
watchers change (R40). -/
def followed (ch ch' : Channel) (e : GaugeEntry) (new : Condition) : Prop :=
  ch' = { ch with state := ch'.state, hold := ch'.hold, alarm0 := ch'.alarm0, alarm1 := ch'.alarm1 } ∧
  (match ch.state with
   | .tracking =>
     if new = .good then ch'.state = .tracking ∧ ch'.hold = ch.hold
     else if new = .stale ∧ 0 < e.holdTime then ch'.state = .holding ∧ ch'.hold = 0
     else ch'.state = .failed ∧ ch'.hold = ch.hold
   | .holding =>
     ch'.state = (if new = .good then .tracking else if new = .stale then .holding else .failed) ∧ ch'.hold = ch.hold
   | .failed => ch'.state = (if new = .good then .tracking else .failed) ∧ ch'.hold = ch.hold
   | .idle | .unhomed | .homing | .sweeping | .parking | .parked => ch'.state = ch.state ∧ ch'.hold = ch.hold)

/-! ## Watchers (R48 to R50) -/

/-- A watcher judges an input: the two directions, in CLEAR and in ALARM (R48). -/
def watcherJudges (w : WatcherEntry) (signed alarm : Bool) (x : Int) (alarm' : Bool) : Prop :=
  (w.above = false → alarm = false → (alarm' = true ↔ x ≤ inDomain signed w.setLevel)) ∧
  (w.above = false → alarm = true → (alarm' = false ↔ inDomain signed w.releaseLevel ≤ x)) ∧
  (w.above = true → alarm = false → (alarm' = true ↔ inDomain signed w.setLevel ≤ x)) ∧
  (w.above = true → alarm = true → (alarm' = false ↔ x ≤ inDomain signed w.releaseLevel))

/-- A watcher after what its source has met: a disarmed one stays; a reading that leaves the source GOOD is judged;
where the source has left GOOD, a watcher with fail state ALARM is in ALARM; otherwise it stays (R48, R49). -/
def watcherFollows (w : WatcherEntry) (signed armed : Bool) (reading : Option Int) (left : Prop)
    (alarm alarm' : Bool) : Prop :=
  (armed = false → alarm' = alarm) ∧
  (armed = true →
    (∀ x, reading = some x → watcherJudges w signed alarm x alarm') ∧
    (reading = none → left → alarm' = (alarm || w.alarmOnFail)) ∧
    (reading = none → ¬left → alarm' = alarm))

/-- The number of a watcher in the part (R35). -/
def watcherIndex (c : Fin 8) (w : Watcher) : Nat := 2 * c.val + (if w = .one then 1 else 0)

/-- Both watchers of a channel have followed its source, and their messages them (R50). The message codes of a
watcher lie below 240 (R35). -/
def watchersFollow (s t : State) (c : Fin 8) (e : GaugeEntry) (signed : Bool) (reading : Option Int)
    (left : Prop) : Prop :=
  ∀ w : Watcher,
    watcherFollows (e.watcher w) signed s.gauges[c].armed reading left (s.gauges[c].alarm w) (t.gauges[c].alarm w) ∧
    ∀ code sev, (e.watcher w).message = some (code, sev) → code < 240 →
      messageFollows s t ⟨code, .gauge, watcherIndex c w⟩ sev (s.gauges[c].alarm w) (t.gauges[c].alarm w)

/-- Both watchers of a channel have been armed from CLEAR: judged on a GOOD source's input, otherwise in ALARM where
their fail state says so; and the message of one in ALARM is kept (R49, R50). -/
def watchersArmed (s t : State) (c : Fin 8) (e : GaugeEntry) : Prop :=
  t.gauges[c].armed = true ∧
  ∀ w : Watcher,
    (s.sourceCondition e.source = .good →
      watcherJudges (e.watcher w) (s.sourceSigned e.source) false (s.sourceInput e.source) (t.gauges[c].alarm w)) ∧
    (s.sourceCondition e.source ≠ .good → t.gauges[c].alarm w = (e.watcher w).alarmOnFail) ∧
    ∀ code sev, (e.watcher w).message = some (code, sev) → code < 240 → t.gauges[c].alarm w = true →
      s.stack.withinCapacity → t.stack.keeps ⟨code, .gauge, watcherIndex c w⟩ sev

/-- The watchers of a channel have been disarmed: CLEAR, and the message of one that was in ALARM is dropped. -/
def watchersDisarmed (s t : State) (c : Fin 8) : Prop :=
  t.gauges[c].alarm0 = false ∧ t.gauges[c].alarm1 = false ∧ t.gauges[c].armed = false ∧
  ∀ (w : Watcher) (e : GaugeEntry) (code : Nat) (sev : Severity), s.gaugeEntry c = some e →
    (e.watcher w).message = some (code, sev) → code < 240 → s.gauges[c].alarm w = true → s.stack.withinCapacity →
    t.stack.dropped ⟨code, .gauge, watcherIndex c w⟩

/-! ## Channels and their slots (R40, R48, R49) -/

/-- The value that a scan accepts from a slot with quality VALID, if it does (R7, R8). -/
def State.validReading (s : State) (i : Fin 64) : Option Word :=
  let tag := s.readXm (0x41 + 2 * i.val)
  if (s.slotRec i).type ≠ .unused ∧ tag.truncate 8 ≠ (s.slotRec i).lastSeq ∧ bits tag 8 2 = 0 then
    some (s.readXm (0x40 + 2 * i.val))
  else none

/-- Every enabled channel with a slot as its source has followed the slot's condition, and its watchers the slot's
readings and condition; where the condition has stayed, at most its watchers have changed. The other channels are as
they were. -/
def channelsFollow (s t : State) (reading : Fin 64 → Option Word) : Prop :=
  ∀ c : Fin 8,
    (s.enabledEntry c = none → t.gauges[c] = s.gauges[c]) ∧
    ∀ e, s.enabledEntry c = some e →
      (e.source = .speed → t.gauges[c] = s.gauges[c]) ∧
      ∀ i : Fin 64, e.source = .slot i →
        ((s.slotRec i).condition ≠ (t.slotRec i).condition →
          followed s.gauges[c] t.gauges[c] e (t.slotRec i).condition) ∧
        ((s.slotRec i).condition = (t.slotRec i).condition →
          t.gauges[c] = { s.gauges[c] with alarm0 := t.gauges[c].alarm0, alarm1 := t.gauges[c].alarm1 }) ∧
        watchersFollow s t c e ((s.slotRec i).type == .signed)
          ((reading i).map (inDomain ((s.slotRec i).type == .signed)))
          ((s.slotRec i).condition = .good ∧ (t.slotRec i).condition ≠ .good)

/-- The channel after the stages from quantisation on (R28 to R31), with a target and a filtered target. -/
def moved (ch : Channel) (e : GaugeEntry) (target filtered band : Nat) : Channel :=
  { ch with
    t := target
    f := filtered
    g := quantise filtered e.travelMax
    p := slewStep ch.p (quantise filtered e.travelMax) band e.slew
    coil := some (slewStep ch.p (quantise filtered e.travelMax) band e.slew % 48) }

/-- The channel at its stop at the end of homing (R42). -/
def homed (ch : Channel) : Channel := { ch with homing := 0, t := 0, f := 0, g := 0, p := 0, coil := some 0 }

/-- The state that a source calls for (R40). -/
def called (s : State) (e : GaugeEntry) : ChannelState :=
  if s.sourceCondition e.source = .good then .tracking else .failed

/-- A channel's record after the end of homing (R42). -/
def afterHoming (s : State) (ch : Channel) (e : GaugeEntry) : Channel :=
  match ch.after with
  | .sweep => { homed ch with state := .sweeping, phase := .outward }
  | .park => { homed ch with state := .parked, coil := none }
  | .source => { homed ch with state := called s e }

/-! ## Lamps (R77 to R84) -/

/-- The link contribution and the held link demand after an evaluation of a used lamp (R77, R78). -/
def linkFormed (s : State) (e : LampEntry) (r r' : LampRec) : Prop :=
  match e.link with
  | none => r'.contribution = none ∧ r'.held = r.held
  | some l =>
    (if (s.slotRec l.slot).condition = .good then
      r'.held = Demand.ofCode (bits (s.slotRec l.slot).accepted (2 * l.position) 2)
    else r'.held = r.held) ∧
    r'.contribution = some
      (if s.mode.mode = .limp then e.limp
      else if (s.slotRec l.slot).condition = .good then r'.held
      else match e.stale with
        | .off => .off
        | .on => .on
        | .flashSlow => .flashSlow
        | .hold => r'.held)

/-- A lamp's fault state is one that R88 and R89 report. -/
abbrev LampRec.faulty (r : LampRec) : Prop := r.fault = .open ∨ r.fault = .latchedOff

/-- An internal source other than the fault tell-tale demands a lamp ON: a watcher in ALARM (R50), the hours unit
(R114, R115) or the data fault (R14). -/
def internalDemand (s : State) (n : Fin 40) : Prop :=
  (∃ (c : Fin 8) (w : Watcher) (e : GaugeEntry), s.gaugeEntry c = some e ∧ s.gauges[c].alarm w = true ∧
    (e.watcher w).lamp = some n) ∨
  (∃ r, s.tables.rules = some r ∧
    ((r.prewarnLamp = some n ∧ ∃ d, (s.hours.driver d).alerts.prewarn = true) ∨
      (r.limitLamp = some n ∧ ∃ d, (s.hours.driver d).alerts.cdExceeded = true ∨
        (s.hours.driver d).alerts.ddExceeded = true) ∨
      (r.undeclaredLamp = some n ∧ s.hours.undeclared = true))) ∨
  (s.intake.dataFault = true ∧ ∃ q, s.tables.slots = some q ∧ q.dataFaultLamp = some n)

/-- The lamp is the fault tell-tale of the LAMP table in use (R72). -/
def tellTale (s : State) (n : Fin 40) : Prop := ∃ l, s.tables.lamp = some l ∧ l.faultTellTale = n

/-- The operating demand after a round of evaluations (R78, R88). The fault tell-tale's own source is raised while
the store is FAILED or a legal lamp is faulty; a legal lamp whose fault begins or ends in the round may be met before
or after that by the tell-tale's evaluation (log 12). -/
def operatingFits (s t : State) (n : Fin 40) (r' : LampRec) : Prop :=
  let alone := r'.contribution.getD .off
  let raised := alone.max .on
  (internalDemand s n ∨ (tellTale s n ∧ (s.store.failed = true ∨
      ∃ m : Fin 40, s.legal m = true ∧ s.lamps.recs[m].faulty ∧ t.lamps.recs[m].faulty)) →
    r'.operating = raised) ∧
  (¬internalDemand s n → (tellTale s n → s.store.failed = false ∧
      ∀ m : Fin 40, s.legal m = true → ¬s.lamps.recs[m].faulty ∧ ¬t.lamps.recs[m].faulty) →
    r'.operating = alone) ∧
  (r'.operating = alone ∨ r'.operating = raised)

/-- A SINGLE that has been requested sounds, or waits for the end of the CONTINUOUS that sounds (R92). -/
def gongGiven (t : State) : Prop :=
  t.chime.playing = .single ∨ (t.chime.playing = .continuous ∧ t.chime.waiting = true)

/-- What a rise of a used lamp requests and posts in a mode that judges rises, and what its end clears (R90). The
message codes lie below 240 (R72). -/
def riseJudged (s t : State) (n : Fin 40) (e : LampEntry) (r r' : LampRec) : Prop :=
  (s.mode.mode.chimes = true → r.previous = .off → r'.operating ≠ .off →
    (e.chime = .single → gongGiven t) ∧
    (e.chime = .continuous → t.chime.playing = .continuous ∧ t.chime.continuous = true)) ∧
  (e.message = none → r'.riseActive = r.riseActive) ∧
  ∀ code sev, e.message = some (code, sev) →
    (r'.riseActive = true ↔ r'.operating ≠ .off ∧ (r.riseActive = true ∨ s.mode.mode.chimes = true)) ∧
    (code < 240 → messageFollows s t ⟨code, .lamp, n.val⟩ sev r.riseActive r'.riseActive)

/-- The escalation after a round, and what it and the faults that begin and end in the round make of LAMP FAULT
(R89). -/
def lampFaultsReported (s t : State) : Prop :=
  (∀ n, tellTale s n → (t.lamps.escalated = true ↔ s.lamps.recs[n].faulty)) ∧
  ((∀ n, ¬tellTale s n) → t.lamps.escalated = s.lamps.escalated) ∧
  ∀ (n : Fin 40) (sev : Severity), s.legal n = true → sev = (if t.lamps.escalated then .red else .amber) →
    (t.lamps.recs[n].fault = .open → s.lamps.recs[n].fault ≠ .open →
      (s.stack.withinCapacity → t.stack.keeps ⟨241, .lamp, n.val⟩ sev) ∧
      (s.lamps.escalated = true → t.lamps.escalated = true → s.mode.mode.chimes = true → gongGiven t)) ∧
    (s.lamps.recs[n].fault = .open → t.lamps.recs[n].fault = .none → s.stack.withinCapacity →
      t.stack.dropped ⟨241, .lamp, n.val⟩) ∧
    (s.lamps.recs[n].faulty → t.lamps.recs[n].faulty → s.lamps.escalated ≠ t.lamps.escalated →
      (s.stack.withinCapacity → t.stack.keeps ⟨241, .lamp, n.val⟩ sev) ∧
      (t.lamps.escalated = true → s.mode.mode.chimes = true → gongGiven t))

/-- The shown demand that an operating demand gives (R79 to R81). -/
def shownFits (s : State) (n : Fin 40) (r' : LampRec) : Prop :=
  match s.mode.mode with
  | .initial => True
  | .unconfigured => r'.shown = (if s.legal n = true then .on else .off)
  | .starting | .running | .limp =>
    if (∃ e, s.lampEntry n = some e ∧ e.check = true) ∧
        (if s.mode.mode = .starting then 0 < s.lamps.bulbTimer else 0 < s.lamps.testTimer) ∧
        r'.operating = .off then r'.shown = .on
    else r'.shown = r'.operating
  | .parking | .dormant =>
    (s.lampEntry n = none → r'.shown = .off) ∧
    ∀ e, s.lampEntry n = some e →
      (e.ignitionOff = false ∨ e.link = none → r'.shown = .off) ∧
      ∀ l, e.ignitionOff = true → e.link = some l →
        r'.shown = (if (s.slotRec l.slot).condition = .good then
          Demand.ofCode (bits (s.slotRec l.slot).accepted (2 * l.position) 2) else .off)

/-- A shown demand is lit at a flash phase (R82, R83). -/
def litAt (d : Demand) (phase : Nat) : Prop :=
  d = .on ∨ (d = .flashSlow ∧ phase < 500) ∨ (d = .flashFast ∧ phase / 250 % 2 = 0)

/-- The clean count rises with a sample and stops at 5, where the short count is 0 (R86). -/
def cleanCounted (r r' : LampRec) : Prop :=
  r'.cleanCount = min (r.cleanCount + 1) 5 ∧ r'.shortCount = (if r'.cleanCount = 5 then 0 else r.shortCount)

/-- The wait timer of an evaluation (R85), and the fault state that it leaves. -/
def waitCounted (r r' : LampRec) (f : LampFault) : Prop :=
  (r.fault ≠ .shortWait → r'.wait = r.wait ∧ f = r.fault) ∧
  (r.fault = .shortWait → r.wait + 20 < 1000 → r'.wait = r.wait + 20 ∧ f = .shortWait) ∧
  (r.fault = .shortWait → 1000 ≤ r.wait + 20 → r'.wait = 0 ∧ f = .none)

/-- The output and the open-load sample of an evaluation (R83, R84, R86), where `f` is the fault state after the wait
timer. -/
def sampledFits (isOpen : Prop) (phase : Nat) (f : LampFault) (r r' : LampRec) : Prop :=
  (r'.lit = true ↔ f ≠ .shortWait ∧ f ≠ .latchedOff ∧ litAt r'.shown phase) ∧
  (r'.lit = false → r'.fault = f ∧ r'.openCount = r.openCount ∧ r'.goodCount = r.goodCount ∧
    r'.shortCount = r.shortCount ∧ r'.cleanCount = r.cleanCount) ∧
  (r'.lit = true → cleanCounted r r') ∧
  (r'.lit = true → f = .none →
    (¬isOpen → r'.fault = .none ∧ r'.openCount = 0 ∧ r'.goodCount = r.goodCount) ∧
    (isOpen → r.openCount + 1 < 5 →
      r'.fault = .none ∧ r'.openCount = r.openCount + 1 ∧ r'.goodCount = r.goodCount) ∧
    (isOpen → 5 ≤ r.openCount + 1 → r'.fault = .open ∧ r'.openCount = 0 ∧ r'.goodCount = 0)) ∧
  (r'.lit = true → f = .open → r'.openCount = r.openCount ∧
    (isOpen → r'.fault = .open ∧ r'.goodCount = 0) ∧
    (¬isOpen → r.goodCount + 1 < 5 → r'.fault = .open ∧ r'.goodCount = r.goodCount + 1) ∧
    (¬isOpen → 5 ≤ r.goodCount + 1 → r'.fault = .none ∧ r'.goodCount = 0))

/-! ## Keys (R150, R151, R153) -/

/-- A key event's effect on selection, page index, index mode and trips in the PAGE view (R151). The built-in page,
where no PANEL table is in use, is not indexed and its OK LONG clears no trip (log 45). -/
def pageActed (u t : State) (k : Key) (long : Bool) : Prop :=
  let pages := ((u.tables.panel.map fun p => p.pages.length).getD 1)
  let stays := t.panel.selected = u.panel.selected ∧ t.panel.index = u.panel.index ∧
    t.panel.indexMode = u.panel.indexMode
  match k, long with
  | .up, false =>
    t.speed = u.speed ∧ t.panel.indexMode = u.panel.indexMode ∧
    (if u.panel.indexMode = true then
      t.panel.index = u.panel.index - 1 ∧ t.panel.selected = u.panel.selected
    else t.panel.index = 0 ∧
      t.panel.selected = (if u.panel.selected = 0 then pages - 1 else u.panel.selected - 1))
  | .down, false =>
    t.speed = u.speed ∧ t.panel.indexMode = u.panel.indexMode ∧
    (if u.panel.indexMode = true then
      t.panel.index = min (u.panel.index + 1) 31 ∧ t.panel.selected = u.panel.selected
    else t.panel.index = 0 ∧
      t.panel.selected = (if u.panel.selected + 1 < pages then u.panel.selected + 1 else 0))
  | .ok, false =>
    t.speed = u.speed ∧ t.panel.selected = u.panel.selected ∧ t.panel.index = u.panel.index ∧
    (t.panel.indexMode = true ↔ u.panel.indexMode = true ∨
      ∃ p g, u.tables.panel = some p ∧ p.pages[u.panel.selected]? = some g ∧ g.indexed = true)
  | .back, false =>
    t.speed = u.speed ∧ t.panel.indexMode = false ∧ t.panel.selected = u.panel.selected ∧
    t.panel.index = u.panel.index
  | .ok, true =>
    stays ∧
    ∀ trip, trip = (u.tables.panel.bind fun p => p.pages[u.panel.selected]?).bind Page.tripReset →
      t.speed = (match trip with
        | none => u.speed
        | some .a => { u.speed with tripA := 0 }
        | some .b => { u.speed with tripB := 0 })
  | .up, true | .down, true | .back, true => stays ∧ t.speed = u.speed

/-- The chime after a key event's CLICK request (R150): made where the PANEL table enables the click, and taken by a
chime that is SILENT or clicks, in the modes that take requests (R91, R92). -/
def clickTaken (u : State) (c : Chime) : Prop :=
  ((∃ p, u.tables.panel = some p ∧ p.click = true) → u.mode.mode.chimes = true →
    u.chime.playing = .silent ∨ u.chime.playing = .click → c = { u.chime with playing := .click, time := 0 }) ∧
  ((∀ p, u.tables.panel = some p → p.click = false) ∨ u.mode.mode.chimes = false ∨ u.chime.playing = .single ∨
    u.chime.playing = .continuous → c = u.chime)

/-- A key event acknowledges nothing: the stack stays, the chime has the click at most, and KEY_EVENT alone is set. -/
def acknowledgesNothing (u t : State) : Prop :=
  t.stack = u.stack ∧ clickTaken u t.chime ∧ t.link = { u.link with causes := u.link.causes ||| 0x0800 }

/-- A key acknowledgement of the view-top, in a stack that keeps no message waiting (R130, R93, R134). -/
def acknowledgesTop (u t : State) (e : Entry) : Prop :=
  (e.active = true → t.stack.find e.id = some { e with state := .acked }) ∧
  (e.active = false → t.stack.find e.id = none) ∧
  (∀ other, other ≠ e.id → t.stack.find other = u.stack.find other) ∧ pends t .messageChange ∧
  ∃ c, clickTaken u c ∧
    (c.playing = .continuous → t.chime = (if c.waiting then ⟨.single, 0, false, false⟩
      else ⟨.silent, 0, false, false⟩)) ∧
    (c.playing ≠ .continuous → t.chime = { c with continuous := false })

/-- What a key event of key `k` makes of state `u`, the key's debouncer being `d` after it (R149 to R153). -/
def keyed (u t : State) (k : Key) (long : Bool) (d : Debouncer) : Prop :=
  t.panel.debouncer k = d ∧ (∀ k', k' ≠ k → t.panel.debouncer k' = u.panel.debouncer k') ∧ pends t .keyEvent ∧
  t.panel.queue = (if u.panel.queue.length < 16 then u.panel.queue ++ [⟨k, long, u.panel.stamp⟩]
    else u.panel.queue) ∧
  t.panel = { u.panel with
    selected := t.panel.selected, index := t.panel.index, indexMode := t.panel.indexMode, queue := t.panel.queue,
    keyOk := t.panel.keyOk, keyUp := t.panel.keyUp, keyDown := t.panel.keyDown, keyBack := t.panel.keyBack } ∧
  onlyMessages ((u.withPanel t.panel).withSpeed t.speed) t ∧
  ((u.mode.mode ≠ .running ∧ u.mode.mode ≠ .limp) ∨ (u.panel.view ≠ .page ∧ u.panel.view ≠ .message) →
    t.panel.selected = u.panel.selected ∧ t.panel.index = u.panel.index ∧
    t.panel.indexMode = u.panel.indexMode ∧ t.speed = u.speed ∧ acknowledgesNothing u t) ∧
  (u.mode.mode = .running ∨ u.mode.mode = .limp → u.panel.view = .page →
    acknowledgesNothing u t ∧ pageActed u t k long) ∧
  (u.mode.mode = .running ∨ u.mode.mode = .limp → u.panel.view = .message →
    t.speed = u.speed ∧ t.panel.selected = u.panel.selected ∧ t.panel.index = u.panel.index ∧
    t.panel.indexMode = u.panel.indexMode ∧
    (k ≠ .ok ∨ long = true ∨ u.panel.displayed = none ∨ (∀ e ∈ u.stack.entries, e.state = .acked) →
      acknowledgesNothing u t) ∧
    ∀ e, k = .ok → long = false → u.stack.viewTop e →
      (u.panel.displayed ≠ some e.id ∨ e.state ≠ .shown → acknowledgesNothing u t) ∧
      (u.panel.displayed = some e.id → e.state = .shown → u.stack.waiting = [] → u.stack.withinCapacity →
        acknowledgesTop u t e))

/-! ## The end of a store operation (R61, R63, R66) -/

/-- `m` is `s` after an operation of the store with nothing waiting has ended without a message: the store, mode control
and the pending causes differ at most, and of the store sector 0 and what begins a pending commit. -/
def operationEnded (s m : State) : Prop :=
  m = ((s.withStore m.store).withMode m.mode).withLink { s.link with causes := m.link.causes } ∧
  (s.store.pending = false → m.store = { s.store with op := none, sector0 := m.store.sector0 }) ∧
  (s.store.pending = true →
    m.store = { s.store with
      op := m.store.op, pending := false, base := m.store.base, sector0 := m.store.sector0 } ∧
    (if s.store.nextPlace % 32 = 0 then m.store.op = some (.commit true none 0 0) ∧ m.store.base = s.store.base
    else m.store.op = some (.commit false none s.speed.odometer 0) ∧ m.store.base = s.speed.odometer))

/-- The speed unit after a verify of a commit: ODOMETER LOST ends with a success (R63, R65). -/
def speedVerified (v : Speed) (ok : Bool) : Speed := { v with odometerLost := v.odometerLost && !ok }

/-! ## What mode control judges (R160, R161, R163) -/

/-- STARTING has been left for RUNNING, with a restarted heartbeat, where nothing settles and the bulb check is over;
otherwise the mode and the intake stay (R11, R160). -/
def runningJudged (s t : State) : Prop :=
  if s.mode.mode = .starting ∧ t.settling = false ∧ t.lamps.bulbOver = true then
    t.mode = { s.mode with mode := .running } ∧ t.intake = { s.intake with heartbeat := ⟨false, 0, 0⟩ } ∧
      pends t .modeChange
  else t.mode = s.mode ∧ t.intake = s.intake

/-- PARKING has been left for DORMANT where every channel is parked and the store is not busy; otherwise the mode stays
(R163). -/
def dormantJudged (s t : State) : Prop :=
  if s.mode.mode = .parking ∧ t.parked = true ∧ t.store.busy = false then
    t.mode = { s.mode with mode := .dormant } ∧ pends t .modeChange
  else t.mode = s.mode

/-- The mode after an event of the gauge unit. -/
def modeJudged (s t : State) : Prop :=
  if s.mode.mode = .parking then dormantJudged s t ∧ t.intake = s.intake else runningJudged s t

/-- The mode after a change of the heartbeat (R161): LIMP at a loss in RUNNING, with LINK_LIMP and LINK FAULT, RUNNING at
a restoration in LIMP, where LINK FAULT ends; at no other event LINK_LIMP is set. -/
def limpJudged (s t : State) : Prop :=
  (s.mode.mode = .running → s.intake.heartbeat.lost = false → t.intake.heartbeat.lost = true →
    t.mode = { s.mode with mode := .limp } ∧ pends t .modeChange ∧ pends t .linkLimp ∧
      (s.stack.withinCapacity → t.stack.keeps msgLinkFault .red)) ∧
  (s.mode.mode = .limp → s.intake.heartbeat.lost = true → t.intake.heartbeat.lost = false →
    t.mode = { s.mode with mode := .running } ∧ pends t .modeChange ∧
      (s.stack.withinCapacity → t.stack.dropped msgLinkFault)) ∧
  (s.mode.mode ≠ .running ∨ s.intake.heartbeat.lost = true ∨ t.intake.heartbeat.lost = false →
    (s.mode.mode ≠ .limp ∨ s.intake.heartbeat.lost = false ∨ t.intake.heartbeat.lost = true → t.mode = s.mode) ∧
      bit t.link.causes Cause.linkLimp.place = bit s.link.causes Cause.linkLimp.place)

/-! ## The entry into STARTING (R159) -/

/-- A lamp at the entry into STARTING (R86, R90): LATCHED_OFF ends, with both counts 0, and rises are judged afresh. -/
def lampRestarted (r : LampRec) : LampRec :=
  if r.fault = .latchedOff then { r with fault := .none, shortCount := 0, cleanCount := 0, previous := .off }
  else { r with previous := .off }

/-- The state and the after-homing field of an enabled channel after a start command (R45). -/
def started (s m : State) (sweep : Bool) (c : Fin 8) (e : GaugeEntry) : Prop :=
  match s.gauges[c].state with
  | .unhomed =>
    m.gauges[c].state = .homing ∧ m.gauges[c].homing = e.travelMax + 60 ∧
      m.gauges[c].after = (if sweep = true ∧ e.sweep = true then .sweep else .source)
  | .parked =>
    if sweep = true ∧ e.sweep = true then m.gauges[c].state = .sweeping ∧ m.gauges[c].phase = .outward
    else m.gauges[c].state = s.calledFor e.source
  | .parking => sweep = false → m.gauges[c].state = s.calledFor e.source
  | .homing => sweep = false → m.gauges[c].state = .homing ∧ m.gauges[c].after = .source
  | .idle | .sweeping | .tracking | .holding | .failed => True

/-- `m` is `s` after the entry into STARTING with its commands. -/
def entersStarting (s m : State) (sweep : Bool) : Prop :=
  m.mode = { s.mode with mode := .starting } ∧ pends m .modeChange ∧
    m.lamps.bulbTimer = 3000 ∧ m.lamps.bulbOver = false ∧
    (∀ n : Fin 40, m.lamps.recs[n] = lampRestarted s.lamps.recs[n] ∧
      (s.lamps.recs[n].fault = .latchedOff → s.legal n = true → s.stack.withinCapacity →
        m.stack.dropped (msgLampFault n))) ∧
    bit m.link.causes Cause.lampFault.place = bit s.link.causes Cause.lampFault.place ∧
    (∀ (c : Fin 8) (e : GaugeEntry), s.enabledEntry c = some e →
      started s m sweep c e ∧ watchersArmed s m c e ∧ m.gauges[c].p = s.gauges[c].p) ∧
    (∀ c : Fin 8, s.enabledEntry c = none → m.gauges[c] = s.gauges[c]) ∧
    onlyMessages (((s.withMode m.mode).withGauges m.gauges).withLamps m.lamps) m

end Sys2Proof.Machine
end

