-- ==== Sys2Proof/Certificates/Slice0/Obligations.lean ====
section
/-! DEFINITION. The statements for the provers. -/

open Sys2Proof Sys2Proof.Machine

/-! ## Reset state, invariants, the queue -/

/-- The values that the spec gives a POWER-ON reset, of every unit. The odometer's values and the pins' levels,
which rest on log 7 and log 33, are not among them. -/
def Obligations.ResetStateHoldsResetValues : Prop :=
  State.reset.mode.mode = .initial ∧ State.reset.mode.ignition = false ∧ State.reset.mode.settle = 0 ∧
    State.reset.mode.kind = .powerOn ∧
    State.reset.link.causes = 0x0001 ∧ State.reset.link.mask = 0x3FFF ∧ State.reset.link.space = 0 ∧
    State.reset.link.step = 0 ∧ State.reset.link.addr = 0 ∧ State.reset.link.refreshSeq = 0 ∧
    (∀ a, State.reset.readXm a = 0) ∧
    State.reset.engine.strip1 = .free ∧ State.reset.engine.strip2 = .free ∧
    State.reset.tables.gauge = none ∧ State.reset.tables.lamp = none ∧ State.reset.tables.slots = none ∧
    State.reset.tables.panel = none ∧ State.reset.tables.glyph = none ∧ State.reset.tables.rules = none ∧
    (∀ k, State.reset.tables.dir.entry k = ⟨false, 0, 0⟩) ∧ State.reset.tables.report = ⟨0, 0, 0, 0⟩ ∧
    (∀ i : Fin 64, State.reset.intake.slots[i].condition = .never ∧ State.reset.intake.slots[i].lastSeq = 0 ∧
      State.reset.intake.slots[i].accepted = 0 ∧ State.reset.intake.slots[i].age = 0) ∧
    State.reset.intake.slots[0].timeout = 500 ∧ State.reset.intake.heartbeat = ⟨false, 0, 0⟩ ∧
    (∀ c : Fin 8, State.reset.gauges[c] =
      ⟨0, 0, 0, 0, 0, .unhomed, 0, .source, .outward, 0, false, false, false, none⟩) ∧
    State.reset.speed.lastStamp = none ∧ State.reset.speed.standstill = true ∧ State.reset.speed.v = 0 ∧
    State.reset.speed.moving = false ∧ State.reset.speed.movingTimer = 0 ∧ State.reset.speed.acc = 0 ∧
    State.reset.speed.tripA = 0 ∧ State.reset.speed.tripB = 0 ∧ State.reset.speed.pulses = 0 ∧
    (∀ n : Fin 40, State.reset.lamps.recs[n].fault = .none ∧ State.reset.lamps.recs[n].held = .off ∧
      State.reset.lamps.recs[n].operating = .off ∧ State.reset.lamps.recs[n].shown = .off) ∧
    State.reset.lamps.bulbTimer = 0 ∧ State.reset.lamps.testTimer = 0 ∧ State.reset.lamps.bulbOver = false ∧
    State.reset.chime = ⟨.silent, 0, false, false⟩ ∧
    State.reset.hours.clockSet = false ∧ State.reset.hours.clock = 0 ∧ State.reset.hours.minuteCount = 0 ∧
    State.reset.hours.driver1 = State.reset.hours.driver2 ∧ State.reset.hours.driver1.activity = none ∧
    State.reset.hours.driver1.card = none ∧ State.reset.hours.driver1.cd = 0 ∧
    State.reset.hours.driver1.dd = 0 ∧ State.reset.hours.driver1.history = [] ∧
    State.reset.hours.undeclared = false ∧
    State.reset.stack = ⟨[], 0, []⟩ ∧
    State.reset.panel.view = .blank ∧ State.reset.panel.image = List.replicate 40 0x20 ∧
    State.reset.panel.displayed = none ∧ State.reset.panel.selected = 0 ∧ State.reset.panel.index = 0 ∧
    State.reset.panel.queue = [] ∧ State.reset.panel.stamp = 0 ∧ State.reset.panel.backlight = false ∧
    State.reset.pending = []

/-- The five invariants hold at the reset state. -/
def Obligations.ResetStateMeetsInvariants : Prop :=
  State.reset.xm.wf = true ∧ State.reset.engine.legal ∧ State.reset.stack.withinCapacity ∧
    State.reset.hours.oneDrives ∧ State.reset.mode.ignitionFits

/-- Exchange memory keeps its canonical form (log 10). -/
def Obligations.StepKeepsExchangeMemoryCanonical : Prop :=
  ∀ s t : State, s.xm.wf = true → step s = .next t → t.xm.wf = true

/-- A strip is QUEUED only while the other is RUNNING, and never both are RUNNING. -/
def Obligations.StepKeepsStripStatesLegal : Prop :=
  ∀ s t : State, s.engine.legal → step s = .next t → t.engine.legal

/-- The stack holds at most 16 entries, never two with one identity, at most 12 that are not RED, and no arrival
number beyond the arrival counter. -/
def Obligations.StepKeepsStackWithinCapacity : Prop :=
  ∀ s t : State, s.stack.withinCapacity → step s = .next t → t.stack.withinCapacity

/-- At most one driver slot has DRIVE open. -/
def Obligations.StepKeepsOneDriverDriving : Prop :=
  ∀ s t : State, s.hours.oneDrives → step s = .next t → t.hours.oneDrives

/-- The ignition state is ON from STARTING to LIMP and OFF in INITIAL, PARKING and DORMANT. -/
def Obligations.StepKeepsIgnitionFittingMode : Prop :=
  ∀ s t : State, s.mode.ignitionFits → step s = .next t → t.mode.ignitionFits

/-- A step runs the command at the front of the queue on the state with the queue's rest. On an empty queue it lets
one millisecond of the part's time base pass, and the four commands that carry microseconds let them pass in the same
way before their event (the model's choice, log 2, with log 3 for the timers that wait for an event and log 41 for the
minute count). -/
def Obligations.StepRunsFrontCommand : Prop :=
  (∀ (c : Instr) (s : State) (rest : List Instr),
    step (s.withPending (c :: rest)) = exec c (s.withPending rest)) ∧
  (∀ s : State, s.pending = [] → ∃ t, step s = .next t ∧ timePassed 1000 s t) ∧
  ∀ (us : Nat) (s : State), timePassed us s (s.elapse us)

/-! ## Resets (R155, R156, R64, R65) -/

/-- POWER_ON_RESET: the part is held in INITIAL with the always-on domain empty and everything else at its reset
value; a store operation in flight is cut; the pins and the queue stay. -/
def Obligations.PowerOnResetEmptiesAlwaysOnDomain : Prop :=
  ∀ (spoiled : List Nat) (written : Bool) (s : State),
    ∃ t, exec (.powerOnReset spoiled written) s = .next t ∧
      t.mode.mode = .initial ∧ t.mode.held = some .powerOn ∧ t.mode.ignition = false ∧ t.mode.settle = 0 ∧
      t.mode.kind = .powerOn ∧ t.mode.ignInput = s.mode.ignInput ∧
      t.hours = State.reset.hours ∧ t.speed.tripA = 0 ∧ t.speed.tripB = 0 ∧ t.speed.pulses = 0 ∧
      t.speed.acc = 0 ∧ t.speed.v = 0 ∧ t.speed.lastStamp = none ∧ t.speed.standstill = true ∧
      (∀ a, t.readXm a = 0) ∧ t.link = State.reset.link ∧ t.engine = State.reset.engine ∧
      t.tables = State.reset.tables ∧ t.intake = State.reset.intake ∧ t.gauges = State.reset.gauges ∧
      t.lamps = State.reset.lamps ∧ t.chime = State.reset.chime ∧ t.stack = State.reset.stack ∧
      t.store.op = none ∧ t.store.pending = false ∧ t.store.waiting = none ∧
      storeCut s spoiled written t.store ∧ t.panel.queue = [] ∧ t.panel.view = .blank ∧
      (∀ k, (t.panel.debouncer k).input = (s.panel.debouncer k).input ∧ (t.panel.debouncer k).level = false) ∧
      t.pending = s.pending

/-- HARD_RESET: the always-on domain keeps its content but for the alert flags; everything else is as after a
POWER-ON reset, and a store operation in flight is cut. A HARD reset in the INITIAL of a POWER-ON reset leaves the
kind POWER-ON; a POWER-ON reset that is held stays the one that holds the part (log 41). -/
def Obligations.HardResetKeepsAlwaysOnDomain : Prop :=
  ∀ (spoiled : List Nat) (written : Bool) (s : State),
    ∃ t, exec (.hardReset spoiled written) s = .next t ∧
      t.mode.mode = .initial ∧ t.mode.ignition = false ∧
      t.mode.held = some (if s.mode.held = some .powerOn then .powerOn else .hard) ∧
      t.mode.kind = (if s.mode.mode = .initial ∧ s.mode.kind = .powerOn then .powerOn else .hard) ∧
      t.hours.clockSet = s.hours.clockSet ∧ t.hours.clock = s.hours.clock ∧
      t.hours.minuteCount = s.hours.minuteCount ∧ t.hours.undeclared = false ∧
      (∀ d, (t.hours.driver d).card = (s.hours.driver d).card ∧
        (t.hours.driver d).activity = (s.hours.driver d).activity ∧
        (t.hours.driver d).cd = (s.hours.driver d).cd ∧ (t.hours.driver d).dd = (s.hours.driver d).dd ∧
        (t.hours.driver d).firstTaken = (s.hours.driver d).firstTaken ∧
        (t.hours.driver d).withdrawal = (s.hours.driver d).withdrawal ∧
        (t.hours.driver d).history = (s.hours.driver d).history ∧
        (t.hours.driver d).alerts = ⟨false, false, false⟩) ∧
      t.speed.odometer = s.speed.odometer ∧ t.speed.tripA = s.speed.tripA ∧ t.speed.tripB = s.speed.tripB ∧
      t.speed.pulses = s.speed.pulses ∧ t.speed.acc = 0 ∧ t.speed.v = 0 ∧
      (∀ a, t.readXm a = 0) ∧ t.link = State.reset.link ∧ t.engine = State.reset.engine ∧
      t.tables = State.reset.tables ∧ t.intake = State.reset.intake ∧ t.gauges = State.reset.gauges ∧
      t.lamps = State.reset.lamps ∧ t.chime = State.reset.chime ∧ t.stack = State.reset.stack ∧
      t.store.op = none ∧ t.store.pending = false ∧ t.store.waiting = none ∧
      storeCut s spoiled written t.store ∧ t.pending = s.pending

/-- RESET_CAUSE_END of a held part: the store's fields follow the newest valid record, the next place the places
behind it, the working value follows it after a POWER-ON and is kept after a HARD reset, and the working calibration
copy is read from sector 0. A part that is not held stays as it is. -/
def Obligations.ResetCauseEndReadsStoreAndCalibration : Prop :=
  (∀ s : State, s.mode.mode ≠ .initial ∨ s.mode.held = none → exec .resetCauseEnd s = .next s) ∧
  ∀ s : State, s.mode.mode = .initial → s.mode.held.isSome →
    ∃ t, exec .resetCauseEnd s = .next t ∧
      t.mode.mode = .initial ∧ t.mode.held = none ∧ t.mode.initialMs = 0 ∧ t.mode.kind = s.mode.kind ∧
      t.store.places = s.store.places ∧ t.store.sector0 = s.store.sector0 ∧ t.store.failures = 0 ∧
      (∀ (p : Fin 128) (seq value : Nat), s.store.places[p] = .valid seq value →
        (∀ (q : Fin 128) (seq' value' : Nat), s.store.places[q] = .valid seq' value' → q ≠ p → seq' < seq) →
        t.store.base = value ∧ t.store.nextSeq = min (seq + 1) max32 ∧
          s.store.nextAfter p.val t.store.nextPlace ∧
          (t.store.failed = true ↔ max32 ≤ seq) ∧
          t.speed.odometer = (if s.mode.kind = .powerOn then value else s.speed.odometer) ∧
          t.speed.odometerLost = false) ∧
      ((∀ (p : Fin 128) (seq value : Nat), s.store.places[p] ≠ .valid seq value) →
        t.store.nextPlace = 0 ∧ t.store.nextSeq = 1 ∧ t.store.base = 0 ∧ t.store.failed = false ∧
          t.speed.odometer = (if s.mode.kind = .powerOn then 0 else s.speed.odometer) ∧
          t.speed.odometerLost = decide (s.mode.kind = .powerOn)) ∧
      (∀ r, s.store.sector0 = some r → 2000 ≤ r.k → r.k ≤ 25000 →
        t.speed.k = some r.k ∧ t.speed.lock = r.lock ∧ t.speed.count = r.count) ∧
      ((s.store.sector0 = none ∨ ∃ r, s.store.sector0 = some r ∧ (r.k < 2000 ∨ 25000 < r.k)) →
        t.speed.k = none ∧ t.speed.lock = false ∧ t.speed.count = 0) ∧
      t.speed.tripA = s.speed.tripA ∧ t.speed.tripB = s.speed.tripB ∧ t.hours.clock = s.hours.clock ∧
      t.link = State.reset.link ∧ (∀ a, t.readXm a = 0) ∧ t.pending = s.pending

/-- INITIAL_END, 20 ms after the cause of the reset has ended: the mode becomes UNCONFIGURED with MODE_CHANGE, the
flash phase and the stamp count start at 0, the messages whose conditions hold are posted, the hours unit is evaluated,
the panel shows TEXT, and then the first report pass is written, with the link accesses that land inside it (log 28).
`u` is the state that the pass gathers. Before that time nothing happens. -/
def Obligations.InitialEndBecomesUnconfigured : Prop :=
  (∀ (mid : List MidAccess) (s : State), s.mode.mode ≠ .initial ∨ s.mode.held.isSome ∨ s.mode.initialMs ≠ 20 →
    exec (.initialEnd mid) s = .next s) ∧
  ∀ (mid : List MidAccess) (s : State), s.mode.mode = .initial → s.mode.held = none → s.mode.initialMs = 20 →
    s.xm.wf = true →
    ∃ u t, exec (.initialEnd mid) s = .next t ∧ passWritten mid u t ∧
      u.mode = { s.mode with mode := .unconfigured } ∧ pends u .modeChange ∧
      u.lamps = { s.lamps with phase := 0 } ∧ u.panel.stamp = 0 ∧ u.panel.view = .text ∧
      u.panel.backlight = true ∧ u.panel.displayed = none ∧
      u.panel.image = codes "CLUSTER NOT         CONFIGURED          " ∧
      (s.stack.withinCapacity →
        (s.speed.k = none → u.stack.keeps ⟨244, .distance, 0⟩ .amber) ∧
        (s.speed.odometerLost = true → u.stack.keeps ⟨243, .distance, 0⟩ .amber) ∧
        (s.store.failed = true → u.stack.keeps ⟨242, .distance, 0⟩ .amber)) ∧
      u.hours.judged s.tables.rules s.speed.moving ∧ alertsFollow s u ∧ u.hours.clock = s.hours.clock ∧
      u.hours.clockSet = s.hours.clockSet ∧ (∀ d, sameRecord (s.hours.driver d) (u.hours.driver d)) ∧
      u.link = { s.link with causes := u.link.causes } ∧ u.xm = s.xm ∧ u.chime = s.chime ∧ u.engine = s.engine ∧
      u.tables = s.tables ∧ u.intake = s.intake ∧ u.gauges = s.gauges ∧ u.speed = s.speed ∧ u.store = s.store ∧
      u.pending = s.pending

/-! ## Link registers (R166 to R169, R182, R183) -/

/-- WCTL_WRITE and WADR_WRITE: the fields of the written word take effect, or WCTL is refused whole with
BAD_WRITE. CAUSE_WRITE: exactly the causes whose places hold a one are cleared. Everything else stays. -/
def Obligations.RegisterWritesTakeTheirFields : Prop :=
  (∀ (w : Word) (s : State), s.mode.mode ≠ .initial →
    (1 < w.toNat % 4 ∨ 2 < w.toNat / 16 % 4 →
      exec (.wctlWrite w) s = .next (s.withLink { s.link with causes := s.link.causes ||| 0x0010 })) ∧
    (∀ size, w.toNat / 16 % 4 ≤ 2 → (w.toNat % 4 = 0 ∧ size = 4096 ∨ w.toNat % 4 = 1 ∧ size = 32) →
      exec (.wctlWrite w) s = .next (s.withLink { s.link with
        space := w.toNat % 4, step := w.toNat / 16 % 4, addr := s.link.addr % size })) ∧
    (∀ size, (s.link.space = 0 ∧ size = 4096 ∨ s.link.space = 1 ∧ size = 32) →
      exec (.wadrWrite w) s = .next (s.withLink { s.link with addr := w.toNat % size }))) ∧
  ∀ (w : Word) (s : State), s.mode.mode ≠ .initial →
    ∃ t, exec (.causeWrite w) s = .next t ∧ t = s.withLink { s.link with causes := t.link.causes } ∧
      ∀ i, i < 16 → (bit t.link.causes i = true ↔ bit s.link.causes i = true ∧ bit w i = false)

/-- WDAT_READ: the word at the window address is returned, the address advances by the step and wraps, and
nothing else changes. In space 1 the words are the part code, the silicon revision, the size of exchange memory, the
directory with each kind's loaded flag, body length and checksum word, the load report, and 0 where none is named. -/
def Obligations.WindowReadReturnsWordAndAdvances : Prop :=
  ∀ s : State, s.mode.mode ≠ .initial →
    (s.link.space = 0 → exec .wdatRead s = .next (s.withLink { s.link with
      data := s.readXm s.link.addr, addr := (s.link.addr + s.link.step) % 4096 })) ∧
    (s.link.space = 1 → ∃ t, exec .wdatRead s = .next t ∧
      t.link = { s.link with data := t.link.data, addr := (s.link.addr + s.link.step) % 32 } ∧
      t = s.withLink t.link ∧
      (s.link.addr = 0 → t.link.data = 0x2440) ∧ (s.link.addr = 1 → t.link.data = 1) ∧
      (s.link.addr = 2 → t.link.data = 4096) ∧ (s.link.addr = 3 → t.link.data = 0) ∧
      (∀ k : TableKind, s.link.addr = 4 + 3 * (k.code - 1) →
        t.link.data = (if (s.tables.dir.entry k).loaded then 1 else 0)) ∧
      (∀ k : TableKind, s.link.addr = 5 + 3 * (k.code - 1) →
        t.link.data = BitVec.ofNat 16 (s.tables.dir.entry k).length) ∧
      (∀ k : TableKind, s.link.addr = 6 + 3 * (k.code - 1) → t.link.data = (s.tables.dir.entry k).sum) ∧
      (s.link.addr = 22 → t.link.data = BitVec.ofNat 16 s.tables.report.kind) ∧
      (s.link.addr = 23 → t.link.data = BitVec.ofNat 16 s.tables.report.result) ∧
      (s.link.addr = 24 → t.link.data = BitVec.ofNat 16 s.tables.report.detail) ∧
      (s.link.addr = 25 → t.link.data = BitVec.ofNat 16 s.tables.report.field) ∧
      (26 ≤ s.link.addr → t.link.data = 0))

/-- WDAT_WRITE: refused in space 1, in the report block and in a strip that is not FREE, with BAD_WRITE and no
word changed; stored otherwise. In both cases the address advances. -/
def Obligations.WindowWriteStoresOrIsRefused : Prop :=
  ∀ (w : Word) (s : State), s.mode.mode ≠ .initial → s.link.addr < 4096 → s.xm.wf = true →
    ∀ refused : Prop,
      (refused ↔ (s.link.space ≠ 0 ∨ s.link.addr < 0x040 ∨
        (0x100 ≤ s.link.addr ∧ s.link.addr ≤ 0x2FF ∧ s.engine.strip1 ≠ .free) ∨
        (0x300 ≤ s.link.addr ∧ s.link.addr ≤ 0x4FF ∧ s.engine.strip2 ≠ .free))) →
      ∃ t, exec (.wdatWrite w) s = .next t ∧
        t.link.addr = (s.link.addr + s.link.step) % (if s.link.space = 0 then 4096 else 32) ∧
        t = (s.withXm t.xm).withLink { s.link with addr := t.link.addr, causes := t.link.causes } ∧
        (refused → sameMemory s t ∧ t.link.causes = s.link.causes ||| 0x0010) ∧
        (¬refused → t.readXm s.link.addr = w ∧ (∀ a, a ≠ s.link.addr → t.readXm a = s.readXm a) ∧
          t.link.causes = s.link.causes)

/-- In INITIAL every write is ignored and a read returns zero; a write that selects no register is ignored in
every mode. -/
def Obligations.IgnoredLinkTransactionsChangeNothing : Prop :=
  (∀ (w : Word) (s : State), s.mode.mode = .initial →
    exec (.wctlWrite w) s = .next s ∧ exec (.wadrWrite w) s = .next s ∧ exec (.wdatWrite w) s = .next s ∧
      exec (.causeWrite w) s = .next s ∧ exec (.handOver w) s = .next s ∧ exec (.withdraw w) s = .next s ∧
      exec .wdatRead s = .next (s.withLink { s.link with data := 0 }) ∧
      (∀ r, s.readRegister r = 0)) ∧
  ∀ (select data : Word) (s : State), exec (.registerWriteOther select data) s = .next s

/-- The attention line is asserted while a cause is both pending and enabled, and released throughout INITIAL. -/
def Obligations.AttentionFollowsPendingAndMask : Prop :=
  ∀ s : State, s.attention = true ↔
    s.mode.mode ≠ .initial ∧ ∃ i, i < 16 ∧ bit s.link.causes i = true ∧ bit s.link.mask i = true

/-! ## Strips (R173 to R175) -/

/-- HAND_OVER: a FREE strip runs from word 1, where END or a well-formed order stands, or is QUEUED while the other
runs; a strip that is not FREE, or a code that names no request or strip, is refused with HANDOVER_REFUSED alone. -/
def Obligations.HandOverStartsQueuesOrRefuses : Prop :=
  ∀ (w : Word) (s : State), s.mode.mode ≠ .initial → w.toNat % 4 ≠ 2 →
    (w.toNat % 4 ≠ 1 ∨ w.toNat / 16 % 4 = 0 ∨ w.toNat / 16 % 4 = 3 →
      exec (.handOver w) s = .next (s.withLink { s.link with causes := s.link.causes ||| 0x0008 })) ∧
    (∀ n : Strip, w.toNat % 4 = 1 → (w.toNat / 16 % 4 = 1 ∧ n = .one ∨ w.toNat / 16 % 4 = 2 ∧ n = .two) →
      (s.engine.strip n ≠ .free →
        exec (.handOver w) s = .next (s.withLink { s.link with causes := s.link.causes ||| 0x0008 })) ∧
      (s.engine.strip n = .free → s.engine.strip n.other = .running →
        exec (.handOver w) s = .next (s.withEngine (s.engine.withStrip n .queued))) ∧
      (s.engine.strip n = .free → s.engine.strip n.other = .free → s.runsAt n 1 →
        exec (.handOver w) s = .next (s.withEngine
          { s.engine.withStrip n .running with position := 1, executed := 0, hold := none })))

/-- A strip that stops is returned with the reason and its number in the header, and its returned cause: at a HAND OVER
whose first order is unknown or lacks its mark, at offset 1, of either strip; and where an order ends (here a RESET TRIP
of trip A) and the word behind it is unknown, lacks its mark, would close beyond word 511, or lies beyond the strip. -/
def Obligations.FaultyOrderReturnsStrip : Prop :=
  (∀ (s : State) (n : Strip) (header : Word), s.mode.mode ≠ .initial → s.xm.wf = true → s.engine.strip n = .free →
    s.engine.strip n.other = .free →
    (s.stripWord n 1 ≠ 0 ∧ Order.ofCode (s.stripWord n 1).toNat = none ∧ header = 0x3001 ∨
      (∃ o, Order.ofCode (s.stripWord n 1).toNat = some o ∧ s.stripWord n (2 + o.argCount) ≠ 0xFFFF ∧
        header = 0x2001)) →
      ∃ t, exec (.handOver (if n = .one then 0x0011 else 0x0021)) s = .next t ∧ t.engine.strip n = .free ∧
        t.engine.strip n.other = .free ∧ t.readXm n.base = header ∧
        (∀ a, a ≠ n.base → t.readXm a = s.readXm a) ∧
        t.link = { s.link with causes := s.link.causes ||| (if n = .one then 0x0002 else 0x0004) } ∧
        onlyExchange s t) ∧
  ∀ (s : State) (n : Strip) (p : Nat) (header : Word), due s n .resetTrip → s.argNum n 0 = 0 →
    s.engine.strip n.other = .free → s.engine.executed < 255 → p = s.engine.position + 3 →
    (512 ≤ p ∧ header = 0x4001 + BitVec.ofNat 16 s.engine.executed ∨
      p < 512 ∧ s.stripWord n p ≠ 0 ∧ Order.ofCode (s.stripWord n p).toNat = none ∧
        header = 0x3000 + BitVec.ofNat 16 p ∨
      (∃ o, p < 512 ∧ Order.ofCode (s.stripWord n p).toNat = some o ∧
        (511 < p + o.argCount + 1 ∧ header = 0x4001 + BitVec.ofNat 16 s.engine.executed ∨
          p + o.argCount + 1 ≤ 511 ∧ s.stripWord n (p + o.argCount + 1) ≠ 0xFFFF ∧
            header = 0x2000 + BitVec.ofNat 16 p))) →
      ∃ t, exec .resetTrip s = .next t ∧ t.engine.strip n = .free ∧ t.engine.strip n.other = .free ∧
        t.readXm n.base = header ∧ t.readXm (n.base + s.engine.position + 2) = 0x0000 ∧
        (∀ a, a ≠ n.base → a ≠ n.base + s.engine.position + 2 → t.readXm a = s.readXm a) ∧
        t.link = { s.link with causes := s.link.causes ||| (if n = .one then 0x0002 else 0x0004) } ∧
        onlyExchange (s.withSpeed { s.speed with tripA := 0 }) t

/-- WITHDRAW: a QUEUED strip becomes FREE with the header WITHDRAWN and its returned cause; any other strip, and a code
that names no strip, is refused with HANDOVER_REFUSED alone. -/
def Obligations.WithdrawFreesQueuedStrip : Prop :=
  (∀ (w : Word) (s : State), s.mode.mode ≠ .initial → w.toNat % 4 = 2 →
    w.toNat / 16 % 4 = 0 ∨ w.toNat / 16 % 4 = 3 →
    exec (.withdraw w) s = .next (s.withLink { s.link with causes := s.link.causes ||| 0x0008 })) ∧
  ∀ (w : Word) (s : State) (n : Strip), s.mode.mode ≠ .initial → s.xm.wf = true → w.toNat % 4 = 2 →
    (w.toNat / 16 % 4 = 1 ∧ n = .one ∨ w.toNat / 16 % 4 = 2 ∧ n = .two) →
    (s.engine.strip n ≠ .queued →
      exec (.withdraw w) s = .next (s.withLink { s.link with causes := s.link.causes ||| 0x0008 })) ∧
    (s.engine.strip n = .queued →
      ∃ t, exec (.withdraw w) s = .next t ∧ t.engine = s.engine.withStrip n .free ∧
        t.readXm n.base = 0x5000 ∧ (∀ a, a ≠ n.base → t.readXm a = s.readXm a) ∧
        t.link = { s.link with causes := s.link.causes ||| (if n = .one then 0x0002 else 0x0004) } ∧
        onlyExchange s t)

/-- END: the strip is returned with the executed count in its header and its returned cause, and no other word
changes; a QUEUED other strip, where END or a well-formed order stands at its word 1, runs in the same step. -/
def Obligations.EndReturnsStripWithCount : Prop :=
  ∀ (s : State) (n : Strip), s.mode.mode ≠ .initial → s.xm.wf = true → s.engine.running = some n →
    s.engine.hold = none →
    s.engine.position < 512 → s.engine.executed < 256 → s.stripWord n s.engine.position = 0 →
    (s.engine.strip n.other = .free →
      ∃ t, exec .endOrder s = .next t ∧ t.engine.strip n = .free ∧ t.engine.strip n.other = .free ∧
        t.readXm n.base = 0x1000 + BitVec.ofNat 16 s.engine.executed ∧
        (∀ a, a ≠ n.base → t.readXm a = s.readXm a) ∧
        t.link = { s.link with causes := s.link.causes ||| (if n = .one then 0x0002 else 0x0004) } ∧
        onlyExchange s t) ∧
    (s.engine.strip n.other = .queued → s.runsAt n.other 1 →
      ∃ t, exec .endOrder s = .next t ∧ t.engine.strip n = .free ∧ t.engine.strip n.other = .running ∧
        t.engine.position = 1 ∧ t.engine.executed = 0 ∧ t.engine.hold = none ∧
        t.readXm n.base = 0x1000 + BitVec.ofNat 16 s.engine.executed ∧
        (∀ a, a ≠ n.base → t.readXm a = s.readXm a) ∧
        t.link = { s.link with causes := s.link.causes ||| (if n = .one then 0x0002 else 0x0004) } ∧
        onlyExchange s t)

/-! ## Orders that end at once (R70, R81, R152, R153, R158, R181) -/

/-- SET ATTENTION MASK: a mask beyond fourteen places is refused; otherwise the mask takes the argument and the
attention line is judged from it. After a reset of either kind all fourteen places are set. -/
def Obligations.SetAttentionMaskTakesMaskOrIsRefused : Prop :=
  (∀ (s : State) (n : Strip), due s n .setAttentionMask →
    (0x3FFF < s.argNum n 0 → endsOrder .setAttentionMask s s n .setAttentionMask 0x0200) ∧
    (s.argNum n 0 ≤ 0x3FFF →
      endsOrder .setAttentionMask s (s.withLink { s.link with mask := BitVec.ofNat 16 (s.argNum n 0) }) n
        .setAttentionMask 0x0000 ∧
      ∀ t, exec .setAttentionMask s = .next t →
        (t.attention = true ↔ ∃ i, i < 14 ∧ bit t.link.causes i = true ∧ s.argNum n 0 / 2 ^ i % 2 = 1))) ∧
  ∀ (spoiled : List Nat) (written : Bool) (s t : State),
    exec (.powerOnReset spoiled written) s = .next t ∨ exec (.hardReset spoiled written) s = .next t →
      t.link.mask = 0x3FFF

/-- RESET TRIP: the chosen trip becomes 0 and nothing else changes; another argument is refused. An edge taken
after the clearing that adds a unit leaves the trip at 1. -/
def Obligations.ResetTripClearsTheChosenTrip : Prop :=
  (∀ (s : State) (n : Strip), due s n .resetTrip →
    (1 < s.argNum n 0 → endsOrder .resetTrip s s n .resetTrip 0x0200) ∧
    (s.argNum n 0 = 0 →
      endsOrder .resetTrip s (s.withSpeed { s.speed with tripA := 0 }) n .resetTrip 0x0000) ∧
    (s.argNum n 0 = 1 →
      endsOrder .resetTrip s (s.withSpeed { s.speed with tripB := 0 }) n .resetTrip 0x0000)) ∧
  ∀ (us k : Nat) (s : State), s.mode.mode ≠ .initial → s.speed.k = some k → k ≤ s.speed.acc + 100 →
    (s.elapse us).speed.tooSoon = false →
      ∃ t, exec (.speedEdge us) s = .next t ∧ (s.speed.tripA = 0 → t.speed.tripA = 1) ∧
        (s.speed.tripB = 0 → t.speed.tripB = 1)

/-- SELECT PAGE and TAKE KEYS. -/
def Obligations.SelectPageAndTakeKeysAct : Prop :=
  (∀ (s : State) (n : Strip) (pages : Nat), due s n .selectPage →
    (s.tables.panel = none ∧ pages = 1 ∨ ∃ p, s.tables.panel = some p ∧ pages = p.pages.length) →
    (pages ≤ s.argNum n 0 → endsOrder .selectPage s s n .selectPage 0x0200) ∧
    (s.argNum n 0 < pages →
      endsOrder .selectPage s
        (s.withPanel { s.panel with selected := s.argNum n 0, index := 0, indexMode := false }) n
        .selectPage 0x0000)) ∧
  ∀ (s : State) (n : Strip) (a most : Nat), due s n .takeKeys → a = s.argNum n 0 → most = s.argNum n 1 →
    (most < 1 ∨ 16 < most ∨ a < 0x500 ∨ 0x1000 < a + 2 * most →
      endsOrder .takeKeys s s n .takeKeys 0x0200) ∧
    (1 ≤ most → most ≤ 16 → 0x500 ≤ a → a + 2 * most ≤ 0x1000 →
      ∀ taken, taken = min most s.panel.queue.length →
        ∃ m, endsOrder .takeKeys s m n .takeKeys (BitVec.ofNat 16 taken) ∧
          m = (s.withXm m.xm).withPanel { s.panel with queue := s.panel.queue.drop most } ∧
          (∀ i e, i < taken → s.panel.queue[i]? = some e →
            m.readXm (a + 2 * i) = BitVec.ofNat 16 (keyCode e.key + if e.long then 16 else 0) ∧
            m.readXm (a + 2 * i + 1) = BitVec.ofNat 16 e.stamp) ∧
          (∀ b, b < a ∨ a + 2 * taken ≤ b → m.readXm b = s.readXm b))

/-- START: refused outside UNCONFIGURED and without the three tables; with the ignition OFF the mode becomes
DORMANT, with it ON the part enters STARTING with a sweep. -/
def Obligations.StartEntersStartingOrDormantOrIsRefused : Prop :=
  ∀ (s : State) (n : Strip), due s n .start →
    (s.mode.mode ≠ .unconfigured → endsOrder .start s s n .start 0x0500) ∧
    (s.mode.mode = .unconfigured → s.tables.gauge = none ∨ s.tables.lamp = none ∨ s.tables.slots = none →
      endsOrder .start s s n .start 0x0306) ∧
    (s.mode.mode = .unconfigured → s.tables.gauge.isSome → s.tables.lamp.isSome → s.tables.slots.isSome →
      (s.mode.ignition = false →
        endsOrder .start s ((s.withMode { s.mode with mode := .dormant }).withLink
          { s.link with causes := s.link.causes ||| 0x0020 }) n .start 0x0000) ∧
      (s.mode.ignition = true → ∃ m, endsOrder .start s m n .start 0x0000 ∧ entersStarting s m true))

/-! ## Driver hours (R95, R96, R103 to R109) -/

/-- SET TIME and MINUTE_DUE: the clock's value, the evaluation with every alert and its message, and what stays. A
minute that has not passed is not due (log 3). -/
def Obligations.ClockIsSetAndSteps : Prop :=
  (∀ (s : State) (n : Strip), due s n .setTime →
    ∀ late : Prop,
      (late ↔ ∃ d : DriverSlot, (∃ o, (s.hours.driver d).activity = some o ∧ s.argLong n 0 < o.start) ∨
        ((s.hours.driver d).activity = none ∧ ∃ w, (s.hours.driver d).withdrawal = some w ∧ s.argLong n 0 < w)) →
      (late → endsOrder .setTime s s n .setTime 0x0D00) ∧
      (¬late → ∃ m, endsOrder .setTime s m n .setTime 0x0000 ∧ hoursSettled s m ∧
        m.hours.clockSet = true ∧ m.hours.clock = s.argLong n 0 ∧ m.hours.minuteCount = 0 ∧
        (∀ d, sameRecord (s.hours.driver d) (m.hours.driver d)))) ∧
  (∀ s : State, s.hours.minuteCount ≠ 59999 → exec .minuteDue s = .next s) ∧
  ∀ s : State, s.hours.minuteCount = 59999 →
    (s.hours.clockSet = false ∨ max32 ≤ s.hours.clock →
      exec .minuteDue s = .next (s.withHours { s.hours with minuteCount := 0 })) ∧
    (s.hours.clockSet = true → s.hours.clock < max32 → s.mode.mode = .initial →
      exec .minuteDue s = .next (s.withHours { s.hours with minuteCount := 0, clock := s.hours.clock + 1 })) ∧
    (s.hours.clockSet = true → s.hours.clock < max32 → s.mode.mode ≠ .initial →
      ∃ t, exec .minuteDue s = .next t ∧ hoursSettled s t ∧ t.hours.clockSet = true ∧
        t.hours.clock = s.hours.clock + 1 ∧ t.hours.minuteCount = 0 ∧
        (∀ d, sameRecord (s.hours.driver d) (t.hours.driver d)))

/-- CARD IN: the refusals in their order, and the record that an accepted one leaves. -/
def Obligations.CardInOpensUnknownOrIsRefused : Prop :=
  ∀ (s : State) (n : Strip), due s n .cardIn →
    (s.hours.clockSet = false → endsOrder .cardIn s s n .cardIn 0x0800) ∧
    (s.hours.clockSet = true → s.argNum n 0 ≠ 1 → s.argNum n 0 ≠ 2 →
      endsOrder .cardIn s s n .cardIn 0x0200) ∧
    ∀ (d : DriverSlot) (card t : Nat), s.hours.clockSet = true → s.argNum n 0 = d.number →
      card = s.argLong n 1 → t = s.argLong n 3 →
      ∀ twin : Prop,
      (twin ↔ (s.hours.driver d.other).activity.isSome = true ∧ (s.hours.driver d.other).card = some card) →
      ((s.hours.driver d).activity ≠ none → endsOrder .cardIn s s n .cardIn 0x0A00) ∧
      ((s.hours.driver d).activity = none → twin → endsOrder .cardIn s s n .cardIn 0x0B00) ∧
      (∀ w, (s.hours.driver d).activity = none → ¬twin → (s.hours.driver d).withdrawal = some w → t < w →
        endsOrder .cardIn s s n .cardIn 0x0C00) ∧
      ((s.hours.driver d).activity = none → ¬twin → (∀ w, (s.hours.driver d).withdrawal = some w → w ≤ t) →
        ∃ m, endsOrder .cardIn s m n .cardIn 0x0000 ∧ hoursSettled s m ∧ clockFollows s m t ∧
          sameRecord (s.hours.driver d.other) (m.hours.driver d.other) ∧
          (m.hours.driver d).activity = some ⟨.unknown, t⟩ ∧ (m.hours.driver d).card = some card ∧
          (m.hours.driver d).withdrawal = none ∧
          ((s.hours.driver d).card ≠ some card →
            (m.hours.driver d).cd = 0 ∧ (m.hours.driver d).dd = 0 ∧ (m.hours.driver d).firstTaken = false ∧
              (m.hours.driver d).history = []) ∧
          ((s.hours.driver d).card = some card → (s.hours.driver d).withdrawal = none →
            (m.hours.driver d).history = (s.hours.driver d).history ∧
              sameCounters (s.hours.driver d) (m.hours.driver d)) ∧
          (∀ w, (s.hours.driver d).card = some card → (s.hours.driver d).withdrawal = some w →
            closedInto (s.hours.driver d) (m.hours.driver d) s.tables.rules
              (if ∃ r, s.tables.rules = some r ∧ r.gapAsRest = true then .rest else .unknown) w t))

/-- CARD OUT: the refusals in their order; an accepted one closes the open activity. -/
def Obligations.CardOutClosesActivityOrIsRefused : Prop :=
  ∀ (s : State) (n : Strip), due s n .cardOut →
    (s.hours.clockSet = false → endsOrder .cardOut s s n .cardOut 0x0800) ∧
    (s.hours.clockSet = true → s.argNum n 0 ≠ 1 → s.argNum n 0 ≠ 2 →
      endsOrder .cardOut s s n .cardOut 0x0200) ∧
    ∀ (d : DriverSlot) (t : Nat), s.hours.clockSet = true → s.argNum n 0 = d.number → t = s.argLong n 1 →
      ((s.hours.driver d).activity = none → endsOrder .cardOut s s n .cardOut 0x0900) ∧
      (∀ o, (s.hours.driver d).activity = some o → t < o.start → endsOrder .cardOut s s n .cardOut 0x0C00) ∧
      (∀ o, (s.hours.driver d).activity = some o → o.start ≤ t →
        ∃ m, endsOrder .cardOut s m n .cardOut 0x0000 ∧ hoursSettled s m ∧ clockFollows s m t ∧
          sameRecord (s.hours.driver d.other) (m.hours.driver d.other) ∧
          (m.hours.driver d).activity = none ∧ (m.hours.driver d).withdrawal = some t ∧
          (m.hours.driver d).card = (s.hours.driver d).card ∧
          closedInto (s.hours.driver d) (m.hours.driver d) s.tables.rules o.kind o.start t)

/-- ACTIVITY: the refusals in their order, a report of the open activity, a change, and a crew swap. -/
def Obligations.ActivityChangesSwapsOrIsRefused : Prop :=
  ∀ (s : State) (n : Strip), due s n .activity →
    (s.hours.clockSet = false → endsOrder .activity s s n .activity 0x0800) ∧
    (s.hours.clockSet = true → (s.argNum n 0 ≠ 1 ∧ s.argNum n 0 ≠ 2) ∨ 3 < s.argNum n 1 →
      endsOrder .activity s s n .activity 0x0200) ∧
    ∀ (d : DriverSlot) (kind : Activity) (t : Nat), s.hours.clockSet = true → s.argNum n 0 = d.number →
      s.argNum n 1 = kind.code → kind ≠ .unknown → t = s.argLong n 2 →
      ((s.hours.driver d).activity = none → endsOrder .activity s s n .activity 0x0900) ∧
      ∀ o, (s.hours.driver d).activity = some o →
        (t < o.start → endsOrder .activity s s n .activity 0x0C00) ∧
        (o.start ≤ t → kind = o.kind → endsOrder .activity s s n .activity 0x0000) ∧
        (o.start ≤ t → kind ≠ o.kind → (kind ≠ .drive ∨ (s.hours.driver d.other).drives = false) →
          ∃ m, endsOrder .activity s m n .activity 0x0000 ∧ hoursSettled s m ∧ clockFollows s m t ∧
            sameRecord (s.hours.driver d.other) (m.hours.driver d.other) ∧
            (m.hours.driver d).activity = some ⟨kind, t⟩ ∧ (m.hours.driver d).card = (s.hours.driver d).card ∧
            closedInto (s.hours.driver d) (m.hours.driver d) s.tables.rules o.kind o.start t) ∧
        (∀ since, o.start ≤ t → kind = .drive → o.kind ≠ .drive →
          (s.hours.driver d.other).activity = some ⟨.drive, since⟩ →
          (t < since → endsOrder .activity s s n .activity 0x0C00) ∧
          (since ≤ t → ∃ m, endsOrder .activity s m n .activity 0x0100 ∧ hoursSettled s m ∧ clockFollows s m t ∧
            (m.hours.driver d).activity = some ⟨.drive, t⟩ ∧
            (m.hours.driver d.other).activity = some ⟨.available, t⟩ ∧
            closedInto (s.hours.driver d) (m.hours.driver d) s.tables.rules o.kind o.start t ∧
            closedInto (s.hours.driver d.other) (m.hours.driver d.other) s.tables.rules .drive since t))

/-! ## Messages (R121 to R127, R131 to R134) -/

/-- POST MESSAGE, but for evictions: refused arguments, an added, renewed, updated or unchanged entry; an arrival when
the counter stands at its end comes after a renumbering, and sets MESSAGE_CHANGE like any other. -/
def Obligations.PostMessageAddsRenewsOrUpdates : Prop :=
  ∀ (s : State) (n : Strip), due s n .postMessage →
    (s.argNum n 0 = 0 ∨ 239 < s.argNum n 0 ∨ 2 < s.argNum n 1 →
      endsOrder .postMessage s s n .postMessage 0x0200) ∧
    ∀ (id : Identity) (sev : Severity), id = ⟨s.argNum n 0, .link, s.argNum n 2⟩ →
      1 ≤ s.argNum n 0 → s.argNum n 0 ≤ 239 → s.argNum n 1 = sev.code →
      (s.stack.find id = none → s.stack.entries.length < 16 → (sev ≠ .red → s.stack.nonRedCount < 12) →
        s.stack.counter < max32 →
        ∃ m, endsOrder .postMessage s m n .postMessage 0x0001 ∧ onlyMessages s m ∧ pends m .messageChange ∧
          m.stack = { s.stack with
            entries := s.stack.entries ++ [⟨id, sev, .new, true, s.stack.counter + 1, 0⟩]
            counter := s.stack.counter + 1 } ∧
          (s.mode.mode = .running → s.chime = ⟨.silent, 0, false, false⟩ →
            m.chime.playing =
              match sev with
              | .red => .continuous
              | .amber => .single
              | .info => .silent)) ∧
      (s.stack.find id = none → s.stack.entries.length < 16 → (sev ≠ .red → s.stack.nonRedCount < 12) →
        max32 ≤ s.stack.counter →
        ∃ m, endsOrder .postMessage s m n .postMessage 0x0001 ∧ onlyMessages s m ∧ pends m .messageChange ∧
          s.stack.renumberedFor m.stack id sev ∧ m.stack.waiting = s.stack.waiting) ∧
      ∀ e, s.stack.find id = some e →
        (e.active = true → e.severity = sev → endsOrder .postMessage s s n .postMessage 0x0004) ∧
        (s.stack.waiting = [] → (e.severity = .red → sev ≠ .red → s.stack.nonRedCount < 12) →
          (e.active = true → e.severity ≠ sev →
            ∃ m, endsOrder .postMessage s m n .postMessage 0x0003 ∧ onlyMessages s m ∧ m.chime = s.chime ∧
              m.stack = { s.stack with
                entries := s.stack.entries.map (fun x => if x.id = id then { x with severity := sev } else x) }) ∧
          (e.active = false → s.stack.counter < max32 →
            ∃ m, endsOrder .postMessage s m n .postMessage 0x0002 ∧ onlyMessages s m ∧ pends m .messageChange ∧
              m.stack = { s.stack with
                entries := s.stack.entries.filter (fun x => x.id != id) ++
                  [⟨id, sev, .new, true, s.stack.counter + 1, 0⟩]
                counter := s.stack.counter + 1 }) ∧
          (e.active = false → max32 ≤ s.stack.counter →
            ∃ m, endsOrder .postMessage s m n .postMessage 0x0002 ∧ onlyMessages s m ∧ pends m .messageChange ∧
              s.stack.renumberedFor m.stack id sev ∧ m.stack.waiting = []))

/-- POST MESSAGE without a free place: the entry that leaves, or STACK_FULL. First of an identity not held; then of a
held RED entry that the post would lower or renew to AMBER or INFO, with no identity in the pending list. An evicted
entry that joins the list is offered again at once, since a severity has changed (log 24); the clauses are for the
case that it finds no room. -/
def Obligations.PostMessageEvictsOrStackFull : Prop :=
  (∀ (s : State) (n : Strip) (id : Identity) (sev : Severity), due s n .postMessage →
    id = ⟨s.argNum n 0, .link, s.argNum n 2⟩ → 1 ≤ s.argNum n 0 → s.argNum n 0 ≤ 239 →
    s.argNum n 1 = sev.code → s.stack.find id = none →
    (sev ≠ .red → 12 ≤ s.stack.nonRedCount ∨ 16 ≤ s.stack.entries.length) →
    (sev = .red → 16 ≤ s.stack.entries.length) →
    ∀ first second third : Entry → Prop,
      (∀ e, first e ↔ e.active = false ∧
        (if sev = .red then ¬(e.severity = .red ∧ e.state = .new) else e.severity ≠ .red)) →
      (∀ e, second e ↔ e.state = .acked ∧ (if sev = .red then e.severity ≠ .red else e.severity = .info)) →
      (∀ e, third e ↔ sev = .red ∧ e.severity ≠ .red) →
      ((∀ e ∈ s.stack.entries, ¬first e ∧ ¬second e ∧ ¬third e) →
        endsOrder .postMessage s s n .postMessage 0x0E00) ∧
      ∀ v, s.stack.counter < max32 →
        (oldestOf s.stack first v ∨
          ((∀ e ∈ s.stack.entries, ¬first e) ∧ oldestOf s.stack second v) ∨
          ((∀ e ∈ s.stack.entries, ¬first e ∧ ¬second e) ∧ oldestOf s.stack third v)) →
        ∃ m, endsOrder .postMessage s m n .postMessage 0x0001 ∧ onlyMessages s m ∧ pends m .messageChange ∧
          m.stack.entries = s.stack.entries.filter (fun x => x.id != v.id) ++
            [⟨id, sev, .new, true, s.stack.counter + 1, 0⟩] ∧
          m.stack.waiting = s.stack.waiting ++
            (if v.active = true ∧ v.id.origin ≠ .link ∧ s.stack.waits v.id = false then [(v.id, v.severity)]
              else [])) ∧
  ∀ (s : State) (n : Strip) (e : Entry) (sev : Severity), due s n .postMessage →
    e.id = ⟨s.argNum n 0, .link, s.argNum n 2⟩ → 1 ≤ s.argNum n 0 → s.argNum n 0 ≤ 239 →
    s.argNum n 1 = sev.code → s.stack.find e.id = some e → s.stack.withinCapacity → s.stack.waiting = [] →
    e.severity = .red → sev ≠ .red → 12 ≤ s.stack.nonRedCount →
    ∀ first second : Entry → Prop,
      (∀ x, first x ↔ x.active = false ∧ x.severity ≠ .red) →
      (∀ x, second x ↔ x.state = .acked ∧ x.severity = .info) →
      ((∀ x ∈ s.stack.entries, ¬first x ∧ ¬second x) → endsOrder .postMessage s s n .postMessage 0x0E00) ∧
      ∀ (v : Entry) (left after : List Entry) (joined : List (Identity × Severity)),
        (oldestOf s.stack first v ∨ ((∀ x ∈ s.stack.entries, ¬first x) ∧ oldestOf s.stack second v)) →
        left = s.stack.entries.filter (fun x => x.id != v.id) →
        joined = (if v.active = true ∧ v.id.origin ≠ .link then [(v.id, v.severity)] else []) →
        (joined = [] ∨ ∀ x ∈ after, ¬first x ∧ ¬second x) →
        (e.active = true → after = left.map (fun x => if x.id = e.id then { x with severity := sev } else x) →
          ∃ m, endsOrder .postMessage s m n .postMessage 0x0003 ∧ onlyMessages s m ∧ pends m .messageChange ∧
            m.chime = s.chime ∧ m.stack = ⟨after, s.stack.counter, joined⟩) ∧
        (e.active = false → s.stack.counter < max32 →
          after = left.filter (fun x => x.id != e.id) ++ [⟨e.id, sev, .new, true, s.stack.counter + 1, 0⟩] →
          ∃ m, endsOrder .postMessage s m n .postMessage 0x0002 ∧ onlyMessages s m ∧ pends m .messageChange ∧
            (sev = .amber → s.mode.mode.chimes = true → gongGiven m) ∧
            m.stack = ⟨after, s.stack.counter + 1, joined⟩)

/-- CLEAR MESSAGE and ACK MESSAGE with no identity in the pending list; and one retry of the pending list, at a CLEAR
MESSAGE that takes an acknowledged entry out: the waiting messages arrive, RED ones first, each group in the list's
order; where one place is free, the RED one takes it though it joined later, and the other waits on. The play time of
a chime that an acknowledgement silences is the model's choice (log 49). -/
def Obligations.ClearAndAckMessageAct : Prop :=
  (∀ (s : State) (n : Strip), due s n .clearMessage →
    (s.argNum n 0 = 0 ∨ 239 < s.argNum n 0 → endsOrder .clearMessage s s n .clearMessage 0x0200) ∧
    ∀ id : Identity, id = ⟨s.argNum n 0, .link, s.argNum n 1⟩ → 1 ≤ s.argNum n 0 → s.argNum n 0 ≤ 239 →
      s.stack.waiting = [] →
      ((∀ e, s.stack.find id = some e → e.active = false) →
        endsOrder .clearMessage s s n .clearMessage 0x0002) ∧
      ∀ e, s.stack.find id = some e → e.active = true →
        ∃ m, endsOrder .clearMessage s m n .clearMessage 0x0001 ∧ onlyMessages s m ∧ m.chime = s.chime ∧
          m.stack.counter = s.stack.counter ∧ m.stack.waiting = [] ∧
          (∀ other, other ≠ id → m.stack.find other = s.stack.find other) ∧
          (e.state = .acked ∨ (e.state = .new ∧ e.severity ≠ .red) ∨
              (e.state = .shown ∧ e.severity = .info ∧ 5000 ≤ e.shownTime) →
            (s.stack.withinCapacity → m.stack.find id = none) ∧ pends m .messageChange) ∧
          ((e.state = .new ∧ e.severity = .red) ∨
              (e.state = .shown ∧ (e.severity ≠ .info ∨ e.shownTime < 5000)) →
            m.stack.find id = some { e with active := false })) ∧
  (∀ (s : State) (n : Strip), due s n .ackMessage →
    ∀ held : Option Entry,
      (held = none ↔ s.argNum n 0 = 0 ∨ 5 < s.argNum n 1 ∨
        ∀ o, originCode o = s.argNum n 1 → s.stack.find ⟨s.argNum n 0, o, s.argNum n 2⟩ = none) →
      (∀ e, held = some e → ∃ o, originCode o = s.argNum n 1 ∧
        s.stack.find ⟨s.argNum n 0, o, s.argNum n 2⟩ = some e) →
      (held = none → endsOrder .ackMessage s s n .ackMessage 0x0200) ∧
      ∀ e, held = some e → s.stack.waiting = [] →
        ∃ m, endsOrder .ackMessage s m n .ackMessage 0x0000 ∧ onlyMessages s m ∧
          (∀ other, other ≠ e.id → m.stack.find other = s.stack.find other) ∧
          (e.active = true → m.stack.find e.id = some { e with state := .acked }) ∧
          (e.active = false → s.stack.withinCapacity → m.stack.find e.id = none) ∧
          m.chime.continuous = false ∧
          (s.chime.playing = .continuous → m.chime = (if s.chime.waiting then ⟨.single, 0, false, false⟩
            else ⟨.silent, 0, false, false⟩)) ∧
          (s.chime.playing ≠ .continuous → m.chime = { s.chime with continuous := false })) ∧
  ∀ (s : State) (n : Strip) (e : Entry) (left : List Entry) (again : List (Identity × Severity)),
    due s n .clearMessage → s.stack.withinCapacity →
    e.id = ⟨s.argNum n 0, .link, s.argNum n 1⟩ → 1 ≤ s.argNum n 0 → s.argNum n 0 ≤ 239 →
    s.stack.find e.id = some e → e.active = true → e.state = .acked →
    left = s.stack.entries.filter (fun x => x.id != e.id) →
    again = s.stack.waiting.filter (fun w => w.2 == .red) ++ s.stack.waiting.filter (fun w => w.2 != .red) →
    (again.map Prod.fst).Nodup → (∀ w ∈ again, s.stack.find w.1 = none) →
    (left.length + again.length ≤ 16 →
      (left.filter fun x => x.severity != .red).length + (again.filter fun w => w.2 != .red).length ≤ 12 →
      s.stack.counter + again.length ≤ max32 →
      ∃ m, endsOrder .clearMessage s m n .clearMessage 0x0001 ∧ onlyMessages s m ∧ pends m .messageChange ∧
        m.stack = ⟨left ++ again.mapIdx (fun i w => ⟨w.1, w.2, .new, true, s.stack.counter + 1 + i, 0⟩),
          s.stack.counter + again.length, []⟩ ∧
        (s.mode.mode.chimes = true → (∃ w ∈ again, w.2 = .red) → m.chime.playing = .continuous)) ∧
    ∀ (other red : Identity) (sev : Severity), s.stack.waiting = [(other, sev), (red, .red)] → sev ≠ .red →
      left.length = 15 → s.stack.counter < max32 →
      (∀ x ∈ left, x.severity ≠ .red → x.active = true ∧ (x.state = .acked → x.severity ≠ .info)) →
      ∃ m, endsOrder .clearMessage s m n .clearMessage 0x0001 ∧ onlyMessages s m ∧ pends m .messageChange ∧
        m.stack = ⟨left ++ [⟨red, .red, .new, true, s.stack.counter + 1, 0⟩], s.stack.counter + 1, [(other, sev)]⟩

/-- The stack's step of the shown time, and SHOWN_TIME_EXPIRED, with no identity in the pending list. -/
def Obligations.ShownTimeStepsAndExpires : Prop :=
  ∀ s : State, s.mode.mode ≠ .initial → s.stack.waiting = [] →
    (∃ t, exec .stackTick s = .next t ∧ onlyMessages s t ∧ t.chime = s.chime ∧
      t.stack.counter = s.stack.counter ∧
      ∀ e, e ∈ t.stack.entries ↔ ∃ b ∈ s.stack.entries,
        e = (if b.state = .shown then { b with shownTime := min (b.shownTime + 100) 5000 } else b) ∧
        ¬(b.state = .shown ∧ b.active = false ∧ b.severity = .info ∧ 4900 ≤ b.shownTime)) ∧
    ∀ (code : Nat) (origin : Origin) (arg : Nat) (b : Entry),
      s.stack.find ⟨code, origin, arg⟩ = some b → b.state = .shown → 4900 ≤ b.shownTime → b.shownTime < 5000 →
      s.stack.withinCapacity →
      ∃ t, exec (.shownTimeExpired code origin arg) s = .next t ∧ onlyMessages s t ∧ t.chime = s.chime ∧
        (∀ other, other ≠ b.id → t.stack.find other = s.stack.find other) ∧
        (b.active = true ∨ b.severity ≠ .info → t.stack.find b.id = some { b with shownTime := 5000 }) ∧
        (b.active = false → b.severity = .info → t.stack.find b.id = none ∧ pends t .messageChange)

/-! ## Calibration orders and the odometer store (R61 to R69) -/

/-- SET K-FACTOR, LOCK CALIBRATION and SET ODOMETER: the refusals in their order; otherwise the order holds its
strip, and the store starts the operation, or keeps it waiting behind the one in flight. -/
def Obligations.CalibrationOrdersHoldOrAreRefused : Prop :=
  (∀ (s : State) (n : Strip) (r : CalRecord), due s n .setKFactor →
    r = ⟨s.argNum n 0, s.speed.lock, s.speed.count⟩ →
    (s.speed.lock = true → endsOrder .setKFactor s s n .setKFactor 0x0600) ∧
    (s.speed.lock = false → s.argNum n 0 < 2000 ∨ 25000 < s.argNum n 0 →
      endsOrder .setKFactor s s n .setKFactor 0x0200) ∧
    (s.speed.lock = false → 2000 ≤ s.argNum n 0 → s.argNum n 0 ≤ 25000 →
      (s.store.op = none → holdsOrder .setKFactor s
        (s.withStore { s.store with op := some (.calibration .erase .setK r), sector0 := none }) .store) ∧
      (s.store.op ≠ none → holdsOrder .setKFactor s
        (s.withStore { s.store with waiting := some (.calibration .setK r) }) .store))) ∧
  (∀ (s : State) (n : Strip), due s n .lockCalibration →
    (s.speed.k = none → endsOrder .lockCalibration s s n .lockCalibration 0x0200) ∧
    ∀ k, s.speed.k = some k →
      (s.speed.lock = true → endsOrder .lockCalibration s s n .lockCalibration 0x0000) ∧
      (s.speed.lock = false →
        (s.store.op = none → holdsOrder .lockCalibration s (s.withStore { s.store with
          op := some (.calibration .erase .lock ⟨k, true, s.speed.count⟩), sector0 := none }) .store) ∧
        (s.store.op ≠ none → holdsOrder .lockCalibration s (s.withStore { s.store with
          waiting := some (.calibration .lock ⟨k, true, s.speed.count⟩) }) .store))) ∧
  ∀ (s : State) (n : Strip) (v : Nat), due s n .setOdometer → v = s.argLong n 0 →
    (s.speed.lock = true → endsOrder .setOdometer s s n .setOdometer 0x0600) ∧
    (s.speed.lock = false → s.store.failed = true → endsOrder .setOdometer s s n .setOdometer 0x0F02) ∧
    (s.speed.lock = false → s.store.failed = false →
      (s.store.op = none → s.store.nextPlace % 32 = 0 → holdsOrder .setOdometer s
        (s.withStore { s.store with op := some (.commit true (some v) 0 0) }) .store) ∧
      (s.store.op = none → s.store.nextPlace % 32 ≠ 0 → holdsOrder .setOdometer s
        (s.withStore { s.store with op := some (.commit false (some v) v 0), base := v }) .store) ∧
      (s.store.op ≠ none → holdsOrder .setOdometer s
        (s.withStore { s.store with waiting := some (.commit v) }) .store))

/-- SECTOR_ERASE_DONE: the sector is blank and the write begins, with the working value current then or the
argument of SET ODOMETER; a calibration write goes on from its erase to its write. -/
def Obligations.SectorEraseDoneBeginsTheWrite : Prop :=
  ∀ s : State,
    (∀ fixed w units value, s.store.op = some (.commit true fixed w units) →
      (fixed = none ∧ value = s.speed.odometer ∨ fixed = some value) →
      ∃ t, exec .sectorEraseDone s = .next t ∧
        t = s.withStore { s.store with
          places := t.store.places, op := some (.commit false fixed value units), base := value } ∧
        ∀ p : Fin 128, t.store.places[p] =
          (if p.val / 32 = s.store.nextPlace / 32 then .blank else s.store.places[p])) ∧
    (∀ purpose r, s.store.op = some (.calibration .erase purpose r) →
      exec .sectorEraseDone s =
        .next (s.withStore { s.store with op := some (.calibration .write purpose r) })) ∧
    (∀ purpose r, s.store.op = some (.calibration .restoreErase purpose r) →
      exec .sectorEraseDone s =
        .next (s.withStore { s.store with op := some (.calibration .restoreWrite purpose r) }))

/-- COMMIT_VERIFY_DONE: the place, the next place and sequence, and what follows: success of an ordinary commit, a
retry, the FAILED store, the second half of SET ODOMETER (a success too with the last sequence number, which makes the
store FAILED, log 22), its failure, and a SET ODOMETER commit that waits behind an ordinary one, which starts then, or
is not made where the store has become FAILED. Where it leaves the store not busy in PARKING with every channel
parked, the mode becomes DORMANT. -/
def Obligations.CommitVerifyDoneEndsRetriesOrFails : Prop :=
  ∀ (s : State) (fixed : Option Nat) (value units : Nat), s.store.op = some (.commit false fixed value units) →
    s.store.nextPlace < 128 →
    (∀ ok, ∃ t, exec (.commitVerifyDone ok) s = .next t ∧
      onlyMessages (((((s.withStore t.store).withSpeed t.speed).withMode t.mode).withXm t.xm).withEngine t.engine) t ∧
      t.store.places[s.store.nextPlace]? = some (if ok then .valid s.store.nextSeq value else .spoiled) ∧
      (∀ p, p ≠ s.store.nextPlace → t.store.places[p]? = s.store.places[p]?) ∧
      t.store.nextPlace = (s.store.nextPlace + 1) % 128 ∧
      t.store.nextSeq = (if s.store.nextSeq < max32 then s.store.nextSeq + 1 else max32) ∧
      t.store.failures = (if ok then 0 else s.store.failures + 1) ∧
      (ok = false → pends t .odoStoreFault) ∧ (ok = true → t.speed.odometerLost = false)) ∧
    (fixed = none → s.store.nextSeq < max32 →
      ∃ t, exec (.commitVerifyDone true) s = .next t ∧
        onlyMessages (((s.withStore t.store).withSpeed { s.speed with odometerLost := false }).withMode t.mode) t ∧
        dormantJudged s t ∧
        (s.store.waiting = none → s.store.pending = false →
          t.store.op = none ∧ t.store.pending = false ∧ t.store.base = s.store.base) ∧
        (s.store.waiting = none → s.store.pending = true → t.store.pending = false ∧
          (if (s.store.nextPlace + 1) % 32 = 0 then t.store.op = some (.commit true none 0 0)
          else t.store.op = some (.commit false none s.speed.odometer 0) ∧
            t.store.base = s.speed.odometer)) ∧
        (∀ purpose r, s.store.waiting = some (.calibration purpose r) → t.store.waiting = none ∧
          t.store.op = some (.calibration .erase purpose r) ∧ t.store.sector0 = none ∧
          t.store.pending = s.store.pending) ∧
        (∀ v, s.store.waiting = some (.commit v) → t.store.waiting = none ∧ t.store.pending = s.store.pending ∧
          t.engine = s.engine ∧
          (if (s.store.nextPlace + 1) % 32 = 0 then t.store.op = some (.commit true (some v) 0 0)
          else t.store.op = some (.commit false (some v) v 0) ∧ t.store.base = v))) ∧
    (s.store.nextSeq < max32 → s.store.failures < 2 →
      ∃ t, exec (.commitVerifyDone false) s = .next t ∧ t.store.failed = s.store.failed ∧
        t = (s.withStore t.store).withLink { s.link with causes := s.link.causes ||| 0x1000 } ∧
        (if (s.store.nextPlace + 1) % 32 = 0 then t.store.op = some (.commit true fixed 0 units)
        else t.store.op = some (.commit false fixed (fixed.getD s.speed.odometer) units) ∧
          t.store.base = fixed.getD s.speed.odometer)) ∧
    (∀ ok, fixed = none → (∀ v, s.store.waiting ≠ some (.commit v)) →
      (max32 = s.store.nextSeq ∨ (ok = false ∧ 2 ≤ s.store.failures)) →
      ∃ t, exec (.commitVerifyDone ok) s = .next t ∧
        onlyMessages (((s.withStore t.store).withSpeed (speedVerified s.speed ok)).withMode t.mode) t ∧
        dormantJudged s t ∧ t.store.failed = true ∧ t.store.pending = false ∧ t.store.waiting = none ∧
        (s.store.waiting = none → t.store.op = none ∧ t.store.sector0 = s.store.sector0) ∧
        (∀ purpose r, s.store.waiting = some (.calibration purpose r) →
          t.store.op = some (.calibration .erase purpose r) ∧ t.store.sector0 = none) ∧
        (s.stack.withinCapacity → t.stack.keeps msgStoreFault .amber)) ∧
    (∀ n, awaits s n .store .setOdometer →
      ∀ ok v, max32 = s.store.nextSeq ∨ (ok = false ∧ 2 ≤ s.store.failures) →
        (fixed = none ∧ s.store.waiting = some (.commit v) ∨ fixed = some v ∧ s.store.waiting = none ∧ ok = false) →
        ∃ m, endsOrder (.commitVerifyDone ok) s m n .setOdometer 0x0F02 ∧
          onlyMessages (((s.withSpeed (speedVerified s.speed ok)).withStore m.store).withMode m.mode) m ∧
          dormantJudged s m ∧ m.store.failed = true ∧
          m.store.op = none ∧ m.store.waiting = none ∧ m.store.pending = false ∧
          m.store.sector0 = s.store.sector0 ∧ (ok = false → pends m .odoStoreFault) ∧
          (s.stack.withinCapacity → m.stack.keeps msgStoreFault .amber)) ∧
    (∀ v, fixed = some v → s.store.nextSeq < max32 ∨ max32 = s.store.nextSeq ∧ s.store.waiting = none →
      (∀ k, s.speed.k = some k →
        ∃ t, exec (.commitVerifyDone true) s = .next t ∧
          onlyMessages ((s.withStore t.store).withSpeed
            { s.speed with odometer := min (v + units) max32, odometerLost := false }) t ∧
          (t.store.failed = true ↔ s.store.failed = true ∨ max32 = s.store.nextSeq) ∧
          (max32 = s.store.nextSeq → s.stack.withinCapacity → t.stack.keeps msgStoreFault .amber) ∧
          t.store.waiting = s.store.waiting ∧ t.store.sector0 = none ∧
          t.store.op =
            some (.calibration .erase .setOdometer ⟨k, s.speed.lock, min (s.speed.count + 1) 65535⟩)) ∧
      (s.speed.k = none → ∀ n, awaits s n .store .setOdometer →
        ∃ m, endsOrder (.commitVerifyDone true) s m n .setOdometer 0x0000 ∧
          onlyMessages (((s.withSpeed m.speed).withStore m.store).withMode m.mode) m ∧ dormantJudged s m ∧
          m.speed = { s.speed with
            odometer := min (v + units) max32, count := min (s.speed.count + 1) 65535, odometerLost := false } ∧
          (m.store.failed = true ↔ s.store.failed = true ∨ max32 = s.store.nextSeq) ∧
          (max32 = s.store.nextSeq → s.stack.withinCapacity → m.stack.keeps msgStoreFault .amber) ∧
          (s.store.waiting = none → m.store.sector0 = s.store.sector0 ∧ m.store.waiting = none ∧
            (s.store.pending = false ∨ max32 = s.store.nextSeq → m.store.op = none ∧ m.store.pending = false))))

/-- CALIBRATION_WRITE_DONE: what success does to the working copy by the order it completes; a failure is
followed by a restore while a calibration is valid, and otherwise ends the order; and the entry into DORMANT that either
end of the operation may bring in PARKING. -/
def Obligations.CalibrationWriteDoneCompletesItsOrder : Prop :=
  ∀ (s : State) (purpose : CalPurpose) (r : CalRecord) (n : Strip) (o : Order), awaits s n .store o →
    s.store.op = some (.calibration .write purpose r) → s.store.waiting = none →
    (∃ m, endsOrder (.calibrationWriteDone true) s m n o 0x0000 ∧
      onlyMessages ((((s.withSpeed m.speed).withStore m.store).withMode m.mode).withGauges m.gauges) m ∧
      m.store.sector0 = some r ∧ m.store.places = s.store.places ∧
      (s.store.pending = false → purpose ≠ .setK ∨ s.speed.k ≠ none →
        m.store = { s.store with op := none, sector0 := some r }) ∧
      dormantJudged s m ∧
      (purpose = .setK → pends m .calibrationChange ∧
        (∀ k, s.speed.k = some k → m.speed = { s.speed with k := some r.k, acc := 0 } ∧ m.gauges = s.gauges) ∧
        (s.speed.k = none → m.speed.k = some r.k ∧ m.speed.pulses = 0 ∧
          m.speed.acc = 100 * s.speed.pulses % r.k ∧
          m.speed.odometer = min (s.speed.odometer + 100 * s.speed.pulses / r.k) max32 ∧
          m.speed.tripA = (s.speed.tripA + 100 * s.speed.pulses / r.k) % 10000000 ∧
          m.speed.tripB = (s.speed.tripB + 100 * s.speed.pulses / r.k) % 10000000 ∧
          (s.stack.withinCapacity → m.stack.holdsActive msgCalibrationMissing = false) ∧
          (∀ c e, s.enabledEntry c = some e → e.source = .speed →
            followed s.gauges[c] m.gauges[c] e .good))) ∧
      (purpose = .lock → m.speed = { s.speed with lock := true } ∧ pends m .calibrationChange ∧
        m.gauges = s.gauges) ∧
      (purpose = .setOdometer → m.speed = { s.speed with count := r.count } ∧ m.gauges = s.gauges)) ∧
    (s.speed.k ≠ none →
      exec (.calibrationWriteDone false) s =
        .next ((s.withStore { s.store with
          op := some (.calibration .restoreErase purpose r), sector0 := none }).withLink
            { s.link with causes := s.link.causes ||| 0x1000 })) ∧
    (s.speed.k = none →
      ∃ m, endsOrder (.calibrationWriteDone false) s m n o 0x0F01 ∧ operationEnded s m ∧ dormantJudged s m ∧
        pends m .odoStoreFault ∧ m.store.sector0 = s.store.sector0)

/-- RESTORE_DONE: the order ends STORE_FAULT whatever the restore's outcome; sector 0 holds the working copy's
record after a restore that succeeds. In PARKING the mode becomes DORMANT where the store is then not busy. -/
def Obligations.RestoreDoneEndsWithStoreFault : Prop :=
  ∀ (s : State) (purpose : CalPurpose) (r : CalRecord) (n : Strip) (o : Order), awaits s n .store o →
    s.store.op = some (.calibration .restoreWrite purpose r) → s.store.waiting = none →
    (∀ k, s.speed.k = some k →
      ∃ m, endsOrder (.restoreDone true) s m n o 0x0F01 ∧ operationEnded s m ∧ dormantJudged s m ∧
        m.store.sector0 = some ⟨k, s.speed.lock, s.speed.count⟩) ∧
    (∃ m, endsOrder (.restoreDone false) s m n o 0x0F01 ∧ operationEnded s m ∧ dormantJudged s m ∧
      pends m .odoStoreFault ∧ m.store.sector0 = s.store.sector0)

/-! ## Tables (R15, R37, R38, R74, R99, R100, R140, R143, R170, R178, R179) -/

/-- LOAD TABLE: each check in its order, with the load report; an image that passes all of them becomes the
incoming table and holds the strip. The content checks of each kind, the field index reported of the first that fails,
and the table that a body reads as are said in Content.lean; name lists and names beyond their counts are not among the
checks (log 19), and the timeout of a SLOTS entry whose type code names no type is (log 20). -/
def Obligations.LoadTableHoldsOrIsRefused : Prop :=
  ∀ (s : State) (n : Strip) (kind a len : Nat), due s n .loadTable →
    kind = s.argNum n 0 → a = s.argNum n 1 → len = s.argNum n 2 →
    (kind = 0 ∨ 6 < kind ∨ a < 0x500 ∨ 0xFFC < a →
      endsOrder .loadTable s (s.withTables { s.tables with report := ⟨kind, 2, 0, 0⟩ }) n .loadTable 0x0200) ∧
    ∀ k : TableKind, k.code = kind → 0x500 ≤ a → a ≤ 0xFFC →
      (∀ detail,
        (detail = 1 ∧ s.readXm a ≠ k.tag ∨
          s.readXm a = k.tag ∧
            (detail = 2 ∧ s.readXm (a + 1) ≠ 1 ∨
              s.readXm (a + 1) = 1 ∧
                (detail = 3 ∧ (len ≠ (s.readXm (a + 2)).toNat + 4 ∨ 0x1000 < a + len) ∨
                  detail = 4 ∧ len = (s.readXm (a + 2)).toNat + 4 ∧ a + len ≤ 0x1000 ∧
                    (s.readWords a len).foldl (fun sum w => sum + w) 0 ≠ 0))) →
        endsOrder .loadTable s (s.withTables { s.tables with report := ⟨kind, 3, detail, 0⟩ }) n .loadTable
          (BitVec.ofNat 16 (0x0300 + detail))) ∧
      ∀ body : Nat → Word, s.readXm a = k.tag → s.readXm (a + 1) = 1 → len = (s.readXm (a + 2)).toNat + 4 →
        a + len ≤ 0x1000 → (s.readWords a len).foldl (fun sum w => sum + w) 0 = 0 →
        (∀ i, body i = s.readXm (a + 3 + i)) →
        (∀ f, (¬bodyLength k body (len - 4) ∧ f = 0xFFFF ∨
            bodyLength k body (len - 4) ∧ contentFails s k body f ∧ ∀ g, contentFails s k body g → f ≤ g) →
          endsOrder .loadTable s (s.withTables { s.tables with report := ⟨kind, 3, 5, f⟩ }) n
            .loadTable 0x0305) ∧
        (bodyLength k body (len - 4) → (∀ f, ¬contentFails s k body f) →
          ∃ t : TableBody, t.kind = k ∧ bodyRead body t ∧
            holdsOrder .loadTable s (s.withTables { s.tables with
              incoming := some ⟨t, len - 4, s.readXm (a + len - 1)⟩ }) (.table k))

/-- The adoptions of PANEL, GLYPH and RULES: the table is in use, its directory entry and the load report
follow, and the held order ends DONE. That of RULES makes an evaluation, with its alerts, as the state stands when its
event comes (log 52). -/
def Obligations.PanelGlyphRulesAdoptionsInstall : Prop :=
  (∀ (s : State) (n : Strip) (t : PanelTable) (len : Nat) (sum : Word), awaits s n (.table .panel) .loadTable →
    s.tables.incoming = some ⟨.panel t, len, sum⟩ →
    ∀ m, m = (s.withTables { s.tables with panel := some t, incoming := none, report := ⟨4, 0, 0, 0⟩, dir := { s.tables.dir with panel := ⟨true, len, sum⟩ } }).withPanel
        (match t.pages[s.panel.selected]? with
         | none => { s.panel with selected := 0, index := 0, indexMode := false }
         | some p => { s.panel with indexMode := s.panel.indexMode && p.indexed }) →
      endsOrder .panelTableAdoption s m n .loadTable 0x0000) ∧
  (∀ (s : State) (n : Strip) (t : GlyphTable) (len : Nat) (sum : Word), awaits s n (.table .glyph) .loadTable →
    s.tables.incoming = some ⟨.glyph t, len, sum⟩ →
    endsOrder .glyphTableAdoption s
      (s.withTables { s.tables with glyph := some t, incoming := none, report := ⟨5, 0, 0, 0⟩, dir := { s.tables.dir with glyph := ⟨true, len, sum⟩ } }) n .loadTable 0x0000) ∧
  ∀ (s : State) (n : Strip) (t : RulesTable) (len : Nat) (sum : Word), awaits s n (.table .rules) .loadTable →
    s.tables.incoming = some ⟨.rules t, len, sum⟩ →
    ∃ m, endsOrder .rulesTableAdoption s m n .loadTable 0x0000 ∧
      m.tables = { s.tables with rules := some t, incoming := none, report := ⟨6, 0, 0, 0⟩, dir := { s.tables.dir with rules := ⟨true, len, sum⟩ } } ∧
      onlyMessages ((s.withTables m.tables).withHours m.hours) m ∧
      m.hours.judged (some t) s.speed.moving ∧ alertsFollow s m ∧ m.hours.clock = s.hours.clock ∧
      (∀ d, sameRecord (s.hours.driver d) (m.hours.driver d))

/-- SLOTS_TABLE_ADOPTION: every slot record under the new table, the heartbeat's age, the withdrawn data-fault
demand, and the channels that follow with their watchers. -/
def Obligations.SlotsAdoptionRetypesSlots : Prop :=
  ∀ (s : State) (n : Strip) (t : SlotsTable) (len : Nat) (sum : Word), awaits s n (.table .slots) .loadTable →
    s.tables.incoming = some ⟨.slots t, len, sum⟩ →
    ∃ m, endsOrder .slotsTableAdoption s m n .loadTable 0x0000 ∧
      m.tables = { s.tables with slots := some t, incoming := none, report := ⟨3, 0, 0, 0⟩, dir := { s.tables.dir with slots := ⟨true, len, sum⟩ } } ∧
      onlyMessages (((s.withTables m.tables).withIntake m.intake).withGauges m.gauges) m ∧
      (∀ (i : Fin 64) (type : SlotType) (timeout : Nat),
        (i = 0 ∧ type = .heartbeat ∧ timeout = 10 * t.heartbeatTimeout ∨
          i ≠ 0 ∧ type = t.entries[i].type ∧ timeout = 10 * t.entries[i].timeout) →
        (type = s.intake.slots[i].type → m.intake.slots[i] =
          { s.intake.slots[i] with timeout := timeout, age := min s.intake.slots[i].age timeout }) ∧
        (type ≠ s.intake.slots[i].type → m.intake.slots[i] =
          ⟨type, timeout, .never, s.intake.slots[i].lastSeq, 0, 0⟩)) ∧
      m.intake.heartbeat =
        { s.intake.heartbeat with age := min s.intake.heartbeat.age (10 * t.heartbeatTimeout) } ∧
      m.intake.dataFault = false ∧ channelsFollow s m (fun _ => none)

/-- GAUGE_TABLE_ADOPTION: IN_USE while a channel homes or sweeps or an enabled channel stands beyond its new
travel; otherwise the table is in use and every channel takes the state that the rule gives it, its watchers armed
under the new table or disarmed, and no message of the old table's alarms stays that no alarm supports. -/
def Obligations.GaugeAdoptionRejudgesChannels : Prop :=
  ∀ (s : State) (n : Strip) (t : GaugeTable) (len : Nat) (sum : Word), awaits s n (.table .gauge) .loadTable →
    s.tables.incoming = some ⟨.gauge t, len, sum⟩ →
    ∀ inUse : Prop,
    (inUse ↔ ∃ c : Fin 8, s.gauges[c].state = .homing ∨ s.gauges[c].state = .sweeping ∨
      (t[c].enabled = true ∧ t[c].travelMax < s.gauges[c].p)) →
    (inUse → endsOrder .gaugeTableAdoption s
      (s.withTables { s.tables with incoming := none, report := ⟨1, 4, 0, 0⟩ }) n .loadTable 0x0400) ∧
    (¬inUse → ∃ m, endsOrder .gaugeTableAdoption s m n .loadTable 0x0000 ∧
      m.tables = { s.tables with gauge := some t, incoming := none, report := ⟨1, 0, 0, 0⟩, dir := { s.tables.dir with gauge := ⟨true, len, sum⟩ } } ∧
      onlyMessages ((((s.withTables m.tables).withGauges m.gauges).withMode m.mode).withIntake m.intake) m ∧
      modeJudged s m ∧
      ∀ c : Fin 8,
        (t[c].enabled = false → m.gauges[c] = { s.gauges[c] with
          x := 0, t := 0, f := 0, g := 0, p := 0, state := .idle, alarm0 := false, alarm1 := false,
          armed := false, coil := none }) ∧
        (t[c].enabled = true → m.gauges[c].armed = s.mode.mode.chimes) ∧
        (t[c].enabled = true → s.mode.mode.chimes = true → watchersArmed s m c t[c]) ∧
        (t[c].enabled = false ∨ s.mode.mode.chimes = false → watchersDisarmed s m c) ∧
        (∀ (old : GaugeEntry) (w : Watcher) (code : Nat) (sev : Severity), s.gaugeEntry c = some old →
          (old.watcher w).message = some (code, sev) → code < 240 → s.gauges[c].alarm w = true →
          m.gauges[c].alarm w = false → s.stack.withinCapacity →
          m.stack.dropped ⟨code, .gauge, watcherIndex c w⟩) ∧
        (t[c].enabled = true → s.enabledEntry c = none →
          (s.mode.mode.chimes = true ∨ s.mode.mode = .parking →
            m.gauges[c].state = .homing ∧ m.gauges[c].homing = t[c].travelMax + 60 ∧
              m.gauges[c].after = (if s.mode.mode = .parking then .park else .source)) ∧
          (s.mode.mode.chimes = false → s.mode.mode ≠ .parking → m.gauges[c].state = .unhomed)) ∧
        (∀ old, t[c].enabled = true → s.enabledEntry c = some old →
          m.gauges[c].p = s.gauges[c].p ∧ m.gauges[c].f = min s.gauges[c].f (16 * t[c].travelMax) ∧
          m.gauges[c].hold = s.gauges[c].hold ∧
          m.gauges[c].state =
            (if s.gauges[c].state = .tracking ∨ s.gauges[c].state = .failed ∨ s.gauges[c].state = .holding then
              (if old.source ≠ t[c].source then
                (if s.sourceCondition t[c].source = .good then .tracking else .failed)
              else if s.gauges[c].state = .holding ∧ t[c].holdTime ≤ s.gauges[c].hold then .failed
              else s.gauges[c].state)
            else s.gauges[c].state)))

/-- LAMP_TABLE_ADOPTION: each lamp's record by whether it is used before and after; every message on rise that is
active under the old table is dropped, and LAMP FAULT follows each lamp's legality and fault state: posted where they
come to call for it and cleared where they cease to, in the adoption (log 21). -/
def Obligations.LampAdoptionKeepsOrClearsRecords : Prop :=
  ∀ (s : State) (n : Strip) (t : LampTable) (len : Nat) (sum : Word), awaits s n (.table .lamp) .loadTable →
    s.tables.incoming = some ⟨.lamp t, len, sum⟩ →
    ∃ m, endsOrder .lampTableAdoption s m n .loadTable 0x0000 ∧
      m.tables = { s.tables with lamp := some t, incoming := none, report := ⟨2, 0, 0, 0⟩, dir := { s.tables.dir with lamp := ⟨true, len, sum⟩ } } ∧
      m.lamps = { s.lamps with recs := m.lamps.recs } ∧
      onlyMessages ((s.withTables m.tables).withLamps m.lamps) m ∧
      ∀ l : Fin 40,
        (∀ e code sev, s.lampEntry l = some e → e.message = some (code, sev) → code < 240 →
          s.lamps.recs[l].riseActive = true → s.stack.withinCapacity → m.stack.dropped ⟨code, .lamp, l.val⟩) ∧
        (∀ was now : Bool, (was = true ↔ s.legal l = true ∧ s.lamps.recs[l].faulty) →
          (now = true ↔ t.entries[l].used = true ∧ t.entries[l].legal = true ∧ m.lamps.recs[l].faulty) →
          messageFollows s m ⟨241, .lamp, l.val⟩ (if s.lamps.escalated then .red else .amber) was now ∧
          (was = false → now = true → s.lamps.escalated = true → s.mode.mode.chimes = true → gongGiven m)) ∧
        (∀ e, s.lampEntry l = some e → t.entries[l].used = true →
          m.lamps.recs[l] = { s.lamps.recs[l] with
            held := if e.link = t.entries[l].link then s.lamps.recs[l].held else .off, riseActive := false }) ∧
        (s.lampEntry l = none → t.entries[l].used = true →
          m.lamps.recs[l] = { s.lamps.recs[l] with
            held := .off, fault := .none, openCount := 0, goodCount := 0, shortCount := 0, cleanCount := 0,
            wait := 0, riseActive := false }) ∧
        (t.entries[l].used = false →
          m.lamps.recs[l] = { s.lamps.recs[l] with
            fault := .none, openCount := 0, goodCount := 0, shortCount := 0, cleanCount := 0,
            wait := 0, riseActive := false })

/-! ## Copies and the report block (R172, R180) -/

/-- COPY OUT holds its strip or is refused; the snapshot writes the record of its kind at the address, as the state
stands at its event (log 51), word by word as Records.lean lays it out, and ends the order. -/
def Obligations.CopyOutHoldsAndSnapshotWrites : Prop :=
  (∀ (s : State) (n : Strip) (a : Nat), due s n .copyOut → a = s.argNum n 2 →
    (s.argNum n 0 = 0 ∨ 5 < s.argNum n 0 ∨ a < 0x500 ∨
        (s.argNum n 0 = 1 ∧ (s.argNum n 1 = 0 ∨ 2 < s.argNum n 1)) →
      endsOrder .copyOut s s n .copyOut 0x0200) ∧
    ∀ k : CopyKind,
      (k = .driver1 ∧ s.argNum n 0 = 1 ∧ s.argNum n 1 = 1 ∨ k = .driver2 ∧ s.argNum n 0 = 1 ∧ s.argNum n 1 = 2 ∨
        k = .messages ∧ s.argNum n 0 = 2 ∨ k = .gauges ∧ s.argNum n 0 = 3 ∨ k = .lamps ∧ s.argNum n 0 = 4 ∨
        k = .slots ∧ s.argNum n 0 = 5) →
      (0x1000 < a + k.length → endsOrder .copyOut s s n .copyOut 0x0200) ∧
      (0x500 ≤ a → a + k.length ≤ 0x1000 → holdsOrder .copyOut s s (.copy k a))) ∧
  ∀ (s : State) (n : Strip) (k : CopyKind) (a : Nat), awaits s n (.copy k a) .copyOut → 0x500 ≤ a →
    a + k.length ≤ 0x1000 →
    ∃ m, endsOrder .copyOutSnapshot s m n .copyOut 0x0000 ∧ m = s.withXm m.xm ∧
      (∀ b, b < a ∨ a + k.length ≤ b → m.readXm b = s.readXm b) ∧
      (s.record k).length = k.length ∧ (∀ i w, (s.record k)[i]? = some w → m.readXm (a + i) = w) ∧
      recordShows s k (fun i => m.readXm (a + i))

/-- REPORT_REFRESH: the same new sequence number in words 0 and 63, and between them, word by word as Records.lean lays
them out, the state as it stood when the pass began, whatever link accesses, STRIP writes among them, land inside the
pass (log 13); a read inside the pass meets it half written. -/
def Obligations.ReportRefreshWritesBlock : Prop :=
  (∀ (mid : List MidAccess) (s : State), s.mode.mode = .initial → exec (.reportRefresh mid) s = .next s) ∧
  ∀ (mid : List MidAccess) (s : State), s.mode.mode ≠ .initial → s.xm.wf = true →
    ∃ t, exec (.reportRefresh mid) s = .next t ∧ passWritten mid s t

/-! ## Speed and distance (R53 to R59) -/

/-- SPEED_EDGE: an edge in INITIAL or less than 50 microseconds after the last accepted one is ignored; an
accepted one ends a period, or starts timing afresh, and is counted by the calibration. -/
def Obligations.SpeedEdgeIsTimedAndCounted : Prop :=
  ∀ (us : Nat) (s u : State), u = s.elapse us →
    u.speed = { s.speed with timer := s.speed.timer + BitVec.ofNat 32 us } ∧
    (s.mode.mode = .initial ∨ (∃ last, s.speed.lastStamp = some last ∧ (u.speed.timer - last).toNat < 50) →
      exec (.speedEdge us) s = .next u) ∧
    (s.mode.mode ≠ .initial → (∀ last, s.speed.lastStamp = some last → 50 ≤ (u.speed.timer - last).toNat) →
      ∃ t, exec (.speedEdge us) s = .next t ∧ t = (u.withSpeed t.speed).withStore t.store ∧
        t.speed.lastStamp = some u.speed.timer ∧ t.speed.standstill = false ∧ t.speed.v = s.speed.v ∧
        t.speed.moving = s.speed.moving ∧ t.speed.k = s.speed.k ∧
        (s.speed.lastStamp = none ∨ s.speed.standstill = true →
          t.speed.periods = s.speed.periods ∧ t.speed.periodSum = s.speed.periodSum) ∧
        (∀ last, s.speed.lastStamp = some last → s.speed.standstill = false →
          t.speed.periods = s.speed.periods + 1 ∧
          t.speed.periodSum = s.speed.periodSum + (u.speed.timer - last).toNat) ∧
        (s.speed.k = none → t.speed.pulses = min (s.speed.pulses + 1) max32 ∧ t.speed.acc = s.speed.acc ∧
          t.speed.odometer = s.speed.odometer ∧ t.store = s.store) ∧
        ∀ k, s.speed.k = some k → t.speed.pulses = s.speed.pulses ∧
          (s.speed.acc + 100 < k → t.speed.acc = s.speed.acc + 100 ∧ t.speed.odometer = s.speed.odometer ∧
            t.speed.tripA = s.speed.tripA ∧ t.speed.tripB = s.speed.tripB ∧ t.store = s.store) ∧
          (k ≤ s.speed.acc + 100 → t.speed.acc = s.speed.acc + 100 - k ∧
            t.speed.odometer = min (s.speed.odometer + 1) max32 ∧
            t.speed.tripA = (s.speed.tripA + 1) % 10000000 ∧ t.speed.tripB = (s.speed.tripB + 1) % 10000000 ∧
            (s.speed.odometer < max32 → s.store.base + 100 ≤ s.speed.odometer + 1 → s.store.failed = false →
              t.store.busy = true) ∧
            (s.store.op = none → s.speed.odometer + 1 < s.store.base + 100 → t.store = s.store)))

/-- SPEED_WINDOW: the standstill flag, with and without a calibration, the speed of the window, the moving timer and
flag, both watchers of every channel that shows speed, and the evaluation of the hours unit. MOVING_SET sets the flag
where the window that comes would. The microseconds pass inside the command (log 2); the time since the last edge is
taken modulo 2^32, the standstill flag stands until the next edge, and a window of 0 microseconds since that edge is
no case of the rule (log 27). -/
def Obligations.SpeedWindowComputesSpeedAndMoving : Prop :=
  (∀ (us : Nat) (s u : State), u = s.elapse us → s.mode.mode ≠ .initial →
    ∃ t, exec (.speedWindow us) s = .next t ∧
      onlyMessages (((u.withSpeed t.speed).withGauges t.gauges).withHours t.hours) t ∧
      t.speed.periods = 0 ∧ t.speed.periodSum = 0 ∧ t.speed.acc = s.speed.acc ∧
      t.speed.odometer = s.speed.odometer ∧ t.speed.lastStamp = s.speed.lastStamp ∧
      (0 < s.speed.periods → t.speed.standstill = s.speed.standstill) ∧
      (s.speed.periods = 0 → s.speed.standstill = true ∨ s.speed.lastStamp = none → t.speed.standstill = true) ∧
      (∀ last, s.speed.periods = 0 → s.speed.standstill = false → s.speed.lastStamp = some last →
        (t.speed.standstill = true ↔ 2000000 ≤ (u.speed.timer - last).toNat)) ∧
      (s.speed.k = none → t.speed.v = 0) ∧
      (∀ k, s.speed.k = some k →
        (0 < s.speed.periods → t.speed.v = min (360000000000 * s.speed.periods / (k * s.speed.periodSum)) 25000) ∧
        (s.speed.periods = 0 → t.speed.standstill = true → t.speed.v = 0) ∧
        (∀ last gap, s.speed.periods = 0 → t.speed.standstill = false → s.speed.lastStamp = some last →
          gap = (u.speed.timer - last).toNat → 0 < gap →
          t.speed.v = min s.speed.v (360000000000 / (k * gap)))) ∧
      (∀ least time, (s.tables.rules = none ∧ least = 500 ∧ time = 60000 ∨
          ∃ r, s.tables.rules = some r ∧ least = r.moveSpeed ∧ time = r.moveTime * 1000) →
        (least ≤ t.speed.v → t.speed.movingTimer = min (s.speed.movingTimer + 100) time ∧
          (t.speed.moving = true ↔ s.speed.moving = true ∨ time ≤ s.speed.movingTimer + 100)) ∧
        (t.speed.v < least → t.speed.movingTimer = 0 ∧ t.speed.moving = false)) ∧
      (t.speed.moving ≠ s.speed.moving → t.hours.judged s.tables.rules t.speed.moving) ∧
      (t.speed.moving = s.speed.moving → t.hours = u.hours) ∧ alertsFollow s t ∧
      ∀ c : Fin 8,
        t.gauges[c] = { s.gauges[c] with alarm0 := t.gauges[c].alarm0, alarm1 := t.gauges[c].alarm1 } ∧
        (s.enabledEntry c = none → t.gauges[c] = s.gauges[c]) ∧
        ∀ e, s.enabledEntry c = some e →
          (e.source ≠ .speed → t.gauges[c] = s.gauges[c]) ∧
          (e.source = .speed → watchersFollow s t c e false
            (if s.speed.k.isSome then some (t.speed.v : Int) else none) False)) ∧
  ∀ s : State, s.mode.mode ≠ .initial → s.speed.moving = false → s.moveSpeed ≤ s.speed.v →
    s.moveTime ≤ s.speed.movingTimer + 100 →
    ∃ t, exec .movingSet s = .next t ∧
      t.speed = { s.speed with movingTimer := s.moveTime, moving := true } ∧
      onlyMessages ((s.withSpeed t.speed).withHours t.hours) t ∧ t.hours.judged s.tables.rules true ∧
      alertsFollow s t

/-! ## Value intake (R6 to R14, R161) -/

/-- INTAKE_SCAN without link accesses inside it: every slot accepted or aged, the heartbeat with the entry into LIMP
and the departure from it, the data-fault demand, the channels with their watchers; and a tag written between the two
readings of a slot leaves its reading discarded. -/
def Obligations.IntakeScanAcceptsOrAgesSlots : Prop :=
  (∀ s : State, s.mode.mode ≠ .initial →
    ∃ t, exec (.intakeScan []) s = .next t ∧ t.xm = s.xm ∧
      onlyMessages (((s.withIntake t.intake).withGauges t.gauges).withMode t.mode) t ∧
      channelsFollow s t s.validReading ∧
      (∀ (i : Fin 64) (r : SlotRec) (tag value : Word), r = s.intake.slots[i] →
        tag = s.readXm (0x41 + 2 * i.val) → value = s.readXm (0x40 + 2 * i.val) →
        (r.type = .unused → t.intake.slots[i] = r) ∧
        (r.type ≠ .unused → tag.truncate 8 ≠ r.lastSeq →
          (bits tag 8 2 = 0 → t.intake.slots[i] = ⟨r.type, r.timeout, .good, tag.truncate 8, value, 0⟩) ∧
          (bits tag 8 2 = 2 →
            t.intake.slots[i] = ⟨r.type, r.timeout, .notAvailable, tag.truncate 8, r.accepted, 0⟩) ∧
          (bits tag 8 2 = 1 ∨ bits tag 8 2 = 3 →
            t.intake.slots[i] = ⟨r.type, r.timeout, .error, tag.truncate 8, r.accepted, 0⟩)) ∧
        (r.type ≠ .unused → tag.truncate 8 = r.lastSeq →
          t.intake.slots[i] = { r with
            age := min (r.age + 10) r.timeout
            condition := if r.timeout ≤ r.age + 10 ∧ r.condition ≠ .never then .stale else r.condition } ∧
          (r.timeout ≤ r.age + 10 → r.condition ≠ .never → r.condition ≠ .stale → pends t .slotStale))) ∧
      (s.intake.slots[0].type ≠ .unused →
        ∀ accepted : Prop, (accepted ↔ (s.readXm 0x41).truncate 8 ≠ s.intake.slots[0].lastSeq) →
          (accepted → s.intake.heartbeat.lost = false → t.intake.heartbeat = ⟨false, 0, 0⟩) ∧
          (accepted → s.intake.heartbeat.lost = true → s.intake.heartbeat.restore = 0 →
            t.intake.heartbeat = ⟨true, 0, 1⟩) ∧
          (accepted → s.intake.heartbeat.lost = true → s.intake.heartbeat.restore ≠ 0 →
            t.intake.heartbeat = ⟨false, 0, 0⟩) ∧
          (¬accepted → s.intake.heartbeat.age + 10 < s.intake.slots[0].timeout →
            t.intake.heartbeat = { s.intake.heartbeat with age := s.intake.heartbeat.age + 10 }) ∧
          (¬accepted → s.intake.slots[0].timeout ≤ s.intake.heartbeat.age + 10 →
            t.intake.heartbeat = ⟨true, s.intake.slots[0].timeout, 0⟩)) ∧
      limpJudged s t ∧
      (t.intake.dataFault = true ↔ (∃ q, s.tables.slots = some q ∧ q.dataFaultLamp ≠ none) ∧
        ∃ i : Fin 64, s.referenced i = true ∧
          (t.intake.slots[i].condition = .error ∨ t.intake.slots[i].condition = .stale))) ∧
  ∀ (s : State) (i : Fin 64) (w : Word), s.mode.mode ≠ .initial → s.xm.wf = true → s.link.space = 0 →
    s.link.addr = 0x41 + 2 * i.val → w.truncate 8 ≠ (s.readXm (0x41 + 2 * i.val)).truncate 8 →
    s.intake.slots[i].type ≠ .unused →
    ∃ t, exec (.intakeScan [⟨2 * i.val, .wdatWrite w⟩]) s = .next t ∧ t.readXm (0x41 + 2 * i.val) = w ∧
      t.intake.slots[i].accepted = s.intake.slots[i].accepted ∧
      t.intake.slots[i].lastSeq = s.intake.slots[i].lastSeq ∧
      t.intake.slots[i].age = min (s.intake.slots[i].age + 10) s.intake.slots[i].timeout

/-- SLOT_STALE and HEARTBEAT_LOST do what the scan that comes would do to the slot, with the channels and watchers
that follow it, and to the heartbeat (log 5). That SLOT_STALE on its own evaluates the data-fault demand is the model's
choice (log 53). -/
def Obligations.SlotsGoStaleAndHeartbeatIsLost : Prop :=
  (∀ (s : State) (i : Fin 64), s.mode.mode ≠ .initial → s.intake.slots[i].type ≠ .unused →
    s.intake.slots[i].condition ≠ .never → s.intake.slots[i].condition ≠ .stale →
    s.intake.slots[i].timeout ≤ s.intake.slots[i].age + 10 →
    ∃ t, exec (.slotStale i) s = .next t ∧
      onlyMessages ((s.withIntake t.intake).withGauges t.gauges) t ∧ pends t .slotStale ∧
      t.intake.slots[i] =
        { s.intake.slots[i] with condition := .stale, age := s.intake.slots[i].timeout } ∧
      (∀ j, j ≠ i → t.intake.slots[j] = s.intake.slots[j]) ∧ t.intake.heartbeat = s.intake.heartbeat ∧
      (t.intake.dataFault = true ↔ (∃ q, s.tables.slots = some q ∧ q.dataFaultLamp ≠ none) ∧
        ∃ j : Fin 64, s.referenced j = true ∧
          (t.intake.slots[j].condition = .error ∨ t.intake.slots[j].condition = .stale)) ∧
      channelsFollow s t (fun _ => none)) ∧
  ∀ s : State, s.mode.mode ≠ .initial → s.intake.heartbeat.lost = false →
    s.intake.slots[0].timeout ≤ s.intake.heartbeat.age + 10 →
    ∃ t, exec .heartbeatLost s = .next t ∧
      onlyMessages ((s.withIntake t.intake).withMode t.mode) t ∧
      t.intake = { s.intake with heartbeat := ⟨true, s.intake.slots[0].timeout, 0⟩ } ∧
      (s.mode.mode ≠ .running → t.mode = s.mode) ∧
      (s.mode.mode = .running → t.mode = { s.mode with mode := .limp } ∧ pends t .modeChange ∧
        pends t .linkLimp ∧ (s.stack.withinCapacity → t.stack.keeps msgLinkFault .red))

/-! ## Gauges (R17 to R31, R41 to R46) -/

/-- The curve stage holds its end positions and interpolates between breakpoints, rounding to the nearest
microstep, a half upward (R23, R24); the quantisation, dead band and slew stages (R28 to R30). -/
def Obligations.CurveQuantiseAndSlewStagesCompute : Prop :=
  (∀ (signed : Bool) (x : Int) (pts : List Breakpoint),
    (∀ i a b, pts[i]? = some a → pts[i + 1]? = some b → inDomain signed a.x < inDomain signed b.x) →
    (∀ b, pts.head? = some b → x ≤ inDomain signed b.x → curve signed x pts = b.p) ∧
    (∀ b, pts.getLast? = some b → inDomain signed b.x ≤ x → curve signed x pts = b.p) ∧
    ∀ i a b, pts[i]? = some a → pts[i + 1]? = some b → inDomain signed a.x ≤ x → x < inDomain signed b.x →
      ∀ num den : Int, num = (x - inDomain signed a.x) * (b.p - a.p) →
        den = inDomain signed b.x - inDomain signed a.x →
        (curve signed x pts : Int) = a.p + (2 * num + den) / (2 * den) ∧
        min a.p b.p ≤ curve signed x pts ∧ curve signed x pts ≤ max a.p b.p) ∧
  (∀ f travel g, g = quantise f travel → g ≤ travel ∧ (∀ p, 16 * p ≤ f + 8 → f + 8 < 16 * (p + 1) →
    g = min p travel)) ∧
  ∀ p g band slew p', p' = slewStep p g band slew →
    (p ≤ g + band → g ≤ p + band → p' = p) ∧
    (p + band < g → p' = p + min (g - p) slew) ∧ (g + band < p → p' + min (p - g) slew = p) ∧
    min p g ≤ p' ∧ p' ≤ max p g ∧ p' ≤ p + slew ∧ p ≤ p' + slew ∧
    (∀ travel, p ≤ travel → g ≤ travel → p' ≤ travel)

/-- The damping stage (R26), whole: the step, its bounds, the target never passed and always reached; and the
three states in which an update runs it. -/
def Obligations.DampingMovesFilteredTargetTowardTarget : Prop :=
  (∀ (f t k : Nat) (d : Int), f ≤ 65520 → t ≤ 4095 → 1 ≤ k → k ≤ 256 → d = 16 * (t : Int) - f →
    (d = 0 → damp f t k = f) ∧
    (d ≠ 0 → Int.tdiv (d * k) 256 ≠ 0 → (damp f t k : Int) = f + Int.tdiv (d * k) 256) ∧
    (0 < d → Int.tdiv (d * k) 256 = 0 → damp f t k = f + 1) ∧
    (d < 0 → Int.tdiv (d * k) 256 = 0 → damp f t k + 1 = f) ∧
    (f ≤ damp f t k ∧ damp f t k ≤ 16 * t ∨ 16 * t ≤ damp f t k ∧ damp f t k ≤ f) ∧
    (k = 256 → damp f t k = 16 * t) ∧ (∃ n, Nat.repeat (fun g => damp g t k) n f = 16 * t) ∧
    (∀ travel, t ≤ travel → f ≤ 16 * travel → damp f t k ≤ 16 * travel) ∧
    -16773120 ≤ d * k ∧ d * k ≤ 16773120) ∧
  ∀ (order : List (Fin 8)) (s t : State) (c : Fin 8) (e : GaugeEntry), s.mode.mode ≠ .initial →
    s.enabledEntry c = some e →
    s.gauges[c].state = .tracking ∨ s.gauges[c].state = .holding ∨ s.gauges[c].state = .failed →
    exec (.gaugeUpdate order) s = .next t → t.gauges[c].f = damp s.gauges[c].f t.gauges[c].t e.k

/-- GAUGE_UPDATE: what the update leaves of each channel, by its state, in whatever order the channels are
taken, the outputs of its coils, and the mode that follows. -/
def Obligations.GaugeUpdateMovesEachChannelByItsState : Prop :=
  ∀ (order : List (Fin 8)) (s : State), s.mode.mode ≠ .initial →
    ∃ t, exec (.gaugeUpdate order) s = .next t ∧
      onlyMessages (((s.withGauges t.gauges).withMode t.mode).withIntake t.intake) t ∧
      modeJudged s t ∧
      (∀ c : Fin 8, s.enabledEntry c = none → t.gauges[c] = s.gauges[c]) ∧
      ∀ (c : Fin 8) (e : GaugeEntry) (ch : Channel) (x : Int) (T : Nat),
        s.enabledEntry c = some e → ch = s.gauges[c] → x = s.sourceInput e.source →
        T = min (curve (s.sourceSigned e.source) x e.points) e.travelMax →
        (ch.state = .idle ∨ ch.state = .unhomed ∨ ch.state = .parked → t.gauges[c] = ch) ∧
        (ch.state = .tracking →
          t.gauges[c] = moved { ch with x := x } e T (damp ch.f T e.k) e.deadBand) ∧
        (ch.state = .holding → ch.hold + 10 < e.holdTime →
          t.gauges[c] = moved { ch with x := x, hold := ch.hold + 10 } e T (damp ch.f T e.k) e.deadBand) ∧
        (ch.state = .holding → e.holdTime ≤ ch.hold + 10 →
          t.gauges[c] = moved { ch with x := x, hold := e.holdTime, state := .failed } e T (damp ch.f T e.k)
            e.deadBand ∧ (s.stack.withinCapacity → t.stack.keeps (msgInputFault c) .amber)) ∧
        (ch.state = .tracking ∨ ch.state = .holding ∨ ch.state = .failed ∨
            (ch.state = .sweeping ∧ ch.phase = .outward) →
          t.gauges[c].coilsFollow t.gauges[c].p) ∧
        (ch.state = .failed →
          t.gauges[c] = moved ch e e.failPosition (damp ch.f e.failPosition e.k) e.deadBand) ∧
        (ch.state = .sweeping → ch.phase = .outward → ∀ m, m = moved ch e e.travelMax (16 * e.travelMax) 0 →
          t.gauges[c] = { m with phase := if m.p = e.travelMax then .return else .outward }) ∧
        (∀ m, m = moved ch e 0 0 0 →
          (ch.state = .sweeping → ch.phase = .return →
            t.gauges[c] = { m with state := if m.p = 0 then called s e else .sweeping }) ∧
          (ch.state = .parking → m.p ≠ 0 → t.gauges[c] = m) ∧
          (ch.state = .parking → m.p = 0 → t.gauges[c] = { m with state := .parked, coil := none } ∧
            t.gauges[c].coilA = 0 ∧ t.gauges[c].coilB = 0)) ∧
        (ch.state = .homing → 24 < ch.homing →
          t.gauges[c] = { ch with homing := ch.homing - 24, p := 0, coil := some ((ch.homing - 24) % 48) } ∧
            t.gauges[c].coilsFollow t.gauges[c].homing) ∧
        (ch.state = .homing → ch.homing ≤ 24 → t.gauges[c] = afterHoming s ch e)

/-- HOMING_END and HOLD_TIME_EXPIRED do to their channel what the update that comes would do to its state,
HOMING_END with the mode that follows. -/
def Obligations.HomingEndsAndHoldTimeExpires : Prop :=
  ∀ (s : State) (c : Fin 8) (e : GaugeEntry), s.mode.mode ≠ .initial → s.enabledEntry c = some e →
    (s.gauges[c].state = .homing → s.gauges[c].homing ≤ 24 →
      ∃ t, exec (.homingEnd c) s = .next t ∧
        onlyMessages (((s.withGauges t.gauges).withMode t.mode).withIntake t.intake) t ∧
        t.gauges[c] = afterHoming s s.gauges[c] e ∧ (∀ d, d ≠ c → t.gauges[d] = s.gauges[d]) ∧
        modeJudged s t ∧
        (t.gauges[c].state = .failed → s.stack.withinCapacity → t.stack.keeps (msgInputFault c) .amber)) ∧
    (s.gauges[c].state = .holding → e.holdTime ≤ s.gauges[c].hold + 10 →
      ∃ t, exec (.holdTimeExpired c) s = .next t ∧ onlyMessages (s.withGauges t.gauges) t ∧
        t.gauges[c] = { s.gauges[c] with hold := e.holdTime, state := .failed } ∧
        (∀ d, d ≠ c → t.gauges[d] = s.gauges[d]) ∧
        (s.stack.withinCapacity → t.stack.keeps (msgInputFault c) .amber))

/-! ## Lamps and chime (R76 to R93) -/

/-- LAMP_EVALUATION: demands, with the fault tell-tale's own, shown demand, output, wait timer, sample with the four
counts, and rise detection with its chime and message of every lamp, in whatever order the lamps are taken (log 12);
the escalation and the LAMP FAULT messages, those of all faulty legal lamps posted again when it changes (log 38); the
timers at the end of the round, and the mode. The check lamps are shown at least ON while the bulb check timer runs
(log 44), and the stored contribution is the one the evaluation used, in LIMP the limp state (log 26). -/
def Obligations.LampEvaluationFormsDemandsAndOutputs : Prop :=
  ∀ (order opens : List (Fin 40)) (s : State), s.mode.mode ≠ .initial →
    ∃ t, exec (.lampEvaluation order opens) s = .next t ∧
      onlyMessages (((s.withLamps t.lamps).withMode t.mode).withIntake t.intake) t ∧
      t.lamps.phase = s.lamps.phase ∧
      t.lamps.bulbTimer = (if s.mode.mode = .starting then s.lamps.bulbTimer - 20 else s.lamps.bulbTimer) ∧
      t.lamps.testTimer = (if s.mode.mode = .running ∨ s.mode.mode = .limp then s.lamps.testTimer - 20
        else s.lamps.testTimer) ∧
      (t.lamps.bulbOver = true ↔ s.lamps.bulbOver = true ∨
        (s.mode.mode = .starting ∧ 0 < s.lamps.bulbTimer ∧ s.lamps.bulbTimer ≤ 20)) ∧
      runningJudged s t ∧ lampFaultsReported s t ∧
      ∀ (n : Fin 40) (r r' : LampRec), r = s.lamps.recs[n] → r' = t.lamps.recs[n] →
        (s.lampEntry n = none → r'.operating = .off ∧ r'.contribution = none ∧ r'.held = r.held) ∧
        (∀ e, s.lampEntry n = some e →
          linkFormed s e r r' ∧ operatingFits s t n r' ∧ riseJudged s t n e r r') ∧
        shownFits s n r' ∧ r'.previous = r'.operating ∧
        (∃ f, waitCounted r r' f ∧ sampledFits (n ∈ opens) s.lamps.phase f r r') ∧
        (r'.fault = .open → r.fault ≠ .open → pends t .lampFault)

/-- OVERCURRENT and SHORT_WAIT_END: the output goes dark into SHORT_WAIT, at the third overcurrent into
LATCHED_OFF with its message; the wait ends with the output driven again. An overcurrent of a dark output cannot come
(R85); that it would change nothing is the model's choice (log 1). -/
def Obligations.OvercurrentWaitsOrLatches : Prop :=
  ∀ (s : State) (n : Fin 40) (r : LampRec), r = s.lamps.recs[n] → s.mode.mode ≠ .initial →
    (r.lit = false → exec (.overcurrent n) s = .next s) ∧
    (r.lit = true →
      ∃ t, exec (.overcurrent n) s = .next t ∧ onlyMessages (s.withLamps t.lamps) t ∧
        t.lamps = { s.lamps with recs := t.lamps.recs } ∧ (∀ m, m ≠ n → t.lamps.recs[m] = s.lamps.recs[m]) ∧
        (r.shortCount + 1 < 3 →
          t.lamps.recs[n] = { r with
            lit := false, shortCount := r.shortCount + 1, cleanCount := 0, fault := .shortWait, wait := 0,
            openCount := 0, goodCount := 0 } ∧
          (r.fault ≠ .shortWait → pends t .lampFault) ∧
          (r.fault = .open → s.legal n = true → s.stack.withinCapacity → t.stack.dropped (msgLampFault n))) ∧
        (3 ≤ r.shortCount + 1 →
          t.lamps.recs[n] = { r with lit := false, shortCount := 3, cleanCount := 0, fault := .latchedOff } ∧
          (r.fault ≠ .latchedOff → pends t .lampFault) ∧
          (r.fault = .none ∨ r.fault = .shortWait → s.legal n = true → s.stack.withinCapacity →
            t.stack.keeps (msgLampFault n) (if s.lamps.escalated = true then .red else .amber)))) ∧
    (r.fault = .shortWait → 1000 ≤ r.wait + 20 →
      ∃ t, exec (.shortWaitEnd n) s = .next t ∧ t = s.withLamps { s.lamps with recs := t.lamps.recs } ∧
        (∀ m, m ≠ n → t.lamps.recs[m] = s.lamps.recs[m]) ∧
        t.lamps.recs[n] = { r with fault := .none, wait := 0, lit := t.lamps.recs[n].lit } ∧
        (t.lamps.recs[n].lit = true ↔ litAt r.shown s.lamps.phase))

/-- TEST LAMPS, and the ends of the lamp test, of the bulb check and of a quarter of the flash cycle. The flash phase
waits in its last millisecond for its edge (log 3). -/
def Obligations.LampTimersAndTestAct : Prop :=
  (∀ (s : State) (n : Strip), due s n .testLamps →
    (s.mode.mode ≠ .running → s.mode.mode ≠ .limp → endsOrder .testLamps s s n .testLamps 0x0500) ∧
    (s.mode.mode = .running ∨ s.mode.mode = .limp →
      (s.argNum n 0 = 0 ∨ 100 < s.argNum n 0 → endsOrder .testLamps s s n .testLamps 0x0200) ∧
      (1 ≤ s.argNum n 0 → s.argNum n 0 ≤ 100 → endsOrder .testLamps s
        (s.withLamps { s.lamps with testTimer := 100 * s.argNum n 0 }) n .testLamps 0x0000))) ∧
  (∀ s : State, s.mode.mode = .running ∨ s.mode.mode = .limp → 1 ≤ s.lamps.testTimer → s.lamps.testTimer ≤ 20 →
    exec .lampTestEnd s = .next (s.withLamps { s.lamps with testTimer := 0 })) ∧
  (∀ s : State, s.mode.mode = .starting → 1 ≤ s.lamps.bulbTimer → s.lamps.bulbTimer ≤ 20 →
    (s.settling = true →
      exec .bulbCheckOver s = .next (s.withLamps { s.lamps with bulbTimer := 0, bulbOver := true })) ∧
    (s.settling = false →
      exec .bulbCheckOver s = .next ((((s.withLamps { s.lamps with bulbTimer := 0, bulbOver := true }).withMode
        { s.mode with mode := .running }).withIntake { s.intake with heartbeat := ⟨false, 0, 0⟩ }).withLink
          { s.link with causes := s.link.causes ||| 0x0020 }))) ∧
  (∀ s : State, s.mode.mode = .initial ∨ s.lamps.phase % 250 ≠ 249 → exec .flashEdge s = .next s) ∧
  ∀ (s : State) (p : Nat), s.mode.mode ≠ .initial → s.lamps.phase % 250 = 249 →
    p = (s.lamps.phase / 250 + 1) * 250 % 1000 →
    ∃ t, exec .flashEdge s = .next t ∧ t = s.withLamps { s.lamps with phase := p, recs := t.lamps.recs } ∧
      ∀ (n : Fin 40) (r : LampRec), r = s.lamps.recs[n] →
        (r.shown = .off ∨ r.shown = .on → t.lamps.recs[n] = r) ∧
        (r.shown = .flashSlow ∨ r.shown = .flashFast →
          t.lamps.recs[n] = { r with lit := t.lamps.recs[n].lit } ∧
          (t.lamps.recs[n].lit = true ↔ r.fault ≠ .shortWait ∧ r.fault ≠ .latchedOff ∧ litAt r.shown p))

/-- SINGLE_END, CLICK_END and CONTINUOUS_TONE_EDGE, and the tone on the output: each acts when its sound has played
600 ms, 20 ms, or all but the last millisecond of the half second (log 3), and changes nothing at another time. The play
time of a SILENT chime is the model's choice (log 49). -/
def Obligations.ChimeSoundsEndAndRepeat : Prop :=
  ∀ s : State,
    (s.chime.playing = .single → s.chime.time = 600 → s.chime.waiting = true → exec .singleEnd s =
      .next (s.withChime { s.chime with playing := .single, time := 0, waiting := false })) ∧
    (s.chime.playing = .single → s.chime.time = 600 → s.chime.waiting = false → exec .singleEnd s =
      .next (s.withChime { s.chime with playing := .silent, time := 0 })) ∧
    (s.chime.playing = .click → s.chime.time = 20 → exec .clickEnd s =
      .next (s.withChime { s.chime with playing := .silent, time := 0 })) ∧
    (s.chime.playing = .continuous → ∀ tone, s.chime.time = 499 ∧ tone = true ∨ s.chime.time = 999 ∧ tone = false →
      s.chime.tone = tone ∧
      ∃ t, exec .continuousToneEdge s = .next t ∧ t = s.withChime { s.chime with time := t.chime.time } ∧
        t.chime.tone = !tone ∧ t.chime.time = (if tone then 500 else 0)) ∧
    (s.chime.playing ≠ .single ∨ s.chime.time ≠ 600 → exec .singleEnd s = .next s) ∧
    (s.chime.playing ≠ .click ∨ s.chime.time ≠ 20 → exec .clickEnd s = .next s) ∧
    (s.chime.playing ≠ .continuous ∨ (s.chime.time ≠ 499 ∧ s.chime.time ≠ 999) →
      exec .continuousToneEdge s = .next s)

/-! ## Panel and keys (R138, R149 to R153) -/

/-- PANEL_REFRESH: the view by mode and view-top, its image cell by cell, what is displayed, and the display report. -/
def Obligations.PanelRefreshShowsViewAndReports : Prop :=
  ∀ s : State, s.mode.mode ≠ .initial →
    ∃ t, exec .panelRefresh s = .next t ∧ t = (s.withPanel t.panel).withStack t.stack ∧
      t.panel.selected = s.panel.selected ∧ t.panel.index = s.panel.index ∧ t.panel.queue = s.panel.queue ∧
      (t.panel.backlight = true ↔ t.panel.view ≠ .blank) ∧
      (s.mode.mode = .unconfigured → t.panel.view = .text ∧ t.stack = s.stack ∧
        t.panel.image = codes "CLUSTER NOT         CONFIGURED          ") ∧
      (s.mode.mode = .starting → t.panel.view = .start ∧ t.stack = s.stack ∧
        (s.tables.panel = none ∨ (∃ p, s.tables.panel = some p ∧ p.startPage = none) →
          t.panel.image = codes "ISJEDRA ISJ-2440                        ") ∧
        (∀ p i g, s.tables.panel = some p → p.startPage = some i → p.pages[i]? = some g →
          pageShown s p g t.panel.image)) ∧
      (s.mode.mode = .parking ∨ s.mode.mode = .dormant → t.panel.view = .blank ∧ t.stack = s.stack ∧
        t.panel.image = List.replicate 40 0x20) ∧
      (s.mode.mode = .running ∨ s.mode.mode = .limp →
        ((∀ e ∈ s.stack.entries, e.state = .acked) →
          t.panel.view = .page ∧ t.panel.displayed = none ∧ t.stack = s.stack ∧
          t.panel.indexMode = s.panel.indexMode ∧
          (s.tables.panel = none →
            t.panel.image = codes "PANEL NOT LOADED                        ") ∧
          (∀ p g, s.tables.panel = some p → p.pages[s.panel.selected]? = some g →
            pageShown s p g t.panel.image)) ∧
        ∀ e, s.stack.find e.id = some e → e.state ≠ .acked →
          (∀ x ∈ s.stack.entries, x ≠ e → x.state ≠ .acked →
            e.severity.rank < x.severity.rank ∨
              (e.severity.rank = x.severity.rank ∧ x.arrival < e.arrival)) →
          t.panel.view = .message ∧ t.panel.displayed = some e.id ∧
          (s.panel.view ≠ .message → t.panel.indexMode = false) ∧
          (e.state = .new → t.stack.find e.id = some { e with state := .shown, shownTime := 0 }) ∧
          (e.state = .shown → t.stack.find e.id = some e) ∧
          (∀ other, other ≠ e.id → t.stack.find other = s.stack.find other) ∧
          (∀ p x, s.tables.panel = some p → x ∈ p.texts → x.code = e.id.code →
            (∀ y ∈ p.texts, y.code = e.id.code → y = x) → textShown p x e.id t.panel.image) ∧
          (s.tables.panel = none ∨ (∃ p, s.tables.panel = some p ∧ ∀ x ∈ p.texts, x.code ≠ e.id.code) →
            builtinShown e.id t.panel.image))

/-- KEY_INPUT, ACCEPTED_PRESS, ACCEPTED_RELEASE and LONG_KEY_EVENT: a press or a release is accepted when its settle
timer stands at 30 ms, LONG is given when the hold timer stands at 1000 ms, and at another time nothing happens (log 3).
A key event is queued and signalled, requests its click, and acts by the view last displayed; the microseconds before it
pass inside the command (log 2), and the built-in page is not indexed and clears no trip (log 45); the
play time of a chime that an acknowledgement silences is the model's choice (log 49). -/
def Obligations.KeysDebounceAndAct : Prop :=
  (∀ (k : Key) (pressed : Bool) (s : State) (d : Debouncer), d = s.panel.debouncer k →
    exec (.keyInput k pressed) s = .next (s.setDebouncer k
      { d with input := pressed, settle := if pressed = d.level then 0 else d.settle }) ∧
    (s.mode.mode ≠ .initial → d.input = true → d.level = false → d.settle = 30 →
      exec (.acceptedPress k) s = .next (s.setDebouncer k
        { d with level := true, settle := 0, hold := 0, longGiven := false })) ∧
    (s.mode.mode = .initial ∨ d.input = false ∨ d.level = true ∨ d.settle ≠ 30 →
      exec (.acceptedPress k) s = .next s)) ∧
  ∀ (k : Key) (us : Nat) (s u : State) (d : Debouncer), u = s.elapse us → d = u.panel.debouncer k →
    (s.mode.mode = .initial ∨ d.input = true ∨ d.level = false ∨ d.settle ≠ 30 →
      exec (.acceptedRelease k us) s = .next u) ∧
    (s.mode.mode = .initial ∨ d.level = false ∨ d.longGiven = true ∨ d.hold ≠ 1000 →
      exec (.longKeyEvent k us) s = .next u) ∧
    (s.mode.mode ≠ .initial → d.input = false → d.level = true → d.settle = 30 → d.longGiven = true →
      exec (.acceptedRelease k us) s = .next (u.setDebouncer k { d with level := false, settle := 0 })) ∧
    (s.mode.mode ≠ .initial → d.input = false → d.level = true → d.settle = 30 → d.longGiven = false →
      ∃ t, exec (.acceptedRelease k us) s = .next t ∧ keyed u t k false { d with level := false, settle := 0 }) ∧
    (s.mode.mode ≠ .initial → d.level = true → d.longGiven = false → d.hold = 1000 →
      ∃ t, exec (.longKeyEvent k us) s = .next t ∧ keyed u t k true { d with longGiven := true })

/-! ## Ignition (R157, R162, R164) -/

/-- IGN_INPUT, IGNITION_ON_EVENT and IGNITION_OFF_EVENT. Either event comes when the settle timer stands at 100 ms;
at another time nothing happens. The play time of the chime that PARKING silences is the model's choice (log 49). -/
def Obligations.IgnitionMovesTheMode : Prop :=
  (∀ (on : Bool) (s : State), exec (.ignInput on) s = .next (s.withMode { s.mode with
    ignInput := on, settle := if on = s.mode.ignition then 0 else s.mode.settle })) ∧
  (∀ s : State, s.mode.mode = .initial ∨ s.mode.settle ≠ 100 ∨ s.mode.ignInput = s.mode.ignition →
    exec .ignitionOnEvent s = .next s ∧ exec .ignitionOffEvent s = .next s) ∧
  (∀ s u : State, s.mode.ignInput = true → s.mode.ignition = false → s.mode.settle = 100 →
    u = s.withMode { s.mode with ignition := true, settle := 0 } →
    (s.mode.mode = .unconfigured → exec .ignitionOnEvent s = .next u) ∧
    (s.mode.mode = .parking → ∃ t, exec .ignitionOnEvent s = .next t ∧ entersStarting u t false) ∧
    (s.mode.mode = .dormant → ∃ t, exec .ignitionOnEvent s = .next t ∧ entersStarting u t true)) ∧
  ∀ s : State, s.mode.ignInput = false → s.mode.ignition = true → s.mode.settle = 100 →
    (s.mode.mode = .unconfigured →
      exec .ignitionOffEvent s = .next (s.withMode { s.mode with ignition := false, settle := 0 })) ∧
    (s.mode.mode = .starting ∨ s.mode.mode = .running ∨ s.mode.mode = .limp →
      ∃ t, exec .ignitionOffEvent s = .next t ∧
        onlyMessages ((((s.withMode t.mode).withGauges t.gauges).withLamps t.lamps).withStore t.store) t ∧
        t.mode = { s.mode with
          ignition := false, settle := 0
          mode := if s.store.failed = true ∧ s.store.busy = false ∧ t.parked = true then .dormant else .parking } ∧
        pends t .modeChange ∧ t.chime = ⟨.silent, 0, false, false⟩ ∧
        t.lamps.bulbTimer = 0 ∧ t.lamps.testTimer = 0 ∧ (∀ n : Fin 40, t.lamps.recs[n].riseActive = false) ∧
        (s.store.failed = false → t.store.busy = true) ∧ (s.store.failed = true → t.store = s.store) ∧
        (s.mode.mode = .limp → s.stack.withinCapacity → t.stack.holdsActive msgLinkFault = false) ∧
        ∀ c : Fin 8, watchersDisarmed s t c ∧
          t.gauges[c].p = s.gauges[c].p ∧
          (s.enabledEntry c = none → t.gauges[c].state = s.gauges[c].state) ∧
          ∀ e, s.enabledEntry c = some e →
            match s.gauges[c].state with
            | .unhomed => t.gauges[c].state = .homing ∧ t.gauges[c].after = .park ∧
                t.gauges[c].homing = e.travelMax + 60
            | .homing => t.gauges[c].state = .homing ∧ t.gauges[c].after = .park ∧
                t.gauges[c].homing = s.gauges[c].homing
            | .sweeping | .tracking | .holding | .failed => t.gauges[c].state = .parking
            | .idle | .parking | .parked => t.gauges[c].state = s.gauges[c].state)
end

