-- ==== Sys2Proof/Laws/Coils.lean ====
section
/-! SUPPORT. The coil outputs (R31): a full turn of the electrical angle has 48 steps, so the step that the state
holds, the position modulo 48, gives the outputs of the position. -/

namespace Sys2Proof.Machine

/-- The cosine of the angle does not depend on whole turns. -/
theorem cos_electricalAngle_mod (p : Nat) : Real.cos (electricalAngle (p % 48)) = Real.cos (electricalAngle p) := by
  have h : electricalAngle p = electricalAngle (p % 48) + (p / 48 : Nat) * (2 * Real.pi) := by
    have e : (p : ℝ) = (p % 48 : Nat) + 48 * (p / 48 : Nat) := by exact_mod_cast (Nat.mod_add_div p 48).symm
    simp only [electricalAngle]
    rw [e]
    ring
  rw [h, Real.cos_add_nat_mul_two_pi]

/-- The sine of the angle does not depend on whole turns. -/
theorem sin_electricalAngle_mod (p : Nat) : Real.sin (electricalAngle (p % 48)) = Real.sin (electricalAngle p) := by
  have h : electricalAngle p = electricalAngle (p % 48) + (p / 48 : Nat) * (2 * Real.pi) := by
    have e : (p : ℝ) = (p % 48 : Nat) + 48 * (p / 48 : Nat) := by exact_mod_cast (Nat.mod_add_div p 48).symm
    simp only [electricalAngle]
    rw [e]
    ring
  rw [h, Real.sin_add_nat_mul_two_pi]

/-- The outputs of coils that stand at a position or a homing count. -/
theorem Channel.coils_at (ch : Channel) (p : Nat) (h : ch.coil = some (p % 48)) :
    ch.coilsFollow p := by
  simp only [Channel.coilsFollow, Channel.coilA, Channel.coilB, h, Option.map_some, Option.getD_some, cos_electricalAngle_mod,
    sin_electricalAngle_mod]
  exact ⟨rfl, rfl⟩

/-- Released coils carry no drive. -/
theorem Channel.coils_released (ch : Channel) (h : ch.coil = none) : ch.coilA = 0 ∧ ch.coilB = 0 := by
  simp [Channel.coilA, Channel.coilB, h]

/-- Driven coils carry full drive, shared by the angle. -/
theorem Channel.coils_full_drive (ch : Channel) (p : Nat) (h : ch.coil = some p) : ch.coilA ^ 2 + ch.coilB ^ 2 = 1 := by
  simp [Channel.coilA, Channel.coilB, h]

end Sys2Proof.Machine
end

