-- ==== Sys2Proof/Laws/State.lean ====
section
/-! SUPPORT. What each replacement of one unit of the state reads as: one lemma per field per update, so that no
proof unfolds a record update. -/

namespace Sys2Proof.Machine

/-! ## State.withMode -/

@[simp] theorem State.withMode_mode (s : State) (v : ModeControl) : (s.withMode v).mode = v := rfl
@[simp] theorem State.withMode_link (s : State) (v : ModeControl) : (s.withMode v).link = s.link := rfl
@[simp] theorem State.withMode_xm (s : State) (v : ModeControl) : (s.withMode v).xm = s.xm := rfl
@[simp] theorem State.withMode_engine (s : State) (v : ModeControl) : (s.withMode v).engine = s.engine := rfl
@[simp] theorem State.withMode_tables (s : State) (v : ModeControl) : (s.withMode v).tables = s.tables := rfl
@[simp] theorem State.withMode_intake (s : State) (v : ModeControl) : (s.withMode v).intake = s.intake := rfl
@[simp] theorem State.withMode_gauges (s : State) (v : ModeControl) : (s.withMode v).gauges = s.gauges := rfl
@[simp] theorem State.withMode_speed (s : State) (v : ModeControl) : (s.withMode v).speed = s.speed := rfl
@[simp] theorem State.withMode_store (s : State) (v : ModeControl) : (s.withMode v).store = s.store := rfl
@[simp] theorem State.withMode_lamps (s : State) (v : ModeControl) : (s.withMode v).lamps = s.lamps := rfl
@[simp] theorem State.withMode_chime (s : State) (v : ModeControl) : (s.withMode v).chime = s.chime := rfl
@[simp] theorem State.withMode_hours (s : State) (v : ModeControl) : (s.withMode v).hours = s.hours := rfl
@[simp] theorem State.withMode_stack (s : State) (v : ModeControl) : (s.withMode v).stack = s.stack := rfl
@[simp] theorem State.withMode_panel (s : State) (v : ModeControl) : (s.withMode v).panel = s.panel := rfl
@[simp] theorem State.withMode_prescale (s : State) (v : ModeControl) : (s.withMode v).prescale = s.prescale := rfl
@[simp] theorem State.withMode_pending (s : State) (v : ModeControl) : (s.withMode v).pending = s.pending := rfl
@[simp] theorem State.withMode_self (s : State) : s.withMode s.mode = s := rfl
@[simp] theorem State.withMode_withMode (s : State) (v w : ModeControl) : (s.withMode v).withMode w = s.withMode w := rfl

/-! ## State.withLink -/

@[simp] theorem State.withLink_mode (s : State) (v : Link) : (s.withLink v).mode = s.mode := rfl
@[simp] theorem State.withLink_link (s : State) (v : Link) : (s.withLink v).link = v := rfl
@[simp] theorem State.withLink_xm (s : State) (v : Link) : (s.withLink v).xm = s.xm := rfl
@[simp] theorem State.withLink_engine (s : State) (v : Link) : (s.withLink v).engine = s.engine := rfl
@[simp] theorem State.withLink_tables (s : State) (v : Link) : (s.withLink v).tables = s.tables := rfl
@[simp] theorem State.withLink_intake (s : State) (v : Link) : (s.withLink v).intake = s.intake := rfl
@[simp] theorem State.withLink_gauges (s : State) (v : Link) : (s.withLink v).gauges = s.gauges := rfl
@[simp] theorem State.withLink_speed (s : State) (v : Link) : (s.withLink v).speed = s.speed := rfl
@[simp] theorem State.withLink_store (s : State) (v : Link) : (s.withLink v).store = s.store := rfl
@[simp] theorem State.withLink_lamps (s : State) (v : Link) : (s.withLink v).lamps = s.lamps := rfl
@[simp] theorem State.withLink_chime (s : State) (v : Link) : (s.withLink v).chime = s.chime := rfl
@[simp] theorem State.withLink_hours (s : State) (v : Link) : (s.withLink v).hours = s.hours := rfl
@[simp] theorem State.withLink_stack (s : State) (v : Link) : (s.withLink v).stack = s.stack := rfl
@[simp] theorem State.withLink_panel (s : State) (v : Link) : (s.withLink v).panel = s.panel := rfl
@[simp] theorem State.withLink_prescale (s : State) (v : Link) : (s.withLink v).prescale = s.prescale := rfl
@[simp] theorem State.withLink_pending (s : State) (v : Link) : (s.withLink v).pending = s.pending := rfl
@[simp] theorem State.withLink_self (s : State) : s.withLink s.link = s := rfl
@[simp] theorem State.withLink_withLink (s : State) (v w : Link) : (s.withLink v).withLink w = s.withLink w := rfl

/-! ## State.withXm -/

@[simp] theorem State.withXm_mode (s : State) (v : Memory) : (s.withXm v).mode = s.mode := rfl
@[simp] theorem State.withXm_link (s : State) (v : Memory) : (s.withXm v).link = s.link := rfl
@[simp] theorem State.withXm_xm (s : State) (v : Memory) : (s.withXm v).xm = v := rfl
@[simp] theorem State.withXm_engine (s : State) (v : Memory) : (s.withXm v).engine = s.engine := rfl
@[simp] theorem State.withXm_tables (s : State) (v : Memory) : (s.withXm v).tables = s.tables := rfl
@[simp] theorem State.withXm_intake (s : State) (v : Memory) : (s.withXm v).intake = s.intake := rfl
@[simp] theorem State.withXm_gauges (s : State) (v : Memory) : (s.withXm v).gauges = s.gauges := rfl
@[simp] theorem State.withXm_speed (s : State) (v : Memory) : (s.withXm v).speed = s.speed := rfl
@[simp] theorem State.withXm_store (s : State) (v : Memory) : (s.withXm v).store = s.store := rfl
@[simp] theorem State.withXm_lamps (s : State) (v : Memory) : (s.withXm v).lamps = s.lamps := rfl
@[simp] theorem State.withXm_chime (s : State) (v : Memory) : (s.withXm v).chime = s.chime := rfl
@[simp] theorem State.withXm_hours (s : State) (v : Memory) : (s.withXm v).hours = s.hours := rfl
@[simp] theorem State.withXm_stack (s : State) (v : Memory) : (s.withXm v).stack = s.stack := rfl
@[simp] theorem State.withXm_panel (s : State) (v : Memory) : (s.withXm v).panel = s.panel := rfl
@[simp] theorem State.withXm_prescale (s : State) (v : Memory) : (s.withXm v).prescale = s.prescale := rfl
@[simp] theorem State.withXm_pending (s : State) (v : Memory) : (s.withXm v).pending = s.pending := rfl
@[simp] theorem State.withXm_self (s : State) : s.withXm s.xm = s := rfl
@[simp] theorem State.withXm_withXm (s : State) (v w : Memory) : (s.withXm v).withXm w = s.withXm w := rfl

/-! ## State.withEngine -/

@[simp] theorem State.withEngine_mode (s : State) (v : Engine) : (s.withEngine v).mode = s.mode := rfl
@[simp] theorem State.withEngine_link (s : State) (v : Engine) : (s.withEngine v).link = s.link := rfl
@[simp] theorem State.withEngine_xm (s : State) (v : Engine) : (s.withEngine v).xm = s.xm := rfl
@[simp] theorem State.withEngine_engine (s : State) (v : Engine) : (s.withEngine v).engine = v := rfl
@[simp] theorem State.withEngine_tables (s : State) (v : Engine) : (s.withEngine v).tables = s.tables := rfl
@[simp] theorem State.withEngine_intake (s : State) (v : Engine) : (s.withEngine v).intake = s.intake := rfl
@[simp] theorem State.withEngine_gauges (s : State) (v : Engine) : (s.withEngine v).gauges = s.gauges := rfl
@[simp] theorem State.withEngine_speed (s : State) (v : Engine) : (s.withEngine v).speed = s.speed := rfl
@[simp] theorem State.withEngine_store (s : State) (v : Engine) : (s.withEngine v).store = s.store := rfl
@[simp] theorem State.withEngine_lamps (s : State) (v : Engine) : (s.withEngine v).lamps = s.lamps := rfl
@[simp] theorem State.withEngine_chime (s : State) (v : Engine) : (s.withEngine v).chime = s.chime := rfl
@[simp] theorem State.withEngine_hours (s : State) (v : Engine) : (s.withEngine v).hours = s.hours := rfl
@[simp] theorem State.withEngine_stack (s : State) (v : Engine) : (s.withEngine v).stack = s.stack := rfl
@[simp] theorem State.withEngine_panel (s : State) (v : Engine) : (s.withEngine v).panel = s.panel := rfl
@[simp] theorem State.withEngine_prescale (s : State) (v : Engine) : (s.withEngine v).prescale = s.prescale := rfl
@[simp] theorem State.withEngine_pending (s : State) (v : Engine) : (s.withEngine v).pending = s.pending := rfl
@[simp] theorem State.withEngine_self (s : State) : s.withEngine s.engine = s := rfl
@[simp] theorem State.withEngine_withEngine (s : State) (v w : Engine) : (s.withEngine v).withEngine w = s.withEngine w := rfl

/-! ## State.withTables -/

@[simp] theorem State.withTables_mode (s : State) (v : Tables) : (s.withTables v).mode = s.mode := rfl
@[simp] theorem State.withTables_link (s : State) (v : Tables) : (s.withTables v).link = s.link := rfl
@[simp] theorem State.withTables_xm (s : State) (v : Tables) : (s.withTables v).xm = s.xm := rfl
@[simp] theorem State.withTables_engine (s : State) (v : Tables) : (s.withTables v).engine = s.engine := rfl
@[simp] theorem State.withTables_tables (s : State) (v : Tables) : (s.withTables v).tables = v := rfl
@[simp] theorem State.withTables_intake (s : State) (v : Tables) : (s.withTables v).intake = s.intake := rfl
@[simp] theorem State.withTables_gauges (s : State) (v : Tables) : (s.withTables v).gauges = s.gauges := rfl
@[simp] theorem State.withTables_speed (s : State) (v : Tables) : (s.withTables v).speed = s.speed := rfl
@[simp] theorem State.withTables_store (s : State) (v : Tables) : (s.withTables v).store = s.store := rfl
@[simp] theorem State.withTables_lamps (s : State) (v : Tables) : (s.withTables v).lamps = s.lamps := rfl
@[simp] theorem State.withTables_chime (s : State) (v : Tables) : (s.withTables v).chime = s.chime := rfl
@[simp] theorem State.withTables_hours (s : State) (v : Tables) : (s.withTables v).hours = s.hours := rfl
@[simp] theorem State.withTables_stack (s : State) (v : Tables) : (s.withTables v).stack = s.stack := rfl
@[simp] theorem State.withTables_panel (s : State) (v : Tables) : (s.withTables v).panel = s.panel := rfl
@[simp] theorem State.withTables_prescale (s : State) (v : Tables) : (s.withTables v).prescale = s.prescale := rfl
@[simp] theorem State.withTables_pending (s : State) (v : Tables) : (s.withTables v).pending = s.pending := rfl
@[simp] theorem State.withTables_self (s : State) : s.withTables s.tables = s := rfl
@[simp] theorem State.withTables_withTables (s : State) (v w : Tables) : (s.withTables v).withTables w = s.withTables w := rfl

/-! ## State.withIntake -/

@[simp] theorem State.withIntake_mode (s : State) (v : Intake) : (s.withIntake v).mode = s.mode := rfl
@[simp] theorem State.withIntake_link (s : State) (v : Intake) : (s.withIntake v).link = s.link := rfl
@[simp] theorem State.withIntake_xm (s : State) (v : Intake) : (s.withIntake v).xm = s.xm := rfl
@[simp] theorem State.withIntake_engine (s : State) (v : Intake) : (s.withIntake v).engine = s.engine := rfl
@[simp] theorem State.withIntake_tables (s : State) (v : Intake) : (s.withIntake v).tables = s.tables := rfl
@[simp] theorem State.withIntake_intake (s : State) (v : Intake) : (s.withIntake v).intake = v := rfl
@[simp] theorem State.withIntake_gauges (s : State) (v : Intake) : (s.withIntake v).gauges = s.gauges := rfl
@[simp] theorem State.withIntake_speed (s : State) (v : Intake) : (s.withIntake v).speed = s.speed := rfl
@[simp] theorem State.withIntake_store (s : State) (v : Intake) : (s.withIntake v).store = s.store := rfl
@[simp] theorem State.withIntake_lamps (s : State) (v : Intake) : (s.withIntake v).lamps = s.lamps := rfl
@[simp] theorem State.withIntake_chime (s : State) (v : Intake) : (s.withIntake v).chime = s.chime := rfl
@[simp] theorem State.withIntake_hours (s : State) (v : Intake) : (s.withIntake v).hours = s.hours := rfl
@[simp] theorem State.withIntake_stack (s : State) (v : Intake) : (s.withIntake v).stack = s.stack := rfl
@[simp] theorem State.withIntake_panel (s : State) (v : Intake) : (s.withIntake v).panel = s.panel := rfl
@[simp] theorem State.withIntake_prescale (s : State) (v : Intake) : (s.withIntake v).prescale = s.prescale := rfl
@[simp] theorem State.withIntake_pending (s : State) (v : Intake) : (s.withIntake v).pending = s.pending := rfl
@[simp] theorem State.withIntake_self (s : State) : s.withIntake s.intake = s := rfl
@[simp] theorem State.withIntake_withIntake (s : State) (v w : Intake) : (s.withIntake v).withIntake w = s.withIntake w := rfl

/-! ## State.withGauges -/

@[simp] theorem State.withGauges_mode (s : State) (v : Vector Channel 8) : (s.withGauges v).mode = s.mode := rfl
@[simp] theorem State.withGauges_link (s : State) (v : Vector Channel 8) : (s.withGauges v).link = s.link := rfl
@[simp] theorem State.withGauges_xm (s : State) (v : Vector Channel 8) : (s.withGauges v).xm = s.xm := rfl
@[simp] theorem State.withGauges_engine (s : State) (v : Vector Channel 8) : (s.withGauges v).engine = s.engine := rfl
@[simp] theorem State.withGauges_tables (s : State) (v : Vector Channel 8) : (s.withGauges v).tables = s.tables := rfl
@[simp] theorem State.withGauges_intake (s : State) (v : Vector Channel 8) : (s.withGauges v).intake = s.intake := rfl
@[simp] theorem State.withGauges_gauges (s : State) (v : Vector Channel 8) : (s.withGauges v).gauges = v := rfl
@[simp] theorem State.withGauges_speed (s : State) (v : Vector Channel 8) : (s.withGauges v).speed = s.speed := rfl
@[simp] theorem State.withGauges_store (s : State) (v : Vector Channel 8) : (s.withGauges v).store = s.store := rfl
@[simp] theorem State.withGauges_lamps (s : State) (v : Vector Channel 8) : (s.withGauges v).lamps = s.lamps := rfl
@[simp] theorem State.withGauges_chime (s : State) (v : Vector Channel 8) : (s.withGauges v).chime = s.chime := rfl
@[simp] theorem State.withGauges_hours (s : State) (v : Vector Channel 8) : (s.withGauges v).hours = s.hours := rfl
@[simp] theorem State.withGauges_stack (s : State) (v : Vector Channel 8) : (s.withGauges v).stack = s.stack := rfl
@[simp] theorem State.withGauges_panel (s : State) (v : Vector Channel 8) : (s.withGauges v).panel = s.panel := rfl
@[simp] theorem State.withGauges_prescale (s : State) (v : Vector Channel 8) : (s.withGauges v).prescale = s.prescale := rfl
@[simp] theorem State.withGauges_pending (s : State) (v : Vector Channel 8) : (s.withGauges v).pending = s.pending := rfl
@[simp] theorem State.withGauges_self (s : State) : s.withGauges s.gauges = s := rfl
@[simp] theorem State.withGauges_withGauges (s : State) (v w : Vector Channel 8) : (s.withGauges v).withGauges w = s.withGauges w := rfl

/-! ## State.withSpeed -/

@[simp] theorem State.withSpeed_mode (s : State) (v : Speed) : (s.withSpeed v).mode = s.mode := rfl
@[simp] theorem State.withSpeed_link (s : State) (v : Speed) : (s.withSpeed v).link = s.link := rfl
@[simp] theorem State.withSpeed_xm (s : State) (v : Speed) : (s.withSpeed v).xm = s.xm := rfl
@[simp] theorem State.withSpeed_engine (s : State) (v : Speed) : (s.withSpeed v).engine = s.engine := rfl
@[simp] theorem State.withSpeed_tables (s : State) (v : Speed) : (s.withSpeed v).tables = s.tables := rfl
@[simp] theorem State.withSpeed_intake (s : State) (v : Speed) : (s.withSpeed v).intake = s.intake := rfl
@[simp] theorem State.withSpeed_gauges (s : State) (v : Speed) : (s.withSpeed v).gauges = s.gauges := rfl
@[simp] theorem State.withSpeed_speed (s : State) (v : Speed) : (s.withSpeed v).speed = v := rfl
@[simp] theorem State.withSpeed_store (s : State) (v : Speed) : (s.withSpeed v).store = s.store := rfl
@[simp] theorem State.withSpeed_lamps (s : State) (v : Speed) : (s.withSpeed v).lamps = s.lamps := rfl
@[simp] theorem State.withSpeed_chime (s : State) (v : Speed) : (s.withSpeed v).chime = s.chime := rfl
@[simp] theorem State.withSpeed_hours (s : State) (v : Speed) : (s.withSpeed v).hours = s.hours := rfl
@[simp] theorem State.withSpeed_stack (s : State) (v : Speed) : (s.withSpeed v).stack = s.stack := rfl
@[simp] theorem State.withSpeed_panel (s : State) (v : Speed) : (s.withSpeed v).panel = s.panel := rfl
@[simp] theorem State.withSpeed_prescale (s : State) (v : Speed) : (s.withSpeed v).prescale = s.prescale := rfl
@[simp] theorem State.withSpeed_pending (s : State) (v : Speed) : (s.withSpeed v).pending = s.pending := rfl
@[simp] theorem State.withSpeed_self (s : State) : s.withSpeed s.speed = s := rfl
@[simp] theorem State.withSpeed_withSpeed (s : State) (v w : Speed) : (s.withSpeed v).withSpeed w = s.withSpeed w := rfl

/-! ## State.withStore -/

@[simp] theorem State.withStore_mode (s : State) (v : Store) : (s.withStore v).mode = s.mode := rfl
@[simp] theorem State.withStore_link (s : State) (v : Store) : (s.withStore v).link = s.link := rfl
@[simp] theorem State.withStore_xm (s : State) (v : Store) : (s.withStore v).xm = s.xm := rfl
@[simp] theorem State.withStore_engine (s : State) (v : Store) : (s.withStore v).engine = s.engine := rfl
@[simp] theorem State.withStore_tables (s : State) (v : Store) : (s.withStore v).tables = s.tables := rfl
@[simp] theorem State.withStore_intake (s : State) (v : Store) : (s.withStore v).intake = s.intake := rfl
@[simp] theorem State.withStore_gauges (s : State) (v : Store) : (s.withStore v).gauges = s.gauges := rfl
@[simp] theorem State.withStore_speed (s : State) (v : Store) : (s.withStore v).speed = s.speed := rfl
@[simp] theorem State.withStore_store (s : State) (v : Store) : (s.withStore v).store = v := rfl
@[simp] theorem State.withStore_lamps (s : State) (v : Store) : (s.withStore v).lamps = s.lamps := rfl
@[simp] theorem State.withStore_chime (s : State) (v : Store) : (s.withStore v).chime = s.chime := rfl
@[simp] theorem State.withStore_hours (s : State) (v : Store) : (s.withStore v).hours = s.hours := rfl
@[simp] theorem State.withStore_stack (s : State) (v : Store) : (s.withStore v).stack = s.stack := rfl
@[simp] theorem State.withStore_panel (s : State) (v : Store) : (s.withStore v).panel = s.panel := rfl
@[simp] theorem State.withStore_prescale (s : State) (v : Store) : (s.withStore v).prescale = s.prescale := rfl
@[simp] theorem State.withStore_pending (s : State) (v : Store) : (s.withStore v).pending = s.pending := rfl
@[simp] theorem State.withStore_self (s : State) : s.withStore s.store = s := rfl
@[simp] theorem State.withStore_withStore (s : State) (v w : Store) : (s.withStore v).withStore w = s.withStore w := rfl

/-! ## State.withLamps -/

@[simp] theorem State.withLamps_mode (s : State) (v : Lamps) : (s.withLamps v).mode = s.mode := rfl
@[simp] theorem State.withLamps_link (s : State) (v : Lamps) : (s.withLamps v).link = s.link := rfl
@[simp] theorem State.withLamps_xm (s : State) (v : Lamps) : (s.withLamps v).xm = s.xm := rfl
@[simp] theorem State.withLamps_engine (s : State) (v : Lamps) : (s.withLamps v).engine = s.engine := rfl
@[simp] theorem State.withLamps_tables (s : State) (v : Lamps) : (s.withLamps v).tables = s.tables := rfl
@[simp] theorem State.withLamps_intake (s : State) (v : Lamps) : (s.withLamps v).intake = s.intake := rfl
@[simp] theorem State.withLamps_gauges (s : State) (v : Lamps) : (s.withLamps v).gauges = s.gauges := rfl
@[simp] theorem State.withLamps_speed (s : State) (v : Lamps) : (s.withLamps v).speed = s.speed := rfl
@[simp] theorem State.withLamps_store (s : State) (v : Lamps) : (s.withLamps v).store = s.store := rfl
@[simp] theorem State.withLamps_lamps (s : State) (v : Lamps) : (s.withLamps v).lamps = v := rfl
@[simp] theorem State.withLamps_chime (s : State) (v : Lamps) : (s.withLamps v).chime = s.chime := rfl
@[simp] theorem State.withLamps_hours (s : State) (v : Lamps) : (s.withLamps v).hours = s.hours := rfl
@[simp] theorem State.withLamps_stack (s : State) (v : Lamps) : (s.withLamps v).stack = s.stack := rfl
@[simp] theorem State.withLamps_panel (s : State) (v : Lamps) : (s.withLamps v).panel = s.panel := rfl
@[simp] theorem State.withLamps_prescale (s : State) (v : Lamps) : (s.withLamps v).prescale = s.prescale := rfl
@[simp] theorem State.withLamps_pending (s : State) (v : Lamps) : (s.withLamps v).pending = s.pending := rfl
@[simp] theorem State.withLamps_self (s : State) : s.withLamps s.lamps = s := rfl
@[simp] theorem State.withLamps_withLamps (s : State) (v w : Lamps) : (s.withLamps v).withLamps w = s.withLamps w := rfl

/-! ## State.withChime -/

@[simp] theorem State.withChime_mode (s : State) (v : Chime) : (s.withChime v).mode = s.mode := rfl
@[simp] theorem State.withChime_link (s : State) (v : Chime) : (s.withChime v).link = s.link := rfl
@[simp] theorem State.withChime_xm (s : State) (v : Chime) : (s.withChime v).xm = s.xm := rfl
@[simp] theorem State.withChime_engine (s : State) (v : Chime) : (s.withChime v).engine = s.engine := rfl
@[simp] theorem State.withChime_tables (s : State) (v : Chime) : (s.withChime v).tables = s.tables := rfl
@[simp] theorem State.withChime_intake (s : State) (v : Chime) : (s.withChime v).intake = s.intake := rfl
@[simp] theorem State.withChime_gauges (s : State) (v : Chime) : (s.withChime v).gauges = s.gauges := rfl
@[simp] theorem State.withChime_speed (s : State) (v : Chime) : (s.withChime v).speed = s.speed := rfl
@[simp] theorem State.withChime_store (s : State) (v : Chime) : (s.withChime v).store = s.store := rfl
@[simp] theorem State.withChime_lamps (s : State) (v : Chime) : (s.withChime v).lamps = s.lamps := rfl
@[simp] theorem State.withChime_chime (s : State) (v : Chime) : (s.withChime v).chime = v := rfl
@[simp] theorem State.withChime_hours (s : State) (v : Chime) : (s.withChime v).hours = s.hours := rfl
@[simp] theorem State.withChime_stack (s : State) (v : Chime) : (s.withChime v).stack = s.stack := rfl
@[simp] theorem State.withChime_panel (s : State) (v : Chime) : (s.withChime v).panel = s.panel := rfl
@[simp] theorem State.withChime_prescale (s : State) (v : Chime) : (s.withChime v).prescale = s.prescale := rfl
@[simp] theorem State.withChime_pending (s : State) (v : Chime) : (s.withChime v).pending = s.pending := rfl
@[simp] theorem State.withChime_self (s : State) : s.withChime s.chime = s := rfl
@[simp] theorem State.withChime_withChime (s : State) (v w : Chime) : (s.withChime v).withChime w = s.withChime w := rfl

/-! ## State.withHours -/

@[simp] theorem State.withHours_mode (s : State) (v : Hours) : (s.withHours v).mode = s.mode := rfl
@[simp] theorem State.withHours_link (s : State) (v : Hours) : (s.withHours v).link = s.link := rfl
@[simp] theorem State.withHours_xm (s : State) (v : Hours) : (s.withHours v).xm = s.xm := rfl
@[simp] theorem State.withHours_engine (s : State) (v : Hours) : (s.withHours v).engine = s.engine := rfl
@[simp] theorem State.withHours_tables (s : State) (v : Hours) : (s.withHours v).tables = s.tables := rfl
@[simp] theorem State.withHours_intake (s : State) (v : Hours) : (s.withHours v).intake = s.intake := rfl
@[simp] theorem State.withHours_gauges (s : State) (v : Hours) : (s.withHours v).gauges = s.gauges := rfl
@[simp] theorem State.withHours_speed (s : State) (v : Hours) : (s.withHours v).speed = s.speed := rfl
@[simp] theorem State.withHours_store (s : State) (v : Hours) : (s.withHours v).store = s.store := rfl
@[simp] theorem State.withHours_lamps (s : State) (v : Hours) : (s.withHours v).lamps = s.lamps := rfl
@[simp] theorem State.withHours_chime (s : State) (v : Hours) : (s.withHours v).chime = s.chime := rfl
@[simp] theorem State.withHours_hours (s : State) (v : Hours) : (s.withHours v).hours = v := rfl
@[simp] theorem State.withHours_stack (s : State) (v : Hours) : (s.withHours v).stack = s.stack := rfl
@[simp] theorem State.withHours_panel (s : State) (v : Hours) : (s.withHours v).panel = s.panel := rfl
@[simp] theorem State.withHours_prescale (s : State) (v : Hours) : (s.withHours v).prescale = s.prescale := rfl
@[simp] theorem State.withHours_pending (s : State) (v : Hours) : (s.withHours v).pending = s.pending := rfl
@[simp] theorem State.withHours_self (s : State) : s.withHours s.hours = s := rfl
@[simp] theorem State.withHours_withHours (s : State) (v w : Hours) : (s.withHours v).withHours w = s.withHours w := rfl

/-! ## State.withStack -/

@[simp] theorem State.withStack_mode (s : State) (v : Stack) : (s.withStack v).mode = s.mode := rfl
@[simp] theorem State.withStack_link (s : State) (v : Stack) : (s.withStack v).link = s.link := rfl
@[simp] theorem State.withStack_xm (s : State) (v : Stack) : (s.withStack v).xm = s.xm := rfl
@[simp] theorem State.withStack_engine (s : State) (v : Stack) : (s.withStack v).engine = s.engine := rfl
@[simp] theorem State.withStack_tables (s : State) (v : Stack) : (s.withStack v).tables = s.tables := rfl
@[simp] theorem State.withStack_intake (s : State) (v : Stack) : (s.withStack v).intake = s.intake := rfl
@[simp] theorem State.withStack_gauges (s : State) (v : Stack) : (s.withStack v).gauges = s.gauges := rfl
@[simp] theorem State.withStack_speed (s : State) (v : Stack) : (s.withStack v).speed = s.speed := rfl
@[simp] theorem State.withStack_store (s : State) (v : Stack) : (s.withStack v).store = s.store := rfl
@[simp] theorem State.withStack_lamps (s : State) (v : Stack) : (s.withStack v).lamps = s.lamps := rfl
@[simp] theorem State.withStack_chime (s : State) (v : Stack) : (s.withStack v).chime = s.chime := rfl
@[simp] theorem State.withStack_hours (s : State) (v : Stack) : (s.withStack v).hours = s.hours := rfl
@[simp] theorem State.withStack_stack (s : State) (v : Stack) : (s.withStack v).stack = v := rfl
@[simp] theorem State.withStack_panel (s : State) (v : Stack) : (s.withStack v).panel = s.panel := rfl
@[simp] theorem State.withStack_prescale (s : State) (v : Stack) : (s.withStack v).prescale = s.prescale := rfl
@[simp] theorem State.withStack_pending (s : State) (v : Stack) : (s.withStack v).pending = s.pending := rfl
@[simp] theorem State.withStack_self (s : State) : s.withStack s.stack = s := rfl
@[simp] theorem State.withStack_withStack (s : State) (v w : Stack) : (s.withStack v).withStack w = s.withStack w := rfl

/-! ## State.withPanel -/

@[simp] theorem State.withPanel_mode (s : State) (v : Panel) : (s.withPanel v).mode = s.mode := rfl
@[simp] theorem State.withPanel_link (s : State) (v : Panel) : (s.withPanel v).link = s.link := rfl
@[simp] theorem State.withPanel_xm (s : State) (v : Panel) : (s.withPanel v).xm = s.xm := rfl
@[simp] theorem State.withPanel_engine (s : State) (v : Panel) : (s.withPanel v).engine = s.engine := rfl
@[simp] theorem State.withPanel_tables (s : State) (v : Panel) : (s.withPanel v).tables = s.tables := rfl
@[simp] theorem State.withPanel_intake (s : State) (v : Panel) : (s.withPanel v).intake = s.intake := rfl
@[simp] theorem State.withPanel_gauges (s : State) (v : Panel) : (s.withPanel v).gauges = s.gauges := rfl
@[simp] theorem State.withPanel_speed (s : State) (v : Panel) : (s.withPanel v).speed = s.speed := rfl
@[simp] theorem State.withPanel_store (s : State) (v : Panel) : (s.withPanel v).store = s.store := rfl
@[simp] theorem State.withPanel_lamps (s : State) (v : Panel) : (s.withPanel v).lamps = s.lamps := rfl
@[simp] theorem State.withPanel_chime (s : State) (v : Panel) : (s.withPanel v).chime = s.chime := rfl
@[simp] theorem State.withPanel_hours (s : State) (v : Panel) : (s.withPanel v).hours = s.hours := rfl
@[simp] theorem State.withPanel_stack (s : State) (v : Panel) : (s.withPanel v).stack = s.stack := rfl
@[simp] theorem State.withPanel_panel (s : State) (v : Panel) : (s.withPanel v).panel = v := rfl
@[simp] theorem State.withPanel_prescale (s : State) (v : Panel) : (s.withPanel v).prescale = s.prescale := rfl
@[simp] theorem State.withPanel_pending (s : State) (v : Panel) : (s.withPanel v).pending = s.pending := rfl
@[simp] theorem State.withPanel_self (s : State) : s.withPanel s.panel = s := rfl
@[simp] theorem State.withPanel_withPanel (s : State) (v w : Panel) : (s.withPanel v).withPanel w = s.withPanel w := rfl

/-! ## State.withPending -/

@[simp] theorem State.withPending_mode (s : State) (v : List Instr) : (s.withPending v).mode = s.mode := rfl
@[simp] theorem State.withPending_link (s : State) (v : List Instr) : (s.withPending v).link = s.link := rfl
@[simp] theorem State.withPending_xm (s : State) (v : List Instr) : (s.withPending v).xm = s.xm := rfl
@[simp] theorem State.withPending_engine (s : State) (v : List Instr) : (s.withPending v).engine = s.engine := rfl
@[simp] theorem State.withPending_tables (s : State) (v : List Instr) : (s.withPending v).tables = s.tables := rfl
@[simp] theorem State.withPending_intake (s : State) (v : List Instr) : (s.withPending v).intake = s.intake := rfl
@[simp] theorem State.withPending_gauges (s : State) (v : List Instr) : (s.withPending v).gauges = s.gauges := rfl
@[simp] theorem State.withPending_speed (s : State) (v : List Instr) : (s.withPending v).speed = s.speed := rfl
@[simp] theorem State.withPending_store (s : State) (v : List Instr) : (s.withPending v).store = s.store := rfl
@[simp] theorem State.withPending_lamps (s : State) (v : List Instr) : (s.withPending v).lamps = s.lamps := rfl
@[simp] theorem State.withPending_chime (s : State) (v : List Instr) : (s.withPending v).chime = s.chime := rfl
@[simp] theorem State.withPending_hours (s : State) (v : List Instr) : (s.withPending v).hours = s.hours := rfl
@[simp] theorem State.withPending_stack (s : State) (v : List Instr) : (s.withPending v).stack = s.stack := rfl
@[simp] theorem State.withPending_panel (s : State) (v : List Instr) : (s.withPending v).panel = s.panel := rfl
@[simp] theorem State.withPending_prescale (s : State) (v : List Instr) : (s.withPending v).prescale = s.prescale := rfl
@[simp] theorem State.withPending_pending (s : State) (v : List Instr) : (s.withPending v).pending = v := rfl
@[simp] theorem State.withPending_self (s : State) : s.withPending s.pending = s := rfl
@[simp] theorem State.withPending_withPending (s : State) (v w : List Instr) : (s.withPending v).withPending w = s.withPending w := rfl

/-! ## One record of a unit, one word of memory, one cause -/

@[simp] theorem State.setChannel_mode (s : State) (c : Fin 8) (ch : Channel) : (s.setChannel c ch).mode = s.mode := rfl
@[simp] theorem State.setChannel_link (s : State) (c : Fin 8) (ch : Channel) : (s.setChannel c ch).link = s.link := rfl
@[simp] theorem State.setChannel_xm (s : State) (c : Fin 8) (ch : Channel) : (s.setChannel c ch).xm = s.xm := rfl
@[simp] theorem State.setChannel_engine (s : State) (c : Fin 8) (ch : Channel) : (s.setChannel c ch).engine = s.engine := rfl
@[simp] theorem State.setChannel_tables (s : State) (c : Fin 8) (ch : Channel) : (s.setChannel c ch).tables = s.tables := rfl
@[simp] theorem State.setChannel_intake (s : State) (c : Fin 8) (ch : Channel) : (s.setChannel c ch).intake = s.intake := rfl
@[simp] theorem State.setChannel_gauges (s : State) (c : Fin 8) (ch : Channel) : (s.setChannel c ch).gauges = putAt s.gauges c ch := rfl
@[simp] theorem State.setChannel_speed (s : State) (c : Fin 8) (ch : Channel) : (s.setChannel c ch).speed = s.speed := rfl
@[simp] theorem State.setChannel_store (s : State) (c : Fin 8) (ch : Channel) : (s.setChannel c ch).store = s.store := rfl
@[simp] theorem State.setChannel_lamps (s : State) (c : Fin 8) (ch : Channel) : (s.setChannel c ch).lamps = s.lamps := rfl
@[simp] theorem State.setChannel_chime (s : State) (c : Fin 8) (ch : Channel) : (s.setChannel c ch).chime = s.chime := rfl
@[simp] theorem State.setChannel_hours (s : State) (c : Fin 8) (ch : Channel) : (s.setChannel c ch).hours = s.hours := rfl
@[simp] theorem State.setChannel_stack (s : State) (c : Fin 8) (ch : Channel) : (s.setChannel c ch).stack = s.stack := rfl
@[simp] theorem State.setChannel_panel (s : State) (c : Fin 8) (ch : Channel) : (s.setChannel c ch).panel = s.panel := rfl
@[simp] theorem State.setChannel_prescale (s : State) (c : Fin 8) (ch : Channel) : (s.setChannel c ch).prescale = s.prescale := rfl
@[simp] theorem State.setChannel_pending (s : State) (c : Fin 8) (ch : Channel) : (s.setChannel c ch).pending = s.pending := rfl

@[simp] theorem State.setLamp_mode (s : State) (n : Fin 40) (r : LampRec) : (s.setLamp n r).mode = s.mode := rfl
@[simp] theorem State.setLamp_link (s : State) (n : Fin 40) (r : LampRec) : (s.setLamp n r).link = s.link := rfl
@[simp] theorem State.setLamp_xm (s : State) (n : Fin 40) (r : LampRec) : (s.setLamp n r).xm = s.xm := rfl
@[simp] theorem State.setLamp_engine (s : State) (n : Fin 40) (r : LampRec) : (s.setLamp n r).engine = s.engine := rfl
@[simp] theorem State.setLamp_tables (s : State) (n : Fin 40) (r : LampRec) : (s.setLamp n r).tables = s.tables := rfl
@[simp] theorem State.setLamp_intake (s : State) (n : Fin 40) (r : LampRec) : (s.setLamp n r).intake = s.intake := rfl
@[simp] theorem State.setLamp_gauges (s : State) (n : Fin 40) (r : LampRec) : (s.setLamp n r).gauges = s.gauges := rfl
@[simp] theorem State.setLamp_speed (s : State) (n : Fin 40) (r : LampRec) : (s.setLamp n r).speed = s.speed := rfl
@[simp] theorem State.setLamp_store (s : State) (n : Fin 40) (r : LampRec) : (s.setLamp n r).store = s.store := rfl
@[simp] theorem State.setLamp_lamps (s : State) (n : Fin 40) (r : LampRec) : (s.setLamp n r).lamps = { s.lamps with recs := putAt s.lamps.recs n r } := rfl
@[simp] theorem State.setLamp_chime (s : State) (n : Fin 40) (r : LampRec) : (s.setLamp n r).chime = s.chime := rfl
@[simp] theorem State.setLamp_hours (s : State) (n : Fin 40) (r : LampRec) : (s.setLamp n r).hours = s.hours := rfl
@[simp] theorem State.setLamp_stack (s : State) (n : Fin 40) (r : LampRec) : (s.setLamp n r).stack = s.stack := rfl
@[simp] theorem State.setLamp_panel (s : State) (n : Fin 40) (r : LampRec) : (s.setLamp n r).panel = s.panel := rfl
@[simp] theorem State.setLamp_prescale (s : State) (n : Fin 40) (r : LampRec) : (s.setLamp n r).prescale = s.prescale := rfl
@[simp] theorem State.setLamp_pending (s : State) (n : Fin 40) (r : LampRec) : (s.setLamp n r).pending = s.pending := rfl

@[simp] theorem State.setSlot_mode (s : State) (i : Fin 64) (r : SlotRec) : (s.setSlot i r).mode = s.mode := rfl
@[simp] theorem State.setSlot_link (s : State) (i : Fin 64) (r : SlotRec) : (s.setSlot i r).link = s.link := rfl
@[simp] theorem State.setSlot_xm (s : State) (i : Fin 64) (r : SlotRec) : (s.setSlot i r).xm = s.xm := rfl
@[simp] theorem State.setSlot_engine (s : State) (i : Fin 64) (r : SlotRec) : (s.setSlot i r).engine = s.engine := rfl
@[simp] theorem State.setSlot_tables (s : State) (i : Fin 64) (r : SlotRec) : (s.setSlot i r).tables = s.tables := rfl
@[simp] theorem State.setSlot_intake (s : State) (i : Fin 64) (r : SlotRec) : (s.setSlot i r).intake = { s.intake with slots := putAt s.intake.slots i r } := rfl
@[simp] theorem State.setSlot_gauges (s : State) (i : Fin 64) (r : SlotRec) : (s.setSlot i r).gauges = s.gauges := rfl
@[simp] theorem State.setSlot_speed (s : State) (i : Fin 64) (r : SlotRec) : (s.setSlot i r).speed = s.speed := rfl
@[simp] theorem State.setSlot_store (s : State) (i : Fin 64) (r : SlotRec) : (s.setSlot i r).store = s.store := rfl
@[simp] theorem State.setSlot_lamps (s : State) (i : Fin 64) (r : SlotRec) : (s.setSlot i r).lamps = s.lamps := rfl
@[simp] theorem State.setSlot_chime (s : State) (i : Fin 64) (r : SlotRec) : (s.setSlot i r).chime = s.chime := rfl
@[simp] theorem State.setSlot_hours (s : State) (i : Fin 64) (r : SlotRec) : (s.setSlot i r).hours = s.hours := rfl
@[simp] theorem State.setSlot_stack (s : State) (i : Fin 64) (r : SlotRec) : (s.setSlot i r).stack = s.stack := rfl
@[simp] theorem State.setSlot_panel (s : State) (i : Fin 64) (r : SlotRec) : (s.setSlot i r).panel = s.panel := rfl
@[simp] theorem State.setSlot_prescale (s : State) (i : Fin 64) (r : SlotRec) : (s.setSlot i r).prescale = s.prescale := rfl
@[simp] theorem State.setSlot_pending (s : State) (i : Fin 64) (r : SlotRec) : (s.setSlot i r).pending = s.pending := rfl

@[simp] theorem State.setDebouncer_mode (s : State) (k : Key) (d : Debouncer) : (s.setDebouncer k d).mode = s.mode := rfl
@[simp] theorem State.setDebouncer_link (s : State) (k : Key) (d : Debouncer) : (s.setDebouncer k d).link = s.link := rfl
@[simp] theorem State.setDebouncer_xm (s : State) (k : Key) (d : Debouncer) : (s.setDebouncer k d).xm = s.xm := rfl
@[simp] theorem State.setDebouncer_engine (s : State) (k : Key) (d : Debouncer) : (s.setDebouncer k d).engine = s.engine := rfl
@[simp] theorem State.setDebouncer_tables (s : State) (k : Key) (d : Debouncer) : (s.setDebouncer k d).tables = s.tables := rfl
@[simp] theorem State.setDebouncer_intake (s : State) (k : Key) (d : Debouncer) : (s.setDebouncer k d).intake = s.intake := rfl
@[simp] theorem State.setDebouncer_gauges (s : State) (k : Key) (d : Debouncer) : (s.setDebouncer k d).gauges = s.gauges := rfl
@[simp] theorem State.setDebouncer_speed (s : State) (k : Key) (d : Debouncer) : (s.setDebouncer k d).speed = s.speed := rfl
@[simp] theorem State.setDebouncer_store (s : State) (k : Key) (d : Debouncer) : (s.setDebouncer k d).store = s.store := rfl
@[simp] theorem State.setDebouncer_lamps (s : State) (k : Key) (d : Debouncer) : (s.setDebouncer k d).lamps = s.lamps := rfl
@[simp] theorem State.setDebouncer_chime (s : State) (k : Key) (d : Debouncer) : (s.setDebouncer k d).chime = s.chime := rfl
@[simp] theorem State.setDebouncer_hours (s : State) (k : Key) (d : Debouncer) : (s.setDebouncer k d).hours = s.hours := rfl
@[simp] theorem State.setDebouncer_stack (s : State) (k : Key) (d : Debouncer) : (s.setDebouncer k d).stack = s.stack := rfl
@[simp] theorem State.setDebouncer_panel (s : State) (k : Key) (d : Debouncer) : (s.setDebouncer k d).panel = s.panel.withDebouncer k d := rfl
@[simp] theorem State.setDebouncer_prescale (s : State) (k : Key) (d : Debouncer) : (s.setDebouncer k d).prescale = s.prescale := rfl
@[simp] theorem State.setDebouncer_pending (s : State) (k : Key) (d : Debouncer) : (s.setDebouncer k d).pending = s.pending := rfl

@[simp] theorem State.setIgnition_mode (s : State) (on : Bool) : (s.setIgnition on).mode = { s.mode with ignition := on, settle := 0 } := rfl
@[simp] theorem State.setIgnition_link (s : State) (on : Bool) : (s.setIgnition on).link = s.link := rfl
@[simp] theorem State.setIgnition_xm (s : State) (on : Bool) : (s.setIgnition on).xm = s.xm := rfl
@[simp] theorem State.setIgnition_engine (s : State) (on : Bool) : (s.setIgnition on).engine = s.engine := rfl
@[simp] theorem State.setIgnition_tables (s : State) (on : Bool) : (s.setIgnition on).tables = s.tables := rfl
@[simp] theorem State.setIgnition_intake (s : State) (on : Bool) : (s.setIgnition on).intake = s.intake := rfl
@[simp] theorem State.setIgnition_gauges (s : State) (on : Bool) : (s.setIgnition on).gauges = s.gauges := rfl
@[simp] theorem State.setIgnition_speed (s : State) (on : Bool) : (s.setIgnition on).speed = s.speed := rfl
@[simp] theorem State.setIgnition_store (s : State) (on : Bool) : (s.setIgnition on).store = s.store := rfl
@[simp] theorem State.setIgnition_lamps (s : State) (on : Bool) : (s.setIgnition on).lamps = s.lamps := rfl
@[simp] theorem State.setIgnition_chime (s : State) (on : Bool) : (s.setIgnition on).chime = s.chime := rfl
@[simp] theorem State.setIgnition_hours (s : State) (on : Bool) : (s.setIgnition on).hours = s.hours := rfl
@[simp] theorem State.setIgnition_stack (s : State) (on : Bool) : (s.setIgnition on).stack = s.stack := rfl
@[simp] theorem State.setIgnition_panel (s : State) (on : Bool) : (s.setIgnition on).panel = s.panel := rfl
@[simp] theorem State.setIgnition_prescale (s : State) (on : Bool) : (s.setIgnition on).prescale = s.prescale := rfl
@[simp] theorem State.setIgnition_pending (s : State) (on : Bool) : (s.setIgnition on).pending = s.pending := rfl

@[simp] theorem State.raise_mode (s : State) (c : Cause) : (s.raise c).mode = s.mode := rfl
@[simp] theorem State.raise_link (s : State) (c : Cause) : (s.raise c).link = s.link.raise c := rfl
@[simp] theorem State.raise_xm (s : State) (c : Cause) : (s.raise c).xm = s.xm := rfl
@[simp] theorem State.raise_engine (s : State) (c : Cause) : (s.raise c).engine = s.engine := rfl
@[simp] theorem State.raise_tables (s : State) (c : Cause) : (s.raise c).tables = s.tables := rfl
@[simp] theorem State.raise_intake (s : State) (c : Cause) : (s.raise c).intake = s.intake := rfl
@[simp] theorem State.raise_gauges (s : State) (c : Cause) : (s.raise c).gauges = s.gauges := rfl
@[simp] theorem State.raise_speed (s : State) (c : Cause) : (s.raise c).speed = s.speed := rfl
@[simp] theorem State.raise_store (s : State) (c : Cause) : (s.raise c).store = s.store := rfl
@[simp] theorem State.raise_lamps (s : State) (c : Cause) : (s.raise c).lamps = s.lamps := rfl
@[simp] theorem State.raise_chime (s : State) (c : Cause) : (s.raise c).chime = s.chime := rfl
@[simp] theorem State.raise_hours (s : State) (c : Cause) : (s.raise c).hours = s.hours := rfl
@[simp] theorem State.raise_stack (s : State) (c : Cause) : (s.raise c).stack = s.stack := rfl
@[simp] theorem State.raise_panel (s : State) (c : Cause) : (s.raise c).panel = s.panel := rfl
@[simp] theorem State.raise_prescale (s : State) (c : Cause) : (s.raise c).prescale = s.prescale := rfl
@[simp] theorem State.raise_pending (s : State) (c : Cause) : (s.raise c).pending = s.pending := rfl

@[simp] theorem State.writeXm_mode (s : State) (a : Nat) (w : Word) : (s.writeXm a w).mode = s.mode := rfl
@[simp] theorem State.writeXm_link (s : State) (a : Nat) (w : Word) : (s.writeXm a w).link = s.link := rfl
@[simp] theorem State.writeXm_xm (s : State) (a : Nat) (w : Word) : (s.writeXm a w).xm = if a < 4096 then s.xm.write a w else s.xm := rfl
@[simp] theorem State.writeXm_engine (s : State) (a : Nat) (w : Word) : (s.writeXm a w).engine = s.engine := rfl
@[simp] theorem State.writeXm_tables (s : State) (a : Nat) (w : Word) : (s.writeXm a w).tables = s.tables := rfl
@[simp] theorem State.writeXm_intake (s : State) (a : Nat) (w : Word) : (s.writeXm a w).intake = s.intake := rfl
@[simp] theorem State.writeXm_gauges (s : State) (a : Nat) (w : Word) : (s.writeXm a w).gauges = s.gauges := rfl
@[simp] theorem State.writeXm_speed (s : State) (a : Nat) (w : Word) : (s.writeXm a w).speed = s.speed := rfl
@[simp] theorem State.writeXm_store (s : State) (a : Nat) (w : Word) : (s.writeXm a w).store = s.store := rfl
@[simp] theorem State.writeXm_lamps (s : State) (a : Nat) (w : Word) : (s.writeXm a w).lamps = s.lamps := rfl
@[simp] theorem State.writeXm_chime (s : State) (a : Nat) (w : Word) : (s.writeXm a w).chime = s.chime := rfl
@[simp] theorem State.writeXm_hours (s : State) (a : Nat) (w : Word) : (s.writeXm a w).hours = s.hours := rfl
@[simp] theorem State.writeXm_stack (s : State) (a : Nat) (w : Word) : (s.writeXm a w).stack = s.stack := rfl
@[simp] theorem State.writeXm_panel (s : State) (a : Nat) (w : Word) : (s.writeXm a w).panel = s.panel := rfl
@[simp] theorem State.writeXm_prescale (s : State) (a : Nat) (w : Word) : (s.writeXm a w).prescale = s.prescale := rfl
@[simp] theorem State.writeXm_pending (s : State) (a : Nat) (w : Word) : (s.writeXm a w).pending = s.pending := rfl

@[simp] theorem State.request_mode (s : State) (f : Chime → Chime) : (s.request f).mode = s.mode := rfl
@[simp] theorem State.request_link (s : State) (f : Chime → Chime) : (s.request f).link = s.link := rfl
@[simp] theorem State.request_xm (s : State) (f : Chime → Chime) : (s.request f).xm = s.xm := rfl
@[simp] theorem State.request_engine (s : State) (f : Chime → Chime) : (s.request f).engine = s.engine := rfl
@[simp] theorem State.request_tables (s : State) (f : Chime → Chime) : (s.request f).tables = s.tables := rfl
@[simp] theorem State.request_intake (s : State) (f : Chime → Chime) : (s.request f).intake = s.intake := rfl
@[simp] theorem State.request_gauges (s : State) (f : Chime → Chime) : (s.request f).gauges = s.gauges := rfl
@[simp] theorem State.request_speed (s : State) (f : Chime → Chime) : (s.request f).speed = s.speed := rfl
@[simp] theorem State.request_store (s : State) (f : Chime → Chime) : (s.request f).store = s.store := rfl
@[simp] theorem State.request_lamps (s : State) (f : Chime → Chime) : (s.request f).lamps = s.lamps := rfl
@[simp] theorem State.request_chime (s : State) (f : Chime → Chime) : (s.request f).chime = if s.mode.mode.chimes then f s.chime else s.chime := rfl
@[simp] theorem State.request_hours (s : State) (f : Chime → Chime) : (s.request f).hours = s.hours := rfl
@[simp] theorem State.request_stack (s : State) (f : Chime → Chime) : (s.request f).stack = s.stack := rfl
@[simp] theorem State.request_panel (s : State) (f : Chime → Chime) : (s.request f).panel = s.panel := rfl
@[simp] theorem State.request_prescale (s : State) (f : Chime → Chime) : (s.request f).prescale = s.prescale := rfl
@[simp] theorem State.request_pending (s : State) (f : Chime → Chime) : (s.request f).pending = s.pending := rfl

@[simp] theorem State.stopChime_mode (s : State) : (s.stopChime).mode = s.mode := rfl
@[simp] theorem State.stopChime_link (s : State) : (s.stopChime).link = s.link := rfl
@[simp] theorem State.stopChime_xm (s : State) : (s.stopChime).xm = s.xm := rfl
@[simp] theorem State.stopChime_engine (s : State) : (s.stopChime).engine = s.engine := rfl
@[simp] theorem State.stopChime_tables (s : State) : (s.stopChime).tables = s.tables := rfl
@[simp] theorem State.stopChime_intake (s : State) : (s.stopChime).intake = s.intake := rfl
@[simp] theorem State.stopChime_gauges (s : State) : (s.stopChime).gauges = s.gauges := rfl
@[simp] theorem State.stopChime_speed (s : State) : (s.stopChime).speed = s.speed := rfl
@[simp] theorem State.stopChime_store (s : State) : (s.stopChime).store = s.store := rfl
@[simp] theorem State.stopChime_lamps (s : State) : (s.stopChime).lamps = s.lamps := rfl
@[simp] theorem State.stopChime_chime (s : State) : (s.stopChime).chime = Chime.reset := rfl
@[simp] theorem State.stopChime_hours (s : State) : (s.stopChime).hours = s.hours := rfl
@[simp] theorem State.stopChime_stack (s : State) : (s.stopChime).stack = s.stack := rfl
@[simp] theorem State.stopChime_panel (s : State) : (s.stopChime).panel = s.panel := rfl
@[simp] theorem State.stopChime_prescale (s : State) : (s.stopChime).prescale = s.prescale := rfl
@[simp] theorem State.stopChime_pending (s : State) : (s.stopChime).pending = s.pending := rfl

@[simp] theorem State.endOperation_mode (s : State) : (s.endOperation).mode = s.mode := rfl
@[simp] theorem State.endOperation_link (s : State) : (s.endOperation).link = s.link := rfl
@[simp] theorem State.endOperation_xm (s : State) : (s.endOperation).xm = s.xm := rfl
@[simp] theorem State.endOperation_engine (s : State) : (s.endOperation).engine = s.engine := rfl
@[simp] theorem State.endOperation_tables (s : State) : (s.endOperation).tables = s.tables := rfl
@[simp] theorem State.endOperation_intake (s : State) : (s.endOperation).intake = s.intake := rfl
@[simp] theorem State.endOperation_gauges (s : State) : (s.endOperation).gauges = s.gauges := rfl
@[simp] theorem State.endOperation_speed (s : State) : (s.endOperation).speed = s.speed := rfl
@[simp] theorem State.endOperation_store (s : State) : (s.endOperation).store = s.store.goOn s.speed.odometer := rfl
@[simp] theorem State.endOperation_lamps (s : State) : (s.endOperation).lamps = s.lamps := rfl
@[simp] theorem State.endOperation_chime (s : State) : (s.endOperation).chime = s.chime := rfl
@[simp] theorem State.endOperation_hours (s : State) : (s.endOperation).hours = s.hours := rfl
@[simp] theorem State.endOperation_stack (s : State) : (s.endOperation).stack = s.stack := rfl
@[simp] theorem State.endOperation_panel (s : State) : (s.endOperation).panel = s.panel := rfl
@[simp] theorem State.endOperation_prescale (s : State) : (s.endOperation).prescale = s.prescale := rfl
@[simp] theorem State.endOperation_pending (s : State) : (s.endOperation).pending = s.pending := rfl

@[simp] theorem State.addUnits_mode (s : State) (n : Nat) : (s.addUnits n).mode = s.mode := rfl
@[simp] theorem State.addUnits_link (s : State) (n : Nat) : (s.addUnits n).link = s.link := rfl
@[simp] theorem State.addUnits_xm (s : State) (n : Nat) : (s.addUnits n).xm = s.xm := rfl
@[simp] theorem State.addUnits_engine (s : State) (n : Nat) : (s.addUnits n).engine = s.engine := rfl
@[simp] theorem State.addUnits_tables (s : State) (n : Nat) : (s.addUnits n).tables = s.tables := rfl
@[simp] theorem State.addUnits_intake (s : State) (n : Nat) : (s.addUnits n).intake = s.intake := rfl
@[simp] theorem State.addUnits_gauges (s : State) (n : Nat) : (s.addUnits n).gauges = s.gauges := rfl
@[simp] theorem State.addUnits_speed (s : State) (n : Nat) : (s.addUnits n).speed = s.speed.addUnits n := rfl
@[simp] theorem State.addUnits_lamps (s : State) (n : Nat) : (s.addUnits n).lamps = s.lamps := rfl
@[simp] theorem State.addUnits_chime (s : State) (n : Nat) : (s.addUnits n).chime = s.chime := rfl
@[simp] theorem State.addUnits_hours (s : State) (n : Nat) : (s.addUnits n).hours = s.hours := rfl
@[simp] theorem State.addUnits_stack (s : State) (n : Nat) : (s.addUnits n).stack = s.stack := rfl
@[simp] theorem State.addUnits_panel (s : State) (n : Nat) : (s.addUnits n).panel = s.panel := rfl
@[simp] theorem State.addUnits_prescale (s : State) (n : Nat) : (s.addUnits n).prescale = s.prescale := rfl
@[simp] theorem State.addUnits_pending (s : State) (n : Nat) : (s.addUnits n).pending = s.pending := rfl

@[simp] theorem State.setMode_mode (s : State) (m : DeviceMode) : (s.setMode m).mode = { s.mode with mode := m } := rfl
@[simp] theorem State.setMode_link (s : State) (m : DeviceMode) : (s.setMode m).link = s.link.raise .modeChange := rfl
@[simp] theorem State.setMode_xm (s : State) (m : DeviceMode) : (s.setMode m).xm = s.xm := rfl
@[simp] theorem State.setMode_engine (s : State) (m : DeviceMode) : (s.setMode m).engine = s.engine := rfl
@[simp] theorem State.setMode_tables (s : State) (m : DeviceMode) : (s.setMode m).tables = s.tables := rfl
@[simp] theorem State.setMode_intake (s : State) (m : DeviceMode) : (s.setMode m).intake = s.intake := rfl
@[simp] theorem State.setMode_gauges (s : State) (m : DeviceMode) : (s.setMode m).gauges = s.gauges := rfl
@[simp] theorem State.setMode_speed (s : State) (m : DeviceMode) : (s.setMode m).speed = s.speed := rfl
@[simp] theorem State.setMode_store (s : State) (m : DeviceMode) : (s.setMode m).store = s.store := rfl
@[simp] theorem State.setMode_lamps (s : State) (m : DeviceMode) : (s.setMode m).lamps = s.lamps := rfl
@[simp] theorem State.setMode_chime (s : State) (m : DeviceMode) : (s.setMode m).chime = s.chime := rfl
@[simp] theorem State.setMode_hours (s : State) (m : DeviceMode) : (s.setMode m).hours = s.hours := rfl
@[simp] theorem State.setMode_stack (s : State) (m : DeviceMode) : (s.setMode m).stack = s.stack := rfl
@[simp] theorem State.setMode_panel (s : State) (m : DeviceMode) : (s.setMode m).panel = s.panel := rfl
@[simp] theorem State.setMode_prescale (s : State) (m : DeviceMode) : (s.setMode m).prescale = s.prescale := rfl
@[simp] theorem State.setMode_pending (s : State) (m : DeviceMode) : (s.setMode m).pending = s.pending := rfl

end Sys2Proof.Machine
end

