-- ==== Sys2Proof/Laws/Memory.lean ====
section
/-! SUPPORT. Exchange memory: every write keeps the canonical form and changes one word. -/

namespace Sys2Proof.Machine

/-! ## The list -/

/-- A canonical form from a higher address is one from a lower address. -/
theorem Memory.wfFrom_mono {m : Memory} {lo hi : Nat} (h : Memory.wfFrom hi m = true) (le : lo ≤ hi) :
    Memory.wfFrom lo m = true := by
  cases m with
  | nil => rfl
  | cons p m =>
    simp only [Memory.wfFrom, Bool.and_eq_true, decide_eq_true_eq] at h ⊢
    exact ⟨⟨⟨by omega, h.1.1.2⟩, h.1.2⟩, h.2⟩

/-- A write keeps the canonical form. -/
theorem Memory.wfFrom_write {m : Memory} {lo a : Nat} {w : Word} (h : Memory.wfFrom lo m = true) (la : lo ≤ a)
    (ha : a < 4096) : Memory.wfFrom lo (m.write a w) = true := by
  induction m generalizing lo with
  | nil => simp only [Memory.write]; split <;> simp_all [Memory.wfFrom]
  | cons p m ih =>
    obtain ⟨b, v⟩ := p
    simp only [Memory.wfFrom, Bool.and_eq_true, decide_eq_true_eq] at h
    obtain ⟨⟨⟨h1, h2⟩, h3⟩, h4⟩ := h
    simp only [Memory.write]
    split
    · split
      · simp only [Memory.wfFrom, Bool.and_eq_true, decide_eq_true_eq]
        exact ⟨⟨⟨h1, h2⟩, h3⟩, h4⟩
      · simp only [Memory.wfFrom, Bool.and_eq_true, decide_eq_true_eq]
        exact ⟨⟨⟨la, ha⟩, by assumption⟩, ⟨⟨by omega, h2⟩, h3⟩, h4⟩
    · split
      · split
        · exact Memory.wfFrom_mono h4 (by omega)
        · simp only [Memory.wfFrom, Bool.and_eq_true, decide_eq_true_eq]
          subst_vars
          exact ⟨⟨⟨la, ha⟩, by assumption⟩, h4⟩
      · simp only [Memory.wfFrom, Bool.and_eq_true, decide_eq_true_eq]
        exact ⟨⟨⟨h1, h2⟩, h3⟩, ih (lo := b + 1) h4 (by omega)⟩

/-- Below its first address a canonical list reads zero. -/
theorem Memory.read_below {m : Memory} {lo a : Nat} (h : Memory.wfFrom lo m = true) (la : a < lo) : m.read a = 0 := by
  induction m generalizing lo with
  | nil => rfl
  | cons p m ih =>
    obtain ⟨b, v⟩ := p
    simp only [Memory.wfFrom, Bool.and_eq_true, decide_eq_true_eq] at h
    simp only [Memory.read]
    rw [if_neg (by omega)]
    exact ih h.2 (by omega)

/-- Reading after a write to a canonical list. -/
theorem Memory.read_write {m : Memory} {lo : Nat} (h : Memory.wfFrom lo m = true) (a b : Nat) (w : Word) :
    (m.write a w).read b = if b = a then w else m.read b := by
  induction m generalizing lo with
  | nil =>
    simp only [Memory.write]
    split <;> simp_all [Memory.read]
  | cons p m ih =>
    obtain ⟨c, v⟩ := p
    simp only [Memory.wfFrom, Bool.and_eq_true, decide_eq_true_eq] at h
    obtain ⟨⟨⟨h1, h2⟩, h3⟩, h4⟩ := h
    simp only [Memory.write]
    split
    · rename_i hac
      split
      · rename_i hw
        subst hw
        by_cases hb : b = a
        · subst hb
          rw [if_pos rfl]
          simp only [Memory.read]
          rw [if_neg (by omega)]
          exact Memory.read_below h4 (by omega)
        · rw [if_neg hb]
      · simp only [Memory.read]
    · split
      · rename_i hne heq
        subst heq
        split
        · rename_i hw
          subst hw
          by_cases hb : b = a
          · subst hb; rw [if_pos rfl]; exact Memory.read_below h4 (by omega)
          · simp [Memory.read, hb]
        · simp only [Memory.read]
          by_cases hb : b = a <;> simp [hb]
      · simp only [Memory.read]
        by_cases hb : b = c
        · subst hb
          rw [if_pos rfl, if_pos rfl, if_neg (by omega)]
        · rw [if_neg hb, if_neg hb, ih h4]

/-! ## Exchange memory in the state -/

/-- A write to exchange memory keeps the canonical form. -/
theorem State.writeXm_wf {s : State} (h : s.xm.wf = true) (a : Nat) (w : Word) : (s.writeXm a w).xm.wf = true := by
  simp only [State.writeXm_xm]
  split
  · exact Memory.wfFrom_write h (Nat.zero_le _) (by assumption)
  · exact h

/-- Reading a word after a write of one that exists. -/
theorem State.readXm_writeXm {s : State} (h : s.xm.wf = true) {a : Nat} (ha : a < 4096) (b : Nat) (w : Word) :
    (s.writeXm a w).readXm b = if b = a then w else s.readXm b := by
  simp only [State.readXm, State.writeXm_xm, if_pos ha]
  exact Memory.read_write h a b w

/-- A write changes no other word. -/
theorem State.readXm_writeXm_ne {s : State} (h : s.xm.wf = true) {a b : Nat} (ne : b ≠ a) (w : Word) :
    (s.writeXm a w).readXm b = s.readXm b := by
  by_cases ha : a < 4096
  · rw [State.readXm_writeXm h ha, if_neg ne]
  · simp [State.readXm, ha]

/-- Writing consecutive words keeps the canonical form. -/
theorem State.writeWords_wf {s : State} (h : s.xm.wf = true) (a : Nat) (ws : List Word) :
    (s.writeWords a ws).xm.wf = true := by
  induction ws generalizing s a with
  | nil => exact h
  | cons w ws ih => exact ih (State.writeXm_wf h a w) (a + 1)

/-- Writing consecutive words changes exchange memory alone. -/
theorem State.writeWords_eq (s : State) (a : Nat) (ws : List Word) :
    s.writeWords a ws = s.withXm (s.writeWords a ws).xm := by
  induction ws generalizing s a with
  | nil => rfl
  | cons w ws ih =>
    simp only [State.writeWords]
    rw [ih (s.writeXm a w) (a + 1)]
    rfl

/-- Writing consecutive words leaves the words before and behind them. -/
theorem State.readXm_writeWords_ne {s : State} (h : s.xm.wf = true) (a b : Nat) (ws : List Word)
    (out : b < a ∨ a + ws.length ≤ b) : (s.writeWords a ws).readXm b = s.readXm b := by
  induction ws generalizing s a with
  | nil => rfl
  | cons w ws ih =>
    simp only [State.writeWords, List.length_cons] at out ⊢
    rw [ih (State.writeXm_wf h a w) (a + 1) (by omega), State.readXm_writeXm_ne h (by omega)]

/-- A word written among consecutive ones reads back. -/
theorem State.readXm_writeWords {s : State} (h : s.xm.wf = true) (a i : Nat) (ws : List Word) (w : Word)
    (hi : ws[i]? = some w) (inside : a + ws.length ≤ 4096) : (s.writeWords a ws).readXm (a + i) = w := by
  induction ws generalizing s a i with
  | nil => simp at hi
  | cons v ws ih =>
    simp only [State.writeWords, List.length_cons] at inside ⊢
    cases i with
    | zero =>
      rw [State.readXm_writeWords_ne (State.writeXm_wf h a v) _ _ _ (by omega),
        State.readXm_writeXm h (by omega)]
      simpa using hi
    | succ i =>
      have := ih (State.writeXm_wf h a v) (a + 1) i (by simpa using hi) (by omega)
      rw [show a + (i + 1) = a + 1 + i by omega]
      exact this

/-- Memory after reset has its canonical form. -/
theorem State.reset_xm_wf : State.reset.xm.wf = true := rfl

end Sys2Proof.Machine
end

