-- ==== Sys2Proof/Laws/Frames.lean ====
section
/-! SUPPORT. Which units an operation touches: for each shared operation and each unit it leaves alone, the unit reads
as before. -/

namespace Sys2Proof.Machine

/-- A fold keeps what each of its steps keeps. -/
theorem foldl_keeps {σ α β : Type} (f : σ → α → σ) (g : σ → β) (h : ∀ s a, g (f s a) = g s) (l : List α) (s : σ) :
    g (l.foldl f s) = g s := by
  induction l generalizing s with
  | nil => rfl
  | cons a l ih => rw [List.foldl_cons, ih, h]

/-- A fold keeps an invariant that each of its steps keeps. -/
theorem foldl_invariant {σ α : Type} (f : σ → α → σ) (p : σ → Prop) (h : ∀ s a, p s → p (f s a)) (l : List α) (s : σ)
    (hs : p s) : p (l.foldl f s) := by
  induction l generalizing s with
  | nil => exact hs
  | cons a l ih => exact ih _ (h s a hs)

/-! ## State.takeStack -/

@[simp] theorem State.takeStack_mode (s : State) (r : Stack × List Severity) : (s.takeStack r).mode = s.mode := rfl
@[simp] theorem State.takeStack_xm (s : State) (r : Stack × List Severity) : (s.takeStack r).xm = s.xm := rfl
@[simp] theorem State.takeStack_engine (s : State) (r : Stack × List Severity) : (s.takeStack r).engine = s.engine := rfl
@[simp] theorem State.takeStack_tables (s : State) (r : Stack × List Severity) : (s.takeStack r).tables = s.tables := rfl
@[simp] theorem State.takeStack_intake (s : State) (r : Stack × List Severity) : (s.takeStack r).intake = s.intake := rfl
@[simp] theorem State.takeStack_gauges (s : State) (r : Stack × List Severity) : (s.takeStack r).gauges = s.gauges := rfl
@[simp] theorem State.takeStack_speed (s : State) (r : Stack × List Severity) : (s.takeStack r).speed = s.speed := rfl
@[simp] theorem State.takeStack_store (s : State) (r : Stack × List Severity) : (s.takeStack r).store = s.store := rfl
@[simp] theorem State.takeStack_lamps (s : State) (r : Stack × List Severity) : (s.takeStack r).lamps = s.lamps := rfl
@[simp] theorem State.takeStack_hours (s : State) (r : Stack × List Severity) : (s.takeStack r).hours = s.hours := rfl
@[simp] theorem State.takeStack_panel (s : State) (r : Stack × List Severity) : (s.takeStack r).panel = s.panel := rfl
@[simp] theorem State.takeStack_prescale (s : State) (r : Stack × List Severity) : (s.takeStack r).prescale = s.prescale := rfl
@[simp] theorem State.takeStack_pending (s : State) (r : Stack × List Severity) : (s.takeStack r).pending = s.pending := rfl

/-! ## State.post -/

@[simp] theorem State.post_mode (s : State) (id : Identity) (sev : Severity) : (s.post id sev).mode = s.mode := rfl
@[simp] theorem State.post_xm (s : State) (id : Identity) (sev : Severity) : (s.post id sev).xm = s.xm := rfl
@[simp] theorem State.post_engine (s : State) (id : Identity) (sev : Severity) : (s.post id sev).engine = s.engine := rfl
@[simp] theorem State.post_tables (s : State) (id : Identity) (sev : Severity) : (s.post id sev).tables = s.tables := rfl
@[simp] theorem State.post_intake (s : State) (id : Identity) (sev : Severity) : (s.post id sev).intake = s.intake := rfl
@[simp] theorem State.post_gauges (s : State) (id : Identity) (sev : Severity) : (s.post id sev).gauges = s.gauges := rfl
@[simp] theorem State.post_speed (s : State) (id : Identity) (sev : Severity) : (s.post id sev).speed = s.speed := rfl
@[simp] theorem State.post_store (s : State) (id : Identity) (sev : Severity) : (s.post id sev).store = s.store := rfl
@[simp] theorem State.post_lamps (s : State) (id : Identity) (sev : Severity) : (s.post id sev).lamps = s.lamps := rfl
@[simp] theorem State.post_hours (s : State) (id : Identity) (sev : Severity) : (s.post id sev).hours = s.hours := rfl
@[simp] theorem State.post_panel (s : State) (id : Identity) (sev : Severity) : (s.post id sev).panel = s.panel := rfl
@[simp] theorem State.post_prescale (s : State) (id : Identity) (sev : Severity) : (s.post id sev).prescale = s.prescale := rfl
@[simp] theorem State.post_pending (s : State) (id : Identity) (sev : Severity) : (s.post id sev).pending = s.pending := rfl

/-! ## State.clear -/

@[simp] theorem State.clear_mode (s : State) (id : Identity) : (s.clear id).mode = s.mode := rfl
@[simp] theorem State.clear_xm (s : State) (id : Identity) : (s.clear id).xm = s.xm := rfl
@[simp] theorem State.clear_engine (s : State) (id : Identity) : (s.clear id).engine = s.engine := rfl
@[simp] theorem State.clear_tables (s : State) (id : Identity) : (s.clear id).tables = s.tables := rfl
@[simp] theorem State.clear_intake (s : State) (id : Identity) : (s.clear id).intake = s.intake := rfl
@[simp] theorem State.clear_gauges (s : State) (id : Identity) : (s.clear id).gauges = s.gauges := rfl
@[simp] theorem State.clear_speed (s : State) (id : Identity) : (s.clear id).speed = s.speed := rfl
@[simp] theorem State.clear_store (s : State) (id : Identity) : (s.clear id).store = s.store := rfl
@[simp] theorem State.clear_lamps (s : State) (id : Identity) : (s.clear id).lamps = s.lamps := rfl
@[simp] theorem State.clear_hours (s : State) (id : Identity) : (s.clear id).hours = s.hours := rfl
@[simp] theorem State.clear_panel (s : State) (id : Identity) : (s.clear id).panel = s.panel := rfl
@[simp] theorem State.clear_prescale (s : State) (id : Identity) : (s.clear id).prescale = s.prescale := rfl
@[simp] theorem State.clear_pending (s : State) (id : Identity) : (s.clear id).pending = s.pending := rfl

/-! ## State.acknowledge -/

@[simp] theorem State.acknowledge_mode (s : State) (id : Identity) : (s.acknowledge id).mode = s.mode := rfl
@[simp] theorem State.acknowledge_xm (s : State) (id : Identity) : (s.acknowledge id).xm = s.xm := rfl
@[simp] theorem State.acknowledge_engine (s : State) (id : Identity) : (s.acknowledge id).engine = s.engine := rfl
@[simp] theorem State.acknowledge_tables (s : State) (id : Identity) : (s.acknowledge id).tables = s.tables := rfl
@[simp] theorem State.acknowledge_intake (s : State) (id : Identity) : (s.acknowledge id).intake = s.intake := rfl
@[simp] theorem State.acknowledge_gauges (s : State) (id : Identity) : (s.acknowledge id).gauges = s.gauges := rfl
@[simp] theorem State.acknowledge_speed (s : State) (id : Identity) : (s.acknowledge id).speed = s.speed := rfl
@[simp] theorem State.acknowledge_store (s : State) (id : Identity) : (s.acknowledge id).store = s.store := rfl
@[simp] theorem State.acknowledge_lamps (s : State) (id : Identity) : (s.acknowledge id).lamps = s.lamps := rfl
@[simp] theorem State.acknowledge_hours (s : State) (id : Identity) : (s.acknowledge id).hours = s.hours := rfl
@[simp] theorem State.acknowledge_panel (s : State) (id : Identity) : (s.acknowledge id).panel = s.panel := rfl
@[simp] theorem State.acknowledge_prescale (s : State) (id : Identity) : (s.acknowledge id).prescale = s.prescale := rfl
@[simp] theorem State.acknowledge_pending (s : State) (id : Identity) : (s.acknowledge id).pending = s.pending := rfl

/-! ## State.keyAcknowledge -/

@[simp] theorem State.keyAcknowledge_mode (s : State) (d : Option Identity) : (s.keyAcknowledge d).mode = s.mode := by
  unfold State.keyAcknowledge; repeat' split
  all_goals simp
@[simp] theorem State.keyAcknowledge_xm (s : State) (d : Option Identity) : (s.keyAcknowledge d).xm = s.xm := by
  unfold State.keyAcknowledge; repeat' split
  all_goals simp
@[simp] theorem State.keyAcknowledge_engine (s : State) (d : Option Identity) : (s.keyAcknowledge d).engine = s.engine := by
  unfold State.keyAcknowledge; repeat' split
  all_goals simp
@[simp] theorem State.keyAcknowledge_tables (s : State) (d : Option Identity) : (s.keyAcknowledge d).tables = s.tables := by
  unfold State.keyAcknowledge; repeat' split
  all_goals simp
@[simp] theorem State.keyAcknowledge_intake (s : State) (d : Option Identity) : (s.keyAcknowledge d).intake = s.intake := by
  unfold State.keyAcknowledge; repeat' split
  all_goals simp
@[simp] theorem State.keyAcknowledge_gauges (s : State) (d : Option Identity) : (s.keyAcknowledge d).gauges = s.gauges := by
  unfold State.keyAcknowledge; repeat' split
  all_goals simp
@[simp] theorem State.keyAcknowledge_speed (s : State) (d : Option Identity) : (s.keyAcknowledge d).speed = s.speed := by
  unfold State.keyAcknowledge; repeat' split
  all_goals simp
@[simp] theorem State.keyAcknowledge_store (s : State) (d : Option Identity) : (s.keyAcknowledge d).store = s.store := by
  unfold State.keyAcknowledge; repeat' split
  all_goals simp
@[simp] theorem State.keyAcknowledge_lamps (s : State) (d : Option Identity) : (s.keyAcknowledge d).lamps = s.lamps := by
  unfold State.keyAcknowledge; repeat' split
  all_goals simp
@[simp] theorem State.keyAcknowledge_hours (s : State) (d : Option Identity) : (s.keyAcknowledge d).hours = s.hours := by
  unfold State.keyAcknowledge; repeat' split
  all_goals simp
@[simp] theorem State.keyAcknowledge_panel (s : State) (d : Option Identity) : (s.keyAcknowledge d).panel = s.panel := by
  unfold State.keyAcknowledge; repeat' split
  all_goals simp
@[simp] theorem State.keyAcknowledge_prescale (s : State) (d : Option Identity) : (s.keyAcknowledge d).prescale = s.prescale := by
  unfold State.keyAcknowledge; repeat' split
  all_goals simp
@[simp] theorem State.keyAcknowledge_pending (s : State) (d : Option Identity) : (s.keyAcknowledge d).pending = s.pending := by
  unfold State.keyAcknowledge; repeat' split
  all_goals simp

/-! ## State.returnStrip -/

@[simp] theorem State.returnStrip_mode (s : State) (n : Strip) (r : StopReason) (k : Nat) : (s.returnStrip n r k).mode = s.mode := rfl
@[simp] theorem State.returnStrip_tables (s : State) (n : Strip) (r : StopReason) (k : Nat) : (s.returnStrip n r k).tables = s.tables := rfl
@[simp] theorem State.returnStrip_intake (s : State) (n : Strip) (r : StopReason) (k : Nat) : (s.returnStrip n r k).intake = s.intake := rfl
@[simp] theorem State.returnStrip_gauges (s : State) (n : Strip) (r : StopReason) (k : Nat) : (s.returnStrip n r k).gauges = s.gauges := rfl
@[simp] theorem State.returnStrip_speed (s : State) (n : Strip) (r : StopReason) (k : Nat) : (s.returnStrip n r k).speed = s.speed := rfl
@[simp] theorem State.returnStrip_store (s : State) (n : Strip) (r : StopReason) (k : Nat) : (s.returnStrip n r k).store = s.store := rfl
@[simp] theorem State.returnStrip_lamps (s : State) (n : Strip) (r : StopReason) (k : Nat) : (s.returnStrip n r k).lamps = s.lamps := rfl
@[simp] theorem State.returnStrip_chime (s : State) (n : Strip) (r : StopReason) (k : Nat) : (s.returnStrip n r k).chime = s.chime := rfl
@[simp] theorem State.returnStrip_hours (s : State) (n : Strip) (r : StopReason) (k : Nat) : (s.returnStrip n r k).hours = s.hours := rfl
@[simp] theorem State.returnStrip_stack (s : State) (n : Strip) (r : StopReason) (k : Nat) : (s.returnStrip n r k).stack = s.stack := rfl
@[simp] theorem State.returnStrip_panel (s : State) (n : Strip) (r : StopReason) (k : Nat) : (s.returnStrip n r k).panel = s.panel := rfl
@[simp] theorem State.returnStrip_prescale (s : State) (n : Strip) (r : StopReason) (k : Nat) : (s.returnStrip n r k).prescale = s.prescale := rfl
@[simp] theorem State.returnStrip_pending (s : State) (n : Strip) (r : StopReason) (k : Nat) : (s.returnStrip n r k).pending = s.pending := rfl

/-! ## State.stopOnce -/

@[simp] theorem State.stopOnce_mode (s : State) : (s.stopOnce).mode = s.mode := by
  unfold State.stopOnce; repeat' split
  all_goals simp
@[simp] theorem State.stopOnce_tables (s : State) : (s.stopOnce).tables = s.tables := by
  unfold State.stopOnce; repeat' split
  all_goals simp
@[simp] theorem State.stopOnce_intake (s : State) : (s.stopOnce).intake = s.intake := by
  unfold State.stopOnce; repeat' split
  all_goals simp
@[simp] theorem State.stopOnce_gauges (s : State) : (s.stopOnce).gauges = s.gauges := by
  unfold State.stopOnce; repeat' split
  all_goals simp
@[simp] theorem State.stopOnce_speed (s : State) : (s.stopOnce).speed = s.speed := by
  unfold State.stopOnce; repeat' split
  all_goals simp
@[simp] theorem State.stopOnce_store (s : State) : (s.stopOnce).store = s.store := by
  unfold State.stopOnce; repeat' split
  all_goals simp
@[simp] theorem State.stopOnce_lamps (s : State) : (s.stopOnce).lamps = s.lamps := by
  unfold State.stopOnce; repeat' split
  all_goals simp
@[simp] theorem State.stopOnce_chime (s : State) : (s.stopOnce).chime = s.chime := by
  unfold State.stopOnce; repeat' split
  all_goals simp
@[simp] theorem State.stopOnce_hours (s : State) : (s.stopOnce).hours = s.hours := by
  unfold State.stopOnce; repeat' split
  all_goals simp
@[simp] theorem State.stopOnce_stack (s : State) : (s.stopOnce).stack = s.stack := by
  unfold State.stopOnce; repeat' split
  all_goals simp
@[simp] theorem State.stopOnce_panel (s : State) : (s.stopOnce).panel = s.panel := by
  unfold State.stopOnce; repeat' split
  all_goals simp
@[simp] theorem State.stopOnce_prescale (s : State) : (s.stopOnce).prescale = s.prescale := by
  unfold State.stopOnce; repeat' split
  all_goals simp
@[simp] theorem State.stopOnce_pending (s : State) : (s.stopOnce).pending = s.pending := by
  unfold State.stopOnce; repeat' split
  all_goals simp

/-! ## State.stopStrips -/

@[simp] theorem State.stopStrips_mode (s : State) : (s.stopStrips).mode = s.mode := by
  simp [State.stopStrips]
@[simp] theorem State.stopStrips_tables (s : State) : (s.stopStrips).tables = s.tables := by
  simp [State.stopStrips]
@[simp] theorem State.stopStrips_intake (s : State) : (s.stopStrips).intake = s.intake := by
  simp [State.stopStrips]
@[simp] theorem State.stopStrips_gauges (s : State) : (s.stopStrips).gauges = s.gauges := by
  simp [State.stopStrips]
@[simp] theorem State.stopStrips_speed (s : State) : (s.stopStrips).speed = s.speed := by
  simp [State.stopStrips]
@[simp] theorem State.stopStrips_store (s : State) : (s.stopStrips).store = s.store := by
  simp [State.stopStrips]
@[simp] theorem State.stopStrips_lamps (s : State) : (s.stopStrips).lamps = s.lamps := by
  simp [State.stopStrips]
@[simp] theorem State.stopStrips_chime (s : State) : (s.stopStrips).chime = s.chime := by
  simp [State.stopStrips]
@[simp] theorem State.stopStrips_hours (s : State) : (s.stopStrips).hours = s.hours := by
  simp [State.stopStrips]
@[simp] theorem State.stopStrips_stack (s : State) : (s.stopStrips).stack = s.stack := by
  simp [State.stopStrips]
@[simp] theorem State.stopStrips_panel (s : State) : (s.stopStrips).panel = s.panel := by
  simp [State.stopStrips]
@[simp] theorem State.stopStrips_prescale (s : State) : (s.stopStrips).prescale = s.prescale := by
  simp [State.stopStrips]
@[simp] theorem State.stopStrips_pending (s : State) : (s.stopStrips).pending = s.pending := by
  simp [State.stopStrips]

/-! ## State.finish -/

@[simp] theorem State.finish_mode (s : State) (r : Result) (d : Nat) : (s.finish r d).mode = s.mode := by
  unfold State.finish; repeat' split
  all_goals simp
@[simp] theorem State.finish_tables (s : State) (r : Result) (d : Nat) : (s.finish r d).tables = s.tables := by
  unfold State.finish; repeat' split
  all_goals simp
@[simp] theorem State.finish_intake (s : State) (r : Result) (d : Nat) : (s.finish r d).intake = s.intake := by
  unfold State.finish; repeat' split
  all_goals simp
@[simp] theorem State.finish_gauges (s : State) (r : Result) (d : Nat) : (s.finish r d).gauges = s.gauges := by
  unfold State.finish; repeat' split
  all_goals simp
@[simp] theorem State.finish_speed (s : State) (r : Result) (d : Nat) : (s.finish r d).speed = s.speed := by
  unfold State.finish; repeat' split
  all_goals simp
@[simp] theorem State.finish_store (s : State) (r : Result) (d : Nat) : (s.finish r d).store = s.store := by
  unfold State.finish; repeat' split
  all_goals simp
@[simp] theorem State.finish_lamps (s : State) (r : Result) (d : Nat) : (s.finish r d).lamps = s.lamps := by
  unfold State.finish; repeat' split
  all_goals simp
@[simp] theorem State.finish_chime (s : State) (r : Result) (d : Nat) : (s.finish r d).chime = s.chime := by
  unfold State.finish; repeat' split
  all_goals simp
@[simp] theorem State.finish_hours (s : State) (r : Result) (d : Nat) : (s.finish r d).hours = s.hours := by
  unfold State.finish; repeat' split
  all_goals simp
@[simp] theorem State.finish_stack (s : State) (r : Result) (d : Nat) : (s.finish r d).stack = s.stack := by
  unfold State.finish; repeat' split
  all_goals simp
@[simp] theorem State.finish_panel (s : State) (r : Result) (d : Nat) : (s.finish r d).panel = s.panel := by
  unfold State.finish; repeat' split
  all_goals simp
@[simp] theorem State.finish_prescale (s : State) (r : Result) (d : Nat) : (s.finish r d).prescale = s.prescale := by
  unfold State.finish; repeat' split
  all_goals simp
@[simp] theorem State.finish_pending (s : State) (r : Result) (d : Nat) : (s.finish r d).pending = s.pending := by
  unfold State.finish; repeat' split
  all_goals simp

/-! ## State.faultMessage -/

@[simp] theorem State.faultMessage_mode (s : State) (c : Fin 8) (old new : ChannelState) : (s.faultMessage c old new).mode = s.mode := by
  unfold State.faultMessage; repeat' split
  all_goals simp
@[simp] theorem State.faultMessage_xm (s : State) (c : Fin 8) (old new : ChannelState) : (s.faultMessage c old new).xm = s.xm := by
  unfold State.faultMessage; repeat' split
  all_goals simp
@[simp] theorem State.faultMessage_engine (s : State) (c : Fin 8) (old new : ChannelState) : (s.faultMessage c old new).engine = s.engine := by
  unfold State.faultMessage; repeat' split
  all_goals simp
@[simp] theorem State.faultMessage_tables (s : State) (c : Fin 8) (old new : ChannelState) : (s.faultMessage c old new).tables = s.tables := by
  unfold State.faultMessage; repeat' split
  all_goals simp
@[simp] theorem State.faultMessage_intake (s : State) (c : Fin 8) (old new : ChannelState) : (s.faultMessage c old new).intake = s.intake := by
  unfold State.faultMessage; repeat' split
  all_goals simp
@[simp] theorem State.faultMessage_gauges (s : State) (c : Fin 8) (old new : ChannelState) : (s.faultMessage c old new).gauges = s.gauges := by
  unfold State.faultMessage; repeat' split
  all_goals simp
@[simp] theorem State.faultMessage_speed (s : State) (c : Fin 8) (old new : ChannelState) : (s.faultMessage c old new).speed = s.speed := by
  unfold State.faultMessage; repeat' split
  all_goals simp
@[simp] theorem State.faultMessage_store (s : State) (c : Fin 8) (old new : ChannelState) : (s.faultMessage c old new).store = s.store := by
  unfold State.faultMessage; repeat' split
  all_goals simp
@[simp] theorem State.faultMessage_lamps (s : State) (c : Fin 8) (old new : ChannelState) : (s.faultMessage c old new).lamps = s.lamps := by
  unfold State.faultMessage; repeat' split
  all_goals simp
@[simp] theorem State.faultMessage_hours (s : State) (c : Fin 8) (old new : ChannelState) : (s.faultMessage c old new).hours = s.hours := by
  unfold State.faultMessage; repeat' split
  all_goals simp
@[simp] theorem State.faultMessage_panel (s : State) (c : Fin 8) (old new : ChannelState) : (s.faultMessage c old new).panel = s.panel := by
  unfold State.faultMessage; repeat' split
  all_goals simp
@[simp] theorem State.faultMessage_prescale (s : State) (c : Fin 8) (old new : ChannelState) : (s.faultMessage c old new).prescale = s.prescale := by
  unfold State.faultMessage; repeat' split
  all_goals simp
@[simp] theorem State.faultMessage_pending (s : State) (c : Fin 8) (old new : ChannelState) : (s.faultMessage c old new).pending = s.pending := by
  unfold State.faultMessage; repeat' split
  all_goals simp

/-! ## State.enterWith -/

@[simp] theorem State.enterWith_mode (s : State) (c : Fin 8) (ch : Channel) (st : ChannelState) : (s.enterWith c ch st).mode = s.mode := by
  simp [State.enterWith]
@[simp] theorem State.enterWith_xm (s : State) (c : Fin 8) (ch : Channel) (st : ChannelState) : (s.enterWith c ch st).xm = s.xm := by
  simp [State.enterWith]
@[simp] theorem State.enterWith_engine (s : State) (c : Fin 8) (ch : Channel) (st : ChannelState) : (s.enterWith c ch st).engine = s.engine := by
  simp [State.enterWith]
@[simp] theorem State.enterWith_tables (s : State) (c : Fin 8) (ch : Channel) (st : ChannelState) : (s.enterWith c ch st).tables = s.tables := by
  simp [State.enterWith]
@[simp] theorem State.enterWith_intake (s : State) (c : Fin 8) (ch : Channel) (st : ChannelState) : (s.enterWith c ch st).intake = s.intake := by
  simp [State.enterWith]
@[simp] theorem State.enterWith_speed (s : State) (c : Fin 8) (ch : Channel) (st : ChannelState) : (s.enterWith c ch st).speed = s.speed := by
  simp [State.enterWith]
@[simp] theorem State.enterWith_store (s : State) (c : Fin 8) (ch : Channel) (st : ChannelState) : (s.enterWith c ch st).store = s.store := by
  simp [State.enterWith]
@[simp] theorem State.enterWith_lamps (s : State) (c : Fin 8) (ch : Channel) (st : ChannelState) : (s.enterWith c ch st).lamps = s.lamps := by
  simp [State.enterWith]
@[simp] theorem State.enterWith_hours (s : State) (c : Fin 8) (ch : Channel) (st : ChannelState) : (s.enterWith c ch st).hours = s.hours := by
  simp [State.enterWith]
@[simp] theorem State.enterWith_panel (s : State) (c : Fin 8) (ch : Channel) (st : ChannelState) : (s.enterWith c ch st).panel = s.panel := by
  simp [State.enterWith]
@[simp] theorem State.enterWith_prescale (s : State) (c : Fin 8) (ch : Channel) (st : ChannelState) : (s.enterWith c ch st).prescale = s.prescale := by
  simp [State.enterWith]
@[simp] theorem State.enterWith_pending (s : State) (c : Fin 8) (ch : Channel) (st : ChannelState) : (s.enterWith c ch st).pending = s.pending := by
  simp [State.enterWith]

@[simp] theorem State.enterWith_gauges (s : State) (c : Fin 8) (ch : Channel) (st : ChannelState) :
    (s.enterWith c ch st).gauges = putAt s.gauges c (ch.enter st) := by
  simp [State.enterWith]

/-! ## State.enterState -/

@[simp] theorem State.enterState_mode (s : State) (c : Fin 8) (st : ChannelState) : (s.enterState c st).mode = s.mode := by
  simp [State.enterState]
@[simp] theorem State.enterState_xm (s : State) (c : Fin 8) (st : ChannelState) : (s.enterState c st).xm = s.xm := by
  simp [State.enterState]
@[simp] theorem State.enterState_engine (s : State) (c : Fin 8) (st : ChannelState) : (s.enterState c st).engine = s.engine := by
  simp [State.enterState]
@[simp] theorem State.enterState_tables (s : State) (c : Fin 8) (st : ChannelState) : (s.enterState c st).tables = s.tables := by
  simp [State.enterState]
@[simp] theorem State.enterState_intake (s : State) (c : Fin 8) (st : ChannelState) : (s.enterState c st).intake = s.intake := by
  simp [State.enterState]
@[simp] theorem State.enterState_speed (s : State) (c : Fin 8) (st : ChannelState) : (s.enterState c st).speed = s.speed := by
  simp [State.enterState]
@[simp] theorem State.enterState_store (s : State) (c : Fin 8) (st : ChannelState) : (s.enterState c st).store = s.store := by
  simp [State.enterState]
@[simp] theorem State.enterState_lamps (s : State) (c : Fin 8) (st : ChannelState) : (s.enterState c st).lamps = s.lamps := by
  simp [State.enterState]
@[simp] theorem State.enterState_hours (s : State) (c : Fin 8) (st : ChannelState) : (s.enterState c st).hours = s.hours := by
  simp [State.enterState]
@[simp] theorem State.enterState_panel (s : State) (c : Fin 8) (st : ChannelState) : (s.enterState c st).panel = s.panel := by
  simp [State.enterState]
@[simp] theorem State.enterState_prescale (s : State) (c : Fin 8) (st : ChannelState) : (s.enterState c st).prescale = s.prescale := by
  simp [State.enterState]
@[simp] theorem State.enterState_pending (s : State) (c : Fin 8) (st : ChannelState) : (s.enterState c st).pending = s.pending := by
  simp [State.enterState]

/-! ## State.enterSweep -/

@[simp] theorem State.enterSweep_mode (s : State) (c : Fin 8) : (s.enterSweep c).mode = s.mode := by
  simp [State.enterSweep]
@[simp] theorem State.enterSweep_xm (s : State) (c : Fin 8) : (s.enterSweep c).xm = s.xm := by
  simp [State.enterSweep]
@[simp] theorem State.enterSweep_engine (s : State) (c : Fin 8) : (s.enterSweep c).engine = s.engine := by
  simp [State.enterSweep]
@[simp] theorem State.enterSweep_tables (s : State) (c : Fin 8) : (s.enterSweep c).tables = s.tables := by
  simp [State.enterSweep]
@[simp] theorem State.enterSweep_intake (s : State) (c : Fin 8) : (s.enterSweep c).intake = s.intake := by
  simp [State.enterSweep]
@[simp] theorem State.enterSweep_speed (s : State) (c : Fin 8) : (s.enterSweep c).speed = s.speed := by
  simp [State.enterSweep]
@[simp] theorem State.enterSweep_store (s : State) (c : Fin 8) : (s.enterSweep c).store = s.store := by
  simp [State.enterSweep]
@[simp] theorem State.enterSweep_lamps (s : State) (c : Fin 8) : (s.enterSweep c).lamps = s.lamps := by
  simp [State.enterSweep]
@[simp] theorem State.enterSweep_hours (s : State) (c : Fin 8) : (s.enterSweep c).hours = s.hours := by
  simp [State.enterSweep]
@[simp] theorem State.enterSweep_panel (s : State) (c : Fin 8) : (s.enterSweep c).panel = s.panel := by
  simp [State.enterSweep]
@[simp] theorem State.enterSweep_prescale (s : State) (c : Fin 8) : (s.enterSweep c).prescale = s.prescale := by
  simp [State.enterSweep]
@[simp] theorem State.enterSweep_pending (s : State) (c : Fin 8) : (s.enterSweep c).pending = s.pending := by
  simp [State.enterSweep]

/-! ## State.enterHoming -/

@[simp] theorem State.enterHoming_mode (s : State) (c : Fin 8) (e : GaugeEntry) (a : AfterHoming) : (s.enterHoming c e a).mode = s.mode := by
  simp [State.enterHoming]
@[simp] theorem State.enterHoming_xm (s : State) (c : Fin 8) (e : GaugeEntry) (a : AfterHoming) : (s.enterHoming c e a).xm = s.xm := by
  simp [State.enterHoming]
@[simp] theorem State.enterHoming_engine (s : State) (c : Fin 8) (e : GaugeEntry) (a : AfterHoming) : (s.enterHoming c e a).engine = s.engine := by
  simp [State.enterHoming]
@[simp] theorem State.enterHoming_tables (s : State) (c : Fin 8) (e : GaugeEntry) (a : AfterHoming) : (s.enterHoming c e a).tables = s.tables := by
  simp [State.enterHoming]
@[simp] theorem State.enterHoming_intake (s : State) (c : Fin 8) (e : GaugeEntry) (a : AfterHoming) : (s.enterHoming c e a).intake = s.intake := by
  simp [State.enterHoming]
@[simp] theorem State.enterHoming_speed (s : State) (c : Fin 8) (e : GaugeEntry) (a : AfterHoming) : (s.enterHoming c e a).speed = s.speed := by
  simp [State.enterHoming]
@[simp] theorem State.enterHoming_store (s : State) (c : Fin 8) (e : GaugeEntry) (a : AfterHoming) : (s.enterHoming c e a).store = s.store := by
  simp [State.enterHoming]
@[simp] theorem State.enterHoming_lamps (s : State) (c : Fin 8) (e : GaugeEntry) (a : AfterHoming) : (s.enterHoming c e a).lamps = s.lamps := by
  simp [State.enterHoming]
@[simp] theorem State.enterHoming_hours (s : State) (c : Fin 8) (e : GaugeEntry) (a : AfterHoming) : (s.enterHoming c e a).hours = s.hours := by
  simp [State.enterHoming]
@[simp] theorem State.enterHoming_panel (s : State) (c : Fin 8) (e : GaugeEntry) (a : AfterHoming) : (s.enterHoming c e a).panel = s.panel := by
  simp [State.enterHoming]
@[simp] theorem State.enterHoming_prescale (s : State) (c : Fin 8) (e : GaugeEntry) (a : AfterHoming) : (s.enterHoming c e a).prescale = s.prescale := by
  simp [State.enterHoming]
@[simp] theorem State.enterHoming_pending (s : State) (c : Fin 8) (e : GaugeEntry) (a : AfterHoming) : (s.enterHoming c e a).pending = s.pending := by
  simp [State.enterHoming]

/-! ## State.follow -/

@[simp] theorem State.follow_mode (s : State) (c : Fin 8) (e : GaugeEntry) (d : Condition) : (s.follow c e d).mode = s.mode := by
  unfold State.follow; repeat' split
  all_goals simp
@[simp] theorem State.follow_xm (s : State) (c : Fin 8) (e : GaugeEntry) (d : Condition) : (s.follow c e d).xm = s.xm := by
  unfold State.follow; repeat' split
  all_goals simp
@[simp] theorem State.follow_engine (s : State) (c : Fin 8) (e : GaugeEntry) (d : Condition) : (s.follow c e d).engine = s.engine := by
  unfold State.follow; repeat' split
  all_goals simp
@[simp] theorem State.follow_tables (s : State) (c : Fin 8) (e : GaugeEntry) (d : Condition) : (s.follow c e d).tables = s.tables := by
  unfold State.follow; repeat' split
  all_goals simp
@[simp] theorem State.follow_intake (s : State) (c : Fin 8) (e : GaugeEntry) (d : Condition) : (s.follow c e d).intake = s.intake := by
  unfold State.follow; repeat' split
  all_goals simp
@[simp] theorem State.follow_speed (s : State) (c : Fin 8) (e : GaugeEntry) (d : Condition) : (s.follow c e d).speed = s.speed := by
  unfold State.follow; repeat' split
  all_goals simp
@[simp] theorem State.follow_store (s : State) (c : Fin 8) (e : GaugeEntry) (d : Condition) : (s.follow c e d).store = s.store := by
  unfold State.follow; repeat' split
  all_goals simp
@[simp] theorem State.follow_lamps (s : State) (c : Fin 8) (e : GaugeEntry) (d : Condition) : (s.follow c e d).lamps = s.lamps := by
  unfold State.follow; repeat' split
  all_goals simp
@[simp] theorem State.follow_hours (s : State) (c : Fin 8) (e : GaugeEntry) (d : Condition) : (s.follow c e d).hours = s.hours := by
  unfold State.follow; repeat' split
  all_goals simp
@[simp] theorem State.follow_panel (s : State) (c : Fin 8) (e : GaugeEntry) (d : Condition) : (s.follow c e d).panel = s.panel := by
  unfold State.follow; repeat' split
  all_goals simp
@[simp] theorem State.follow_prescale (s : State) (c : Fin 8) (e : GaugeEntry) (d : Condition) : (s.follow c e d).prescale = s.prescale := by
  unfold State.follow; repeat' split
  all_goals simp
@[simp] theorem State.follow_pending (s : State) (c : Fin 8) (e : GaugeEntry) (d : Condition) : (s.follow c e d).pending = s.pending := by
  unfold State.follow; repeat' split
  all_goals simp

/-! ## State.watcherMessage -/

@[simp] theorem State.watcherMessage_mode (s : State) (c : Fin 8) (w : Watcher) (e : WatcherEntry) (old new : Bool) : (s.watcherMessage c w e old new).mode = s.mode := by
  unfold State.watcherMessage; repeat' split
  all_goals simp
@[simp] theorem State.watcherMessage_xm (s : State) (c : Fin 8) (w : Watcher) (e : WatcherEntry) (old new : Bool) : (s.watcherMessage c w e old new).xm = s.xm := by
  unfold State.watcherMessage; repeat' split
  all_goals simp
@[simp] theorem State.watcherMessage_engine (s : State) (c : Fin 8) (w : Watcher) (e : WatcherEntry) (old new : Bool) : (s.watcherMessage c w e old new).engine = s.engine := by
  unfold State.watcherMessage; repeat' split
  all_goals simp
@[simp] theorem State.watcherMessage_tables (s : State) (c : Fin 8) (w : Watcher) (e : WatcherEntry) (old new : Bool) : (s.watcherMessage c w e old new).tables = s.tables := by
  unfold State.watcherMessage; repeat' split
  all_goals simp
@[simp] theorem State.watcherMessage_intake (s : State) (c : Fin 8) (w : Watcher) (e : WatcherEntry) (old new : Bool) : (s.watcherMessage c w e old new).intake = s.intake := by
  unfold State.watcherMessage; repeat' split
  all_goals simp
@[simp] theorem State.watcherMessage_gauges (s : State) (c : Fin 8) (w : Watcher) (e : WatcherEntry) (old new : Bool) : (s.watcherMessage c w e old new).gauges = s.gauges := by
  unfold State.watcherMessage; repeat' split
  all_goals simp
@[simp] theorem State.watcherMessage_speed (s : State) (c : Fin 8) (w : Watcher) (e : WatcherEntry) (old new : Bool) : (s.watcherMessage c w e old new).speed = s.speed := by
  unfold State.watcherMessage; repeat' split
  all_goals simp
@[simp] theorem State.watcherMessage_store (s : State) (c : Fin 8) (w : Watcher) (e : WatcherEntry) (old new : Bool) : (s.watcherMessage c w e old new).store = s.store := by
  unfold State.watcherMessage; repeat' split
  all_goals simp
@[simp] theorem State.watcherMessage_lamps (s : State) (c : Fin 8) (w : Watcher) (e : WatcherEntry) (old new : Bool) : (s.watcherMessage c w e old new).lamps = s.lamps := by
  unfold State.watcherMessage; repeat' split
  all_goals simp
@[simp] theorem State.watcherMessage_hours (s : State) (c : Fin 8) (w : Watcher) (e : WatcherEntry) (old new : Bool) : (s.watcherMessage c w e old new).hours = s.hours := by
  unfold State.watcherMessage; repeat' split
  all_goals simp
@[simp] theorem State.watcherMessage_panel (s : State) (c : Fin 8) (w : Watcher) (e : WatcherEntry) (old new : Bool) : (s.watcherMessage c w e old new).panel = s.panel := by
  unfold State.watcherMessage; repeat' split
  all_goals simp
@[simp] theorem State.watcherMessage_prescale (s : State) (c : Fin 8) (w : Watcher) (e : WatcherEntry) (old new : Bool) : (s.watcherMessage c w e old new).prescale = s.prescale := by
  unfold State.watcherMessage; repeat' split
  all_goals simp
@[simp] theorem State.watcherMessage_pending (s : State) (c : Fin 8) (w : Watcher) (e : WatcherEntry) (old new : Bool) : (s.watcherMessage c w e old new).pending = s.pending := by
  unfold State.watcherMessage; repeat' split
  all_goals simp

/-! ## State.setAlarm -/

@[simp] theorem State.setAlarm_mode (s : State) (c : Fin 8) (e : GaugeEntry) (w : Watcher) (b : Bool) : (s.setAlarm c e w b).mode = s.mode := by
  simp [State.setAlarm]
@[simp] theorem State.setAlarm_xm (s : State) (c : Fin 8) (e : GaugeEntry) (w : Watcher) (b : Bool) : (s.setAlarm c e w b).xm = s.xm := by
  simp [State.setAlarm]
@[simp] theorem State.setAlarm_engine (s : State) (c : Fin 8) (e : GaugeEntry) (w : Watcher) (b : Bool) : (s.setAlarm c e w b).engine = s.engine := by
  simp [State.setAlarm]
@[simp] theorem State.setAlarm_tables (s : State) (c : Fin 8) (e : GaugeEntry) (w : Watcher) (b : Bool) : (s.setAlarm c e w b).tables = s.tables := by
  simp [State.setAlarm]
@[simp] theorem State.setAlarm_intake (s : State) (c : Fin 8) (e : GaugeEntry) (w : Watcher) (b : Bool) : (s.setAlarm c e w b).intake = s.intake := by
  simp [State.setAlarm]
@[simp] theorem State.setAlarm_speed (s : State) (c : Fin 8) (e : GaugeEntry) (w : Watcher) (b : Bool) : (s.setAlarm c e w b).speed = s.speed := by
  simp [State.setAlarm]
@[simp] theorem State.setAlarm_store (s : State) (c : Fin 8) (e : GaugeEntry) (w : Watcher) (b : Bool) : (s.setAlarm c e w b).store = s.store := by
  simp [State.setAlarm]
@[simp] theorem State.setAlarm_lamps (s : State) (c : Fin 8) (e : GaugeEntry) (w : Watcher) (b : Bool) : (s.setAlarm c e w b).lamps = s.lamps := by
  simp [State.setAlarm]
@[simp] theorem State.setAlarm_hours (s : State) (c : Fin 8) (e : GaugeEntry) (w : Watcher) (b : Bool) : (s.setAlarm c e w b).hours = s.hours := by
  simp [State.setAlarm]
@[simp] theorem State.setAlarm_panel (s : State) (c : Fin 8) (e : GaugeEntry) (w : Watcher) (b : Bool) : (s.setAlarm c e w b).panel = s.panel := by
  simp [State.setAlarm]
@[simp] theorem State.setAlarm_prescale (s : State) (c : Fin 8) (e : GaugeEntry) (w : Watcher) (b : Bool) : (s.setAlarm c e w b).prescale = s.prescale := by
  simp [State.setAlarm]
@[simp] theorem State.setAlarm_pending (s : State) (c : Fin 8) (e : GaugeEntry) (w : Watcher) (b : Bool) : (s.setAlarm c e w b).pending = s.pending := by
  simp [State.setAlarm]

@[simp] theorem State.setAlarm_gauges (s : State) (c : Fin 8) (e : GaugeEntry) (w : Watcher) (b : Bool) :
    (s.setAlarm c e w b).gauges = putAt s.gauges c (s.gauges[c].withAlarm w b) := by
  simp [State.setAlarm]

/-! ## State.evaluateWatcher -/

@[simp] theorem State.evaluateWatcher_mode (s : State) (c : Fin 8) (e : GaugeEntry) (x : Int) (w : Watcher) : (s.evaluateWatcher c e x w).mode = s.mode := by
  simp [State.evaluateWatcher]
@[simp] theorem State.evaluateWatcher_xm (s : State) (c : Fin 8) (e : GaugeEntry) (x : Int) (w : Watcher) : (s.evaluateWatcher c e x w).xm = s.xm := by
  simp [State.evaluateWatcher]
@[simp] theorem State.evaluateWatcher_engine (s : State) (c : Fin 8) (e : GaugeEntry) (x : Int) (w : Watcher) : (s.evaluateWatcher c e x w).engine = s.engine := by
  simp [State.evaluateWatcher]
@[simp] theorem State.evaluateWatcher_tables (s : State) (c : Fin 8) (e : GaugeEntry) (x : Int) (w : Watcher) : (s.evaluateWatcher c e x w).tables = s.tables := by
  simp [State.evaluateWatcher]
@[simp] theorem State.evaluateWatcher_intake (s : State) (c : Fin 8) (e : GaugeEntry) (x : Int) (w : Watcher) : (s.evaluateWatcher c e x w).intake = s.intake := by
  simp [State.evaluateWatcher]
@[simp] theorem State.evaluateWatcher_speed (s : State) (c : Fin 8) (e : GaugeEntry) (x : Int) (w : Watcher) : (s.evaluateWatcher c e x w).speed = s.speed := by
  simp [State.evaluateWatcher]
@[simp] theorem State.evaluateWatcher_store (s : State) (c : Fin 8) (e : GaugeEntry) (x : Int) (w : Watcher) : (s.evaluateWatcher c e x w).store = s.store := by
  simp [State.evaluateWatcher]
@[simp] theorem State.evaluateWatcher_lamps (s : State) (c : Fin 8) (e : GaugeEntry) (x : Int) (w : Watcher) : (s.evaluateWatcher c e x w).lamps = s.lamps := by
  simp [State.evaluateWatcher]
@[simp] theorem State.evaluateWatcher_hours (s : State) (c : Fin 8) (e : GaugeEntry) (x : Int) (w : Watcher) : (s.evaluateWatcher c e x w).hours = s.hours := by
  simp [State.evaluateWatcher]
@[simp] theorem State.evaluateWatcher_panel (s : State) (c : Fin 8) (e : GaugeEntry) (x : Int) (w : Watcher) : (s.evaluateWatcher c e x w).panel = s.panel := by
  simp [State.evaluateWatcher]
@[simp] theorem State.evaluateWatcher_prescale (s : State) (c : Fin 8) (e : GaugeEntry) (x : Int) (w : Watcher) : (s.evaluateWatcher c e x w).prescale = s.prescale := by
  simp [State.evaluateWatcher]
@[simp] theorem State.evaluateWatcher_pending (s : State) (c : Fin 8) (e : GaugeEntry) (x : Int) (w : Watcher) : (s.evaluateWatcher c e x w).pending = s.pending := by
  simp [State.evaluateWatcher]

/-! ## State.evaluateWatchers -/

@[simp] theorem State.evaluateWatchers_mode (s : State) (c : Fin 8) (e : GaugeEntry) (x : Int) : (s.evaluateWatchers c e x).mode = s.mode := by
  unfold State.evaluateWatchers; repeat' split
  all_goals simp
@[simp] theorem State.evaluateWatchers_xm (s : State) (c : Fin 8) (e : GaugeEntry) (x : Int) : (s.evaluateWatchers c e x).xm = s.xm := by
  unfold State.evaluateWatchers; repeat' split
  all_goals simp
@[simp] theorem State.evaluateWatchers_engine (s : State) (c : Fin 8) (e : GaugeEntry) (x : Int) : (s.evaluateWatchers c e x).engine = s.engine := by
  unfold State.evaluateWatchers; repeat' split
  all_goals simp
@[simp] theorem State.evaluateWatchers_tables (s : State) (c : Fin 8) (e : GaugeEntry) (x : Int) : (s.evaluateWatchers c e x).tables = s.tables := by
  unfold State.evaluateWatchers; repeat' split
  all_goals simp
@[simp] theorem State.evaluateWatchers_intake (s : State) (c : Fin 8) (e : GaugeEntry) (x : Int) : (s.evaluateWatchers c e x).intake = s.intake := by
  unfold State.evaluateWatchers; repeat' split
  all_goals simp
@[simp] theorem State.evaluateWatchers_speed (s : State) (c : Fin 8) (e : GaugeEntry) (x : Int) : (s.evaluateWatchers c e x).speed = s.speed := by
  unfold State.evaluateWatchers; repeat' split
  all_goals simp
@[simp] theorem State.evaluateWatchers_store (s : State) (c : Fin 8) (e : GaugeEntry) (x : Int) : (s.evaluateWatchers c e x).store = s.store := by
  unfold State.evaluateWatchers; repeat' split
  all_goals simp
@[simp] theorem State.evaluateWatchers_lamps (s : State) (c : Fin 8) (e : GaugeEntry) (x : Int) : (s.evaluateWatchers c e x).lamps = s.lamps := by
  unfold State.evaluateWatchers; repeat' split
  all_goals simp
@[simp] theorem State.evaluateWatchers_hours (s : State) (c : Fin 8) (e : GaugeEntry) (x : Int) : (s.evaluateWatchers c e x).hours = s.hours := by
  unfold State.evaluateWatchers; repeat' split
  all_goals simp
@[simp] theorem State.evaluateWatchers_panel (s : State) (c : Fin 8) (e : GaugeEntry) (x : Int) : (s.evaluateWatchers c e x).panel = s.panel := by
  unfold State.evaluateWatchers; repeat' split
  all_goals simp
@[simp] theorem State.evaluateWatchers_prescale (s : State) (c : Fin 8) (e : GaugeEntry) (x : Int) : (s.evaluateWatchers c e x).prescale = s.prescale := by
  unfold State.evaluateWatchers; repeat' split
  all_goals simp
@[simp] theorem State.evaluateWatchers_pending (s : State) (c : Fin 8) (e : GaugeEntry) (x : Int) : (s.evaluateWatchers c e x).pending = s.pending := by
  unfold State.evaluateWatchers; repeat' split
  all_goals simp

/-! ## State.failWatcher -/

@[simp] theorem State.failWatcher_mode (s : State) (c : Fin 8) (e : GaugeEntry) (w : Watcher) : (s.failWatcher c e w).mode = s.mode := by
  unfold State.failWatcher; repeat' split
  all_goals simp
@[simp] theorem State.failWatcher_xm (s : State) (c : Fin 8) (e : GaugeEntry) (w : Watcher) : (s.failWatcher c e w).xm = s.xm := by
  unfold State.failWatcher; repeat' split
  all_goals simp
@[simp] theorem State.failWatcher_engine (s : State) (c : Fin 8) (e : GaugeEntry) (w : Watcher) : (s.failWatcher c e w).engine = s.engine := by
  unfold State.failWatcher; repeat' split
  all_goals simp
@[simp] theorem State.failWatcher_tables (s : State) (c : Fin 8) (e : GaugeEntry) (w : Watcher) : (s.failWatcher c e w).tables = s.tables := by
  unfold State.failWatcher; repeat' split
  all_goals simp
@[simp] theorem State.failWatcher_intake (s : State) (c : Fin 8) (e : GaugeEntry) (w : Watcher) : (s.failWatcher c e w).intake = s.intake := by
  unfold State.failWatcher; repeat' split
  all_goals simp
@[simp] theorem State.failWatcher_speed (s : State) (c : Fin 8) (e : GaugeEntry) (w : Watcher) : (s.failWatcher c e w).speed = s.speed := by
  unfold State.failWatcher; repeat' split
  all_goals simp
@[simp] theorem State.failWatcher_store (s : State) (c : Fin 8) (e : GaugeEntry) (w : Watcher) : (s.failWatcher c e w).store = s.store := by
  unfold State.failWatcher; repeat' split
  all_goals simp
@[simp] theorem State.failWatcher_lamps (s : State) (c : Fin 8) (e : GaugeEntry) (w : Watcher) : (s.failWatcher c e w).lamps = s.lamps := by
  unfold State.failWatcher; repeat' split
  all_goals simp
@[simp] theorem State.failWatcher_hours (s : State) (c : Fin 8) (e : GaugeEntry) (w : Watcher) : (s.failWatcher c e w).hours = s.hours := by
  unfold State.failWatcher; repeat' split
  all_goals simp
@[simp] theorem State.failWatcher_panel (s : State) (c : Fin 8) (e : GaugeEntry) (w : Watcher) : (s.failWatcher c e w).panel = s.panel := by
  unfold State.failWatcher; repeat' split
  all_goals simp
@[simp] theorem State.failWatcher_prescale (s : State) (c : Fin 8) (e : GaugeEntry) (w : Watcher) : (s.failWatcher c e w).prescale = s.prescale := by
  unfold State.failWatcher; repeat' split
  all_goals simp
@[simp] theorem State.failWatcher_pending (s : State) (c : Fin 8) (e : GaugeEntry) (w : Watcher) : (s.failWatcher c e w).pending = s.pending := by
  unfold State.failWatcher; repeat' split
  all_goals simp

/-! ## State.failWatchers -/

@[simp] theorem State.failWatchers_mode (s : State) (c : Fin 8) (e : GaugeEntry) : (s.failWatchers c e).mode = s.mode := by
  unfold State.failWatchers; repeat' split
  all_goals simp
@[simp] theorem State.failWatchers_xm (s : State) (c : Fin 8) (e : GaugeEntry) : (s.failWatchers c e).xm = s.xm := by
  unfold State.failWatchers; repeat' split
  all_goals simp
@[simp] theorem State.failWatchers_engine (s : State) (c : Fin 8) (e : GaugeEntry) : (s.failWatchers c e).engine = s.engine := by
  unfold State.failWatchers; repeat' split
  all_goals simp
@[simp] theorem State.failWatchers_tables (s : State) (c : Fin 8) (e : GaugeEntry) : (s.failWatchers c e).tables = s.tables := by
  unfold State.failWatchers; repeat' split
  all_goals simp
@[simp] theorem State.failWatchers_intake (s : State) (c : Fin 8) (e : GaugeEntry) : (s.failWatchers c e).intake = s.intake := by
  unfold State.failWatchers; repeat' split
  all_goals simp
@[simp] theorem State.failWatchers_speed (s : State) (c : Fin 8) (e : GaugeEntry) : (s.failWatchers c e).speed = s.speed := by
  unfold State.failWatchers; repeat' split
  all_goals simp
@[simp] theorem State.failWatchers_store (s : State) (c : Fin 8) (e : GaugeEntry) : (s.failWatchers c e).store = s.store := by
  unfold State.failWatchers; repeat' split
  all_goals simp
@[simp] theorem State.failWatchers_lamps (s : State) (c : Fin 8) (e : GaugeEntry) : (s.failWatchers c e).lamps = s.lamps := by
  unfold State.failWatchers; repeat' split
  all_goals simp
@[simp] theorem State.failWatchers_hours (s : State) (c : Fin 8) (e : GaugeEntry) : (s.failWatchers c e).hours = s.hours := by
  unfold State.failWatchers; repeat' split
  all_goals simp
@[simp] theorem State.failWatchers_panel (s : State) (c : Fin 8) (e : GaugeEntry) : (s.failWatchers c e).panel = s.panel := by
  unfold State.failWatchers; repeat' split
  all_goals simp
@[simp] theorem State.failWatchers_prescale (s : State) (c : Fin 8) (e : GaugeEntry) : (s.failWatchers c e).prescale = s.prescale := by
  unfold State.failWatchers; repeat' split
  all_goals simp
@[simp] theorem State.failWatchers_pending (s : State) (c : Fin 8) (e : GaugeEntry) : (s.failWatchers c e).pending = s.pending := by
  unfold State.failWatchers; repeat' split
  all_goals simp

/-! ## State.disarm -/

@[simp] theorem State.disarm_mode (s : State) (c : Fin 8) : (s.disarm c).mode = s.mode := by
  unfold State.disarm; repeat' split
  all_goals simp
@[simp] theorem State.disarm_xm (s : State) (c : Fin 8) : (s.disarm c).xm = s.xm := by
  unfold State.disarm; repeat' split
  all_goals simp
@[simp] theorem State.disarm_engine (s : State) (c : Fin 8) : (s.disarm c).engine = s.engine := by
  unfold State.disarm; repeat' split
  all_goals simp
@[simp] theorem State.disarm_tables (s : State) (c : Fin 8) : (s.disarm c).tables = s.tables := by
  unfold State.disarm; repeat' split
  all_goals simp
@[simp] theorem State.disarm_intake (s : State) (c : Fin 8) : (s.disarm c).intake = s.intake := by
  unfold State.disarm; repeat' split
  all_goals simp
@[simp] theorem State.disarm_speed (s : State) (c : Fin 8) : (s.disarm c).speed = s.speed := by
  unfold State.disarm; repeat' split
  all_goals simp
@[simp] theorem State.disarm_store (s : State) (c : Fin 8) : (s.disarm c).store = s.store := by
  unfold State.disarm; repeat' split
  all_goals simp
@[simp] theorem State.disarm_lamps (s : State) (c : Fin 8) : (s.disarm c).lamps = s.lamps := by
  unfold State.disarm; repeat' split
  all_goals simp
@[simp] theorem State.disarm_hours (s : State) (c : Fin 8) : (s.disarm c).hours = s.hours := by
  unfold State.disarm; repeat' split
  all_goals simp
@[simp] theorem State.disarm_panel (s : State) (c : Fin 8) : (s.disarm c).panel = s.panel := by
  unfold State.disarm; repeat' split
  all_goals simp
@[simp] theorem State.disarm_prescale (s : State) (c : Fin 8) : (s.disarm c).prescale = s.prescale := by
  unfold State.disarm; repeat' split
  all_goals simp
@[simp] theorem State.disarm_pending (s : State) (c : Fin 8) : (s.disarm c).pending = s.pending := by
  unfold State.disarm; repeat' split
  all_goals simp

/-! ## State.arm -/

@[simp] theorem State.arm_mode (s : State) (c : Fin 8) : (s.arm c).mode = s.mode := by
  unfold State.arm; repeat' split
  all_goals simp
@[simp] theorem State.arm_xm (s : State) (c : Fin 8) : (s.arm c).xm = s.xm := by
  unfold State.arm; repeat' split
  all_goals simp
@[simp] theorem State.arm_engine (s : State) (c : Fin 8) : (s.arm c).engine = s.engine := by
  unfold State.arm; repeat' split
  all_goals simp
@[simp] theorem State.arm_tables (s : State) (c : Fin 8) : (s.arm c).tables = s.tables := by
  unfold State.arm; repeat' split
  all_goals simp
@[simp] theorem State.arm_intake (s : State) (c : Fin 8) : (s.arm c).intake = s.intake := by
  unfold State.arm; repeat' split
  all_goals simp
@[simp] theorem State.arm_speed (s : State) (c : Fin 8) : (s.arm c).speed = s.speed := by
  unfold State.arm; repeat' split
  all_goals simp
@[simp] theorem State.arm_store (s : State) (c : Fin 8) : (s.arm c).store = s.store := by
  unfold State.arm; repeat' split
  all_goals simp
@[simp] theorem State.arm_lamps (s : State) (c : Fin 8) : (s.arm c).lamps = s.lamps := by
  unfold State.arm; repeat' split
  all_goals simp
@[simp] theorem State.arm_hours (s : State) (c : Fin 8) : (s.arm c).hours = s.hours := by
  unfold State.arm; repeat' split
  all_goals simp
@[simp] theorem State.arm_panel (s : State) (c : Fin 8) : (s.arm c).panel = s.panel := by
  unfold State.arm; repeat' split
  all_goals simp
@[simp] theorem State.arm_prescale (s : State) (c : Fin 8) : (s.arm c).prescale = s.prescale := by
  unfold State.arm; repeat' split
  all_goals simp
@[simp] theorem State.arm_pending (s : State) (c : Fin 8) : (s.arm c).pending = s.pending := by
  unfold State.arm; repeat' split
  all_goals simp

/-! ## State.sourceEvent -/

@[simp] theorem State.sourceEvent_mode (src : Source) (a b : Condition) (r : Bool) (s : State) (c : Fin 8) : (State.sourceEvent src a b r s c).mode = s.mode := by
  unfold State.sourceEvent; split
  · rfl
  · split
    · dsimp only; split <;> split <;> (try split) <;> simp
    · rfl
@[simp] theorem State.sourceEvent_xm (src : Source) (a b : Condition) (r : Bool) (s : State) (c : Fin 8) : (State.sourceEvent src a b r s c).xm = s.xm := by
  unfold State.sourceEvent; split
  · rfl
  · split
    · dsimp only; split <;> split <;> (try split) <;> simp
    · rfl
@[simp] theorem State.sourceEvent_engine (src : Source) (a b : Condition) (r : Bool) (s : State) (c : Fin 8) : (State.sourceEvent src a b r s c).engine = s.engine := by
  unfold State.sourceEvent; split
  · rfl
  · split
    · dsimp only; split <;> split <;> (try split) <;> simp
    · rfl
@[simp] theorem State.sourceEvent_tables (src : Source) (a b : Condition) (r : Bool) (s : State) (c : Fin 8) : (State.sourceEvent src a b r s c).tables = s.tables := by
  unfold State.sourceEvent; split
  · rfl
  · split
    · dsimp only; split <;> split <;> (try split) <;> simp
    · rfl
@[simp] theorem State.sourceEvent_intake (src : Source) (a b : Condition) (r : Bool) (s : State) (c : Fin 8) : (State.sourceEvent src a b r s c).intake = s.intake := by
  unfold State.sourceEvent; split
  · rfl
  · split
    · dsimp only; split <;> split <;> (try split) <;> simp
    · rfl
@[simp] theorem State.sourceEvent_speed (src : Source) (a b : Condition) (r : Bool) (s : State) (c : Fin 8) : (State.sourceEvent src a b r s c).speed = s.speed := by
  unfold State.sourceEvent; split
  · rfl
  · split
    · dsimp only; split <;> split <;> (try split) <;> simp
    · rfl
@[simp] theorem State.sourceEvent_store (src : Source) (a b : Condition) (r : Bool) (s : State) (c : Fin 8) : (State.sourceEvent src a b r s c).store = s.store := by
  unfold State.sourceEvent; split
  · rfl
  · split
    · dsimp only; split <;> split <;> (try split) <;> simp
    · rfl
@[simp] theorem State.sourceEvent_lamps (src : Source) (a b : Condition) (r : Bool) (s : State) (c : Fin 8) : (State.sourceEvent src a b r s c).lamps = s.lamps := by
  unfold State.sourceEvent; split
  · rfl
  · split
    · dsimp only; split <;> split <;> (try split) <;> simp
    · rfl
@[simp] theorem State.sourceEvent_hours (src : Source) (a b : Condition) (r : Bool) (s : State) (c : Fin 8) : (State.sourceEvent src a b r s c).hours = s.hours := by
  unfold State.sourceEvent; split
  · rfl
  · split
    · dsimp only; split <;> split <;> (try split) <;> simp
    · rfl
@[simp] theorem State.sourceEvent_panel (src : Source) (a b : Condition) (r : Bool) (s : State) (c : Fin 8) : (State.sourceEvent src a b r s c).panel = s.panel := by
  unfold State.sourceEvent; split
  · rfl
  · split
    · dsimp only; split <;> split <;> (try split) <;> simp
    · rfl
@[simp] theorem State.sourceEvent_prescale (src : Source) (a b : Condition) (r : Bool) (s : State) (c : Fin 8) : (State.sourceEvent src a b r s c).prescale = s.prescale := by
  unfold State.sourceEvent; split
  · rfl
  · split
    · dsimp only; split <;> split <;> (try split) <;> simp
    · rfl
@[simp] theorem State.sourceEvent_pending (src : Source) (a b : Condition) (r : Bool) (s : State) (c : Fin 8) : (State.sourceEvent src a b r s c).pending = s.pending := by
  unfold State.sourceEvent; split
  · rfl
  · split
    · dsimp only; split <;> split <;> (try split) <;> simp
    · rfl

/-! ## State.startChannel -/

@[simp] theorem State.startChannel_mode (b : Bool) (s : State) (c : Fin 8) : (State.startChannel b s c).mode = s.mode := by
  unfold State.startChannel; repeat' split
  all_goals simp
@[simp] theorem State.startChannel_xm (b : Bool) (s : State) (c : Fin 8) : (State.startChannel b s c).xm = s.xm := by
  unfold State.startChannel; repeat' split
  all_goals simp
@[simp] theorem State.startChannel_engine (b : Bool) (s : State) (c : Fin 8) : (State.startChannel b s c).engine = s.engine := by
  unfold State.startChannel; repeat' split
  all_goals simp
@[simp] theorem State.startChannel_tables (b : Bool) (s : State) (c : Fin 8) : (State.startChannel b s c).tables = s.tables := by
  unfold State.startChannel; repeat' split
  all_goals simp
@[simp] theorem State.startChannel_intake (b : Bool) (s : State) (c : Fin 8) : (State.startChannel b s c).intake = s.intake := by
  unfold State.startChannel; repeat' split
  all_goals simp
@[simp] theorem State.startChannel_speed (b : Bool) (s : State) (c : Fin 8) : (State.startChannel b s c).speed = s.speed := by
  unfold State.startChannel; repeat' split
  all_goals simp
@[simp] theorem State.startChannel_store (b : Bool) (s : State) (c : Fin 8) : (State.startChannel b s c).store = s.store := by
  unfold State.startChannel; repeat' split
  all_goals simp
@[simp] theorem State.startChannel_lamps (b : Bool) (s : State) (c : Fin 8) : (State.startChannel b s c).lamps = s.lamps := by
  unfold State.startChannel; repeat' split
  all_goals simp
@[simp] theorem State.startChannel_hours (b : Bool) (s : State) (c : Fin 8) : (State.startChannel b s c).hours = s.hours := by
  unfold State.startChannel; repeat' split
  all_goals simp
@[simp] theorem State.startChannel_panel (b : Bool) (s : State) (c : Fin 8) : (State.startChannel b s c).panel = s.panel := by
  unfold State.startChannel; repeat' split
  all_goals simp
@[simp] theorem State.startChannel_prescale (b : Bool) (s : State) (c : Fin 8) : (State.startChannel b s c).prescale = s.prescale := by
  unfold State.startChannel; repeat' split
  all_goals simp
@[simp] theorem State.startChannel_pending (b : Bool) (s : State) (c : Fin 8) : (State.startChannel b s c).pending = s.pending := by
  unfold State.startChannel; repeat' split
  all_goals simp

/-! ## State.parkChannel -/

@[simp] theorem State.parkChannel_mode (s : State) (c : Fin 8) : (State.parkChannel s c).mode = s.mode := by
  unfold State.parkChannel; repeat' split
  all_goals simp
@[simp] theorem State.parkChannel_xm (s : State) (c : Fin 8) : (State.parkChannel s c).xm = s.xm := by
  unfold State.parkChannel; repeat' split
  all_goals simp
@[simp] theorem State.parkChannel_engine (s : State) (c : Fin 8) : (State.parkChannel s c).engine = s.engine := by
  unfold State.parkChannel; repeat' split
  all_goals simp
@[simp] theorem State.parkChannel_tables (s : State) (c : Fin 8) : (State.parkChannel s c).tables = s.tables := by
  unfold State.parkChannel; repeat' split
  all_goals simp
@[simp] theorem State.parkChannel_intake (s : State) (c : Fin 8) : (State.parkChannel s c).intake = s.intake := by
  unfold State.parkChannel; repeat' split
  all_goals simp
@[simp] theorem State.parkChannel_speed (s : State) (c : Fin 8) : (State.parkChannel s c).speed = s.speed := by
  unfold State.parkChannel; repeat' split
  all_goals simp
@[simp] theorem State.parkChannel_store (s : State) (c : Fin 8) : (State.parkChannel s c).store = s.store := by
  unfold State.parkChannel; repeat' split
  all_goals simp
@[simp] theorem State.parkChannel_lamps (s : State) (c : Fin 8) : (State.parkChannel s c).lamps = s.lamps := by
  unfold State.parkChannel; repeat' split
  all_goals simp
@[simp] theorem State.parkChannel_hours (s : State) (c : Fin 8) : (State.parkChannel s c).hours = s.hours := by
  unfold State.parkChannel; repeat' split
  all_goals simp
@[simp] theorem State.parkChannel_panel (s : State) (c : Fin 8) : (State.parkChannel s c).panel = s.panel := by
  unfold State.parkChannel; repeat' split
  all_goals simp
@[simp] theorem State.parkChannel_prescale (s : State) (c : Fin 8) : (State.parkChannel s c).prescale = s.prescale := by
  unfold State.parkChannel; repeat' split
  all_goals simp
@[simp] theorem State.parkChannel_pending (s : State) (c : Fin 8) : (State.parkChannel s c).pending = s.pending := by
  unfold State.parkChannel; repeat' split
  all_goals simp

/-! ## State.endHoming -/

@[simp] theorem State.endHoming_mode (s : State) (c : Fin 8) (e : GaugeEntry) : (s.endHoming c e).mode = s.mode := by
  unfold State.endHoming; dsimp only; split <;> simp
@[simp] theorem State.endHoming_xm (s : State) (c : Fin 8) (e : GaugeEntry) : (s.endHoming c e).xm = s.xm := by
  unfold State.endHoming; dsimp only; split <;> simp
@[simp] theorem State.endHoming_engine (s : State) (c : Fin 8) (e : GaugeEntry) : (s.endHoming c e).engine = s.engine := by
  unfold State.endHoming; dsimp only; split <;> simp
@[simp] theorem State.endHoming_tables (s : State) (c : Fin 8) (e : GaugeEntry) : (s.endHoming c e).tables = s.tables := by
  unfold State.endHoming; dsimp only; split <;> simp
@[simp] theorem State.endHoming_intake (s : State) (c : Fin 8) (e : GaugeEntry) : (s.endHoming c e).intake = s.intake := by
  unfold State.endHoming; dsimp only; split <;> simp
@[simp] theorem State.endHoming_speed (s : State) (c : Fin 8) (e : GaugeEntry) : (s.endHoming c e).speed = s.speed := by
  unfold State.endHoming; dsimp only; split <;> simp
@[simp] theorem State.endHoming_store (s : State) (c : Fin 8) (e : GaugeEntry) : (s.endHoming c e).store = s.store := by
  unfold State.endHoming; dsimp only; split <;> simp
@[simp] theorem State.endHoming_lamps (s : State) (c : Fin 8) (e : GaugeEntry) : (s.endHoming c e).lamps = s.lamps := by
  unfold State.endHoming; dsimp only; split <;> simp
@[simp] theorem State.endHoming_hours (s : State) (c : Fin 8) (e : GaugeEntry) : (s.endHoming c e).hours = s.hours := by
  unfold State.endHoming; dsimp only; split <;> simp
@[simp] theorem State.endHoming_panel (s : State) (c : Fin 8) (e : GaugeEntry) : (s.endHoming c e).panel = s.panel := by
  unfold State.endHoming; dsimp only; split <;> simp
@[simp] theorem State.endHoming_prescale (s : State) (c : Fin 8) (e : GaugeEntry) : (s.endHoming c e).prescale = s.prescale := by
  unfold State.endHoming; dsimp only; split <;> simp
@[simp] theorem State.endHoming_pending (s : State) (c : Fin 8) (e : GaugeEntry) : (s.endHoming c e).pending = s.pending := by
  unfold State.endHoming; dsimp only; split <;> simp

/-! ## State.updateHoming -/

@[simp] theorem State.updateHoming_mode (s : State) (c : Fin 8) (e : GaugeEntry) : (s.updateHoming c e).mode = s.mode := by
  unfold State.updateHoming; dsimp only; repeat' split
  all_goals simp
@[simp] theorem State.updateHoming_xm (s : State) (c : Fin 8) (e : GaugeEntry) : (s.updateHoming c e).xm = s.xm := by
  unfold State.updateHoming; dsimp only; repeat' split
  all_goals simp
@[simp] theorem State.updateHoming_engine (s : State) (c : Fin 8) (e : GaugeEntry) : (s.updateHoming c e).engine = s.engine := by
  unfold State.updateHoming; dsimp only; repeat' split
  all_goals simp
@[simp] theorem State.updateHoming_tables (s : State) (c : Fin 8) (e : GaugeEntry) : (s.updateHoming c e).tables = s.tables := by
  unfold State.updateHoming; dsimp only; repeat' split
  all_goals simp
@[simp] theorem State.updateHoming_intake (s : State) (c : Fin 8) (e : GaugeEntry) : (s.updateHoming c e).intake = s.intake := by
  unfold State.updateHoming; dsimp only; repeat' split
  all_goals simp
@[simp] theorem State.updateHoming_speed (s : State) (c : Fin 8) (e : GaugeEntry) : (s.updateHoming c e).speed = s.speed := by
  unfold State.updateHoming; dsimp only; repeat' split
  all_goals simp
@[simp] theorem State.updateHoming_store (s : State) (c : Fin 8) (e : GaugeEntry) : (s.updateHoming c e).store = s.store := by
  unfold State.updateHoming; dsimp only; repeat' split
  all_goals simp
@[simp] theorem State.updateHoming_lamps (s : State) (c : Fin 8) (e : GaugeEntry) : (s.updateHoming c e).lamps = s.lamps := by
  unfold State.updateHoming; dsimp only; repeat' split
  all_goals simp
@[simp] theorem State.updateHoming_hours (s : State) (c : Fin 8) (e : GaugeEntry) : (s.updateHoming c e).hours = s.hours := by
  unfold State.updateHoming; dsimp only; repeat' split
  all_goals simp
@[simp] theorem State.updateHoming_panel (s : State) (c : Fin 8) (e : GaugeEntry) : (s.updateHoming c e).panel = s.panel := by
  unfold State.updateHoming; dsimp only; repeat' split
  all_goals simp
@[simp] theorem State.updateHoming_prescale (s : State) (c : Fin 8) (e : GaugeEntry) : (s.updateHoming c e).prescale = s.prescale := by
  unfold State.updateHoming; dsimp only; repeat' split
  all_goals simp
@[simp] theorem State.updateHoming_pending (s : State) (c : Fin 8) (e : GaugeEntry) : (s.updateHoming c e).pending = s.pending := by
  unfold State.updateHoming; dsimp only; repeat' split
  all_goals simp

/-! ## State.updateSweep -/

@[simp] theorem State.updateSweep_mode (s : State) (c : Fin 8) (e : GaugeEntry) : (s.updateSweep c e).mode = s.mode := by
  unfold State.updateSweep; dsimp only; repeat' split
  all_goals simp
@[simp] theorem State.updateSweep_xm (s : State) (c : Fin 8) (e : GaugeEntry) : (s.updateSweep c e).xm = s.xm := by
  unfold State.updateSweep; dsimp only; repeat' split
  all_goals simp
@[simp] theorem State.updateSweep_engine (s : State) (c : Fin 8) (e : GaugeEntry) : (s.updateSweep c e).engine = s.engine := by
  unfold State.updateSweep; dsimp only; repeat' split
  all_goals simp
@[simp] theorem State.updateSweep_tables (s : State) (c : Fin 8) (e : GaugeEntry) : (s.updateSweep c e).tables = s.tables := by
  unfold State.updateSweep; dsimp only; repeat' split
  all_goals simp
@[simp] theorem State.updateSweep_intake (s : State) (c : Fin 8) (e : GaugeEntry) : (s.updateSweep c e).intake = s.intake := by
  unfold State.updateSweep; dsimp only; repeat' split
  all_goals simp
@[simp] theorem State.updateSweep_speed (s : State) (c : Fin 8) (e : GaugeEntry) : (s.updateSweep c e).speed = s.speed := by
  unfold State.updateSweep; dsimp only; repeat' split
  all_goals simp
@[simp] theorem State.updateSweep_store (s : State) (c : Fin 8) (e : GaugeEntry) : (s.updateSweep c e).store = s.store := by
  unfold State.updateSweep; dsimp only; repeat' split
  all_goals simp
@[simp] theorem State.updateSweep_lamps (s : State) (c : Fin 8) (e : GaugeEntry) : (s.updateSweep c e).lamps = s.lamps := by
  unfold State.updateSweep; dsimp only; repeat' split
  all_goals simp
@[simp] theorem State.updateSweep_hours (s : State) (c : Fin 8) (e : GaugeEntry) : (s.updateSweep c e).hours = s.hours := by
  unfold State.updateSweep; dsimp only; repeat' split
  all_goals simp
@[simp] theorem State.updateSweep_panel (s : State) (c : Fin 8) (e : GaugeEntry) : (s.updateSweep c e).panel = s.panel := by
  unfold State.updateSweep; dsimp only; repeat' split
  all_goals simp
@[simp] theorem State.updateSweep_prescale (s : State) (c : Fin 8) (e : GaugeEntry) : (s.updateSweep c e).prescale = s.prescale := by
  unfold State.updateSweep; dsimp only; repeat' split
  all_goals simp
@[simp] theorem State.updateSweep_pending (s : State) (c : Fin 8) (e : GaugeEntry) : (s.updateSweep c e).pending = s.pending := by
  unfold State.updateSweep; dsimp only; repeat' split
  all_goals simp

/-! ## State.updateHolding -/

@[simp] theorem State.updateHolding_mode (s : State) (c : Fin 8) (e : GaugeEntry) : (s.updateHolding c e).mode = s.mode := by
  unfold State.updateHolding; dsimp only; repeat' split
  all_goals simp
@[simp] theorem State.updateHolding_xm (s : State) (c : Fin 8) (e : GaugeEntry) : (s.updateHolding c e).xm = s.xm := by
  unfold State.updateHolding; dsimp only; repeat' split
  all_goals simp
@[simp] theorem State.updateHolding_engine (s : State) (c : Fin 8) (e : GaugeEntry) : (s.updateHolding c e).engine = s.engine := by
  unfold State.updateHolding; dsimp only; repeat' split
  all_goals simp
@[simp] theorem State.updateHolding_tables (s : State) (c : Fin 8) (e : GaugeEntry) : (s.updateHolding c e).tables = s.tables := by
  unfold State.updateHolding; dsimp only; repeat' split
  all_goals simp
@[simp] theorem State.updateHolding_intake (s : State) (c : Fin 8) (e : GaugeEntry) : (s.updateHolding c e).intake = s.intake := by
  unfold State.updateHolding; dsimp only; repeat' split
  all_goals simp
@[simp] theorem State.updateHolding_speed (s : State) (c : Fin 8) (e : GaugeEntry) : (s.updateHolding c e).speed = s.speed := by
  unfold State.updateHolding; dsimp only; repeat' split
  all_goals simp
@[simp] theorem State.updateHolding_store (s : State) (c : Fin 8) (e : GaugeEntry) : (s.updateHolding c e).store = s.store := by
  unfold State.updateHolding; dsimp only; repeat' split
  all_goals simp
@[simp] theorem State.updateHolding_lamps (s : State) (c : Fin 8) (e : GaugeEntry) : (s.updateHolding c e).lamps = s.lamps := by
  unfold State.updateHolding; dsimp only; repeat' split
  all_goals simp
@[simp] theorem State.updateHolding_hours (s : State) (c : Fin 8) (e : GaugeEntry) : (s.updateHolding c e).hours = s.hours := by
  unfold State.updateHolding; dsimp only; repeat' split
  all_goals simp
@[simp] theorem State.updateHolding_panel (s : State) (c : Fin 8) (e : GaugeEntry) : (s.updateHolding c e).panel = s.panel := by
  unfold State.updateHolding; dsimp only; repeat' split
  all_goals simp
@[simp] theorem State.updateHolding_prescale (s : State) (c : Fin 8) (e : GaugeEntry) : (s.updateHolding c e).prescale = s.prescale := by
  unfold State.updateHolding; dsimp only; repeat' split
  all_goals simp
@[simp] theorem State.updateHolding_pending (s : State) (c : Fin 8) (e : GaugeEntry) : (s.updateHolding c e).pending = s.pending := by
  unfold State.updateHolding; dsimp only; repeat' split
  all_goals simp

/-! ## State.updateParking -/

@[simp] theorem State.updateParking_mode (s : State) (c : Fin 8) (e : GaugeEntry) : (s.updateParking c e).mode = s.mode := by
  unfold State.updateParking; dsimp only; repeat' split
  all_goals simp
@[simp] theorem State.updateParking_xm (s : State) (c : Fin 8) (e : GaugeEntry) : (s.updateParking c e).xm = s.xm := by
  unfold State.updateParking; dsimp only; repeat' split
  all_goals simp
@[simp] theorem State.updateParking_engine (s : State) (c : Fin 8) (e : GaugeEntry) : (s.updateParking c e).engine = s.engine := by
  unfold State.updateParking; dsimp only; repeat' split
  all_goals simp
@[simp] theorem State.updateParking_tables (s : State) (c : Fin 8) (e : GaugeEntry) : (s.updateParking c e).tables = s.tables := by
  unfold State.updateParking; dsimp only; repeat' split
  all_goals simp
@[simp] theorem State.updateParking_intake (s : State) (c : Fin 8) (e : GaugeEntry) : (s.updateParking c e).intake = s.intake := by
  unfold State.updateParking; dsimp only; repeat' split
  all_goals simp
@[simp] theorem State.updateParking_speed (s : State) (c : Fin 8) (e : GaugeEntry) : (s.updateParking c e).speed = s.speed := by
  unfold State.updateParking; dsimp only; repeat' split
  all_goals simp
@[simp] theorem State.updateParking_store (s : State) (c : Fin 8) (e : GaugeEntry) : (s.updateParking c e).store = s.store := by
  unfold State.updateParking; dsimp only; repeat' split
  all_goals simp
@[simp] theorem State.updateParking_lamps (s : State) (c : Fin 8) (e : GaugeEntry) : (s.updateParking c e).lamps = s.lamps := by
  unfold State.updateParking; dsimp only; repeat' split
  all_goals simp
@[simp] theorem State.updateParking_hours (s : State) (c : Fin 8) (e : GaugeEntry) : (s.updateParking c e).hours = s.hours := by
  unfold State.updateParking; dsimp only; repeat' split
  all_goals simp
@[simp] theorem State.updateParking_panel (s : State) (c : Fin 8) (e : GaugeEntry) : (s.updateParking c e).panel = s.panel := by
  unfold State.updateParking; dsimp only; repeat' split
  all_goals simp
@[simp] theorem State.updateParking_prescale (s : State) (c : Fin 8) (e : GaugeEntry) : (s.updateParking c e).prescale = s.prescale := by
  unfold State.updateParking; dsimp only; repeat' split
  all_goals simp
@[simp] theorem State.updateParking_pending (s : State) (c : Fin 8) (e : GaugeEntry) : (s.updateParking c e).pending = s.pending := by
  unfold State.updateParking; dsimp only; repeat' split
  all_goals simp

/-! ## State.updateChannel -/

@[simp] theorem State.updateChannel_mode (s : State) (c : Fin 8) : (State.updateChannel s c).mode = s.mode := by
  unfold State.updateChannel; repeat' split
  all_goals simp
@[simp] theorem State.updateChannel_xm (s : State) (c : Fin 8) : (State.updateChannel s c).xm = s.xm := by
  unfold State.updateChannel; repeat' split
  all_goals simp
@[simp] theorem State.updateChannel_engine (s : State) (c : Fin 8) : (State.updateChannel s c).engine = s.engine := by
  unfold State.updateChannel; repeat' split
  all_goals simp
@[simp] theorem State.updateChannel_tables (s : State) (c : Fin 8) : (State.updateChannel s c).tables = s.tables := by
  unfold State.updateChannel; repeat' split
  all_goals simp
@[simp] theorem State.updateChannel_intake (s : State) (c : Fin 8) : (State.updateChannel s c).intake = s.intake := by
  unfold State.updateChannel; repeat' split
  all_goals simp
@[simp] theorem State.updateChannel_speed (s : State) (c : Fin 8) : (State.updateChannel s c).speed = s.speed := by
  unfold State.updateChannel; repeat' split
  all_goals simp
@[simp] theorem State.updateChannel_store (s : State) (c : Fin 8) : (State.updateChannel s c).store = s.store := by
  unfold State.updateChannel; repeat' split
  all_goals simp
@[simp] theorem State.updateChannel_lamps (s : State) (c : Fin 8) : (State.updateChannel s c).lamps = s.lamps := by
  unfold State.updateChannel; repeat' split
  all_goals simp
@[simp] theorem State.updateChannel_hours (s : State) (c : Fin 8) : (State.updateChannel s c).hours = s.hours := by
  unfold State.updateChannel; repeat' split
  all_goals simp
@[simp] theorem State.updateChannel_panel (s : State) (c : Fin 8) : (State.updateChannel s c).panel = s.panel := by
  unfold State.updateChannel; repeat' split
  all_goals simp
@[simp] theorem State.updateChannel_prescale (s : State) (c : Fin 8) : (State.updateChannel s c).prescale = s.prescale := by
  unfold State.updateChannel; repeat' split
  all_goals simp
@[simp] theorem State.updateChannel_pending (s : State) (c : Fin 8) : (State.updateChannel s c).pending = s.pending := by
  unfold State.updateChannel; repeat' split
  all_goals simp

/-! ## State.alert -/

@[simp] theorem State.alert_mode (s : State) (id : Identity) (sev : Severity) (a b : Bool) : (s.alert id sev a b).mode = s.mode := by
  unfold State.alert; repeat' split
  all_goals simp
@[simp] theorem State.alert_xm (s : State) (id : Identity) (sev : Severity) (a b : Bool) : (s.alert id sev a b).xm = s.xm := by
  unfold State.alert; repeat' split
  all_goals simp
@[simp] theorem State.alert_engine (s : State) (id : Identity) (sev : Severity) (a b : Bool) : (s.alert id sev a b).engine = s.engine := by
  unfold State.alert; repeat' split
  all_goals simp
@[simp] theorem State.alert_tables (s : State) (id : Identity) (sev : Severity) (a b : Bool) : (s.alert id sev a b).tables = s.tables := by
  unfold State.alert; repeat' split
  all_goals simp
@[simp] theorem State.alert_intake (s : State) (id : Identity) (sev : Severity) (a b : Bool) : (s.alert id sev a b).intake = s.intake := by
  unfold State.alert; repeat' split
  all_goals simp
@[simp] theorem State.alert_gauges (s : State) (id : Identity) (sev : Severity) (a b : Bool) : (s.alert id sev a b).gauges = s.gauges := by
  unfold State.alert; repeat' split
  all_goals simp
@[simp] theorem State.alert_speed (s : State) (id : Identity) (sev : Severity) (a b : Bool) : (s.alert id sev a b).speed = s.speed := by
  unfold State.alert; repeat' split
  all_goals simp
@[simp] theorem State.alert_store (s : State) (id : Identity) (sev : Severity) (a b : Bool) : (s.alert id sev a b).store = s.store := by
  unfold State.alert; repeat' split
  all_goals simp
@[simp] theorem State.alert_lamps (s : State) (id : Identity) (sev : Severity) (a b : Bool) : (s.alert id sev a b).lamps = s.lamps := by
  unfold State.alert; repeat' split
  all_goals simp
@[simp] theorem State.alert_hours (s : State) (id : Identity) (sev : Severity) (a b : Bool) : (s.alert id sev a b).hours = s.hours := by
  unfold State.alert; repeat' split
  all_goals simp
@[simp] theorem State.alert_panel (s : State) (id : Identity) (sev : Severity) (a b : Bool) : (s.alert id sev a b).panel = s.panel := by
  unfold State.alert; repeat' split
  all_goals simp
@[simp] theorem State.alert_prescale (s : State) (id : Identity) (sev : Severity) (a b : Bool) : (s.alert id sev a b).prescale = s.prescale := by
  unfold State.alert; repeat' split
  all_goals simp
@[simp] theorem State.alert_pending (s : State) (id : Identity) (sev : Severity) (a b : Bool) : (s.alert id sev a b).pending = s.pending := by
  unfold State.alert; repeat' split
  all_goals simp

/-! ## State.slotAlerts -/

@[simp] theorem State.slotAlerts_mode (s : State) (n : Nat) (a b : Alerts) : (s.slotAlerts n a b).mode = s.mode := by
  simp [State.slotAlerts]
@[simp] theorem State.slotAlerts_xm (s : State) (n : Nat) (a b : Alerts) : (s.slotAlerts n a b).xm = s.xm := by
  simp [State.slotAlerts]
@[simp] theorem State.slotAlerts_engine (s : State) (n : Nat) (a b : Alerts) : (s.slotAlerts n a b).engine = s.engine := by
  simp [State.slotAlerts]
@[simp] theorem State.slotAlerts_tables (s : State) (n : Nat) (a b : Alerts) : (s.slotAlerts n a b).tables = s.tables := by
  simp [State.slotAlerts]
@[simp] theorem State.slotAlerts_intake (s : State) (n : Nat) (a b : Alerts) : (s.slotAlerts n a b).intake = s.intake := by
  simp [State.slotAlerts]
@[simp] theorem State.slotAlerts_gauges (s : State) (n : Nat) (a b : Alerts) : (s.slotAlerts n a b).gauges = s.gauges := by
  simp [State.slotAlerts]
@[simp] theorem State.slotAlerts_speed (s : State) (n : Nat) (a b : Alerts) : (s.slotAlerts n a b).speed = s.speed := by
  simp [State.slotAlerts]
@[simp] theorem State.slotAlerts_store (s : State) (n : Nat) (a b : Alerts) : (s.slotAlerts n a b).store = s.store := by
  simp [State.slotAlerts]
@[simp] theorem State.slotAlerts_lamps (s : State) (n : Nat) (a b : Alerts) : (s.slotAlerts n a b).lamps = s.lamps := by
  simp [State.slotAlerts]
@[simp] theorem State.slotAlerts_hours (s : State) (n : Nat) (a b : Alerts) : (s.slotAlerts n a b).hours = s.hours := by
  simp [State.slotAlerts]
@[simp] theorem State.slotAlerts_panel (s : State) (n : Nat) (a b : Alerts) : (s.slotAlerts n a b).panel = s.panel := by
  simp [State.slotAlerts]
@[simp] theorem State.slotAlerts_prescale (s : State) (n : Nat) (a b : Alerts) : (s.slotAlerts n a b).prescale = s.prescale := by
  simp [State.slotAlerts]
@[simp] theorem State.slotAlerts_pending (s : State) (n : Nat) (a b : Alerts) : (s.slotAlerts n a b).pending = s.pending := by
  simp [State.slotAlerts]

/-! ## State.evaluateHours -/

@[simp] theorem State.evaluateHours_mode (s : State) : (s.evaluateHours).mode = s.mode := by
  simp [State.evaluateHours]
@[simp] theorem State.evaluateHours_xm (s : State) : (s.evaluateHours).xm = s.xm := by
  simp [State.evaluateHours]
@[simp] theorem State.evaluateHours_engine (s : State) : (s.evaluateHours).engine = s.engine := by
  simp [State.evaluateHours]
@[simp] theorem State.evaluateHours_tables (s : State) : (s.evaluateHours).tables = s.tables := by
  simp [State.evaluateHours]
@[simp] theorem State.evaluateHours_intake (s : State) : (s.evaluateHours).intake = s.intake := by
  simp [State.evaluateHours]
@[simp] theorem State.evaluateHours_gauges (s : State) : (s.evaluateHours).gauges = s.gauges := by
  simp [State.evaluateHours]
@[simp] theorem State.evaluateHours_speed (s : State) : (s.evaluateHours).speed = s.speed := by
  simp [State.evaluateHours]
@[simp] theorem State.evaluateHours_store (s : State) : (s.evaluateHours).store = s.store := by
  simp [State.evaluateHours]
@[simp] theorem State.evaluateHours_lamps (s : State) : (s.evaluateHours).lamps = s.lamps := by
  simp [State.evaluateHours]
@[simp] theorem State.evaluateHours_panel (s : State) : (s.evaluateHours).panel = s.panel := by
  simp [State.evaluateHours]
@[simp] theorem State.evaluateHours_prescale (s : State) : (s.evaluateHours).prescale = s.prescale := by
  simp [State.evaluateHours]
@[simp] theorem State.evaluateHours_pending (s : State) : (s.evaluateHours).pending = s.pending := by
  simp [State.evaluateHours]

@[simp] theorem State.evaluateHours_hours (s : State) :
    s.evaluateHours.hours = s.hours.evaluated s.tables.rules s.speed.moving := by
  simp [State.evaluateHours]

/-! ## State.postLampFault -/

@[simp] theorem State.postLampFault_mode (s : State) (n : Fin 40) : (s.postLampFault n).mode = s.mode := by
  unfold State.postLampFault; repeat' split
  all_goals simp
@[simp] theorem State.postLampFault_xm (s : State) (n : Fin 40) : (s.postLampFault n).xm = s.xm := by
  unfold State.postLampFault; repeat' split
  all_goals simp
@[simp] theorem State.postLampFault_engine (s : State) (n : Fin 40) : (s.postLampFault n).engine = s.engine := by
  unfold State.postLampFault; repeat' split
  all_goals simp
@[simp] theorem State.postLampFault_tables (s : State) (n : Fin 40) : (s.postLampFault n).tables = s.tables := by
  unfold State.postLampFault; repeat' split
  all_goals simp
@[simp] theorem State.postLampFault_intake (s : State) (n : Fin 40) : (s.postLampFault n).intake = s.intake := by
  unfold State.postLampFault; repeat' split
  all_goals simp
@[simp] theorem State.postLampFault_gauges (s : State) (n : Fin 40) : (s.postLampFault n).gauges = s.gauges := by
  unfold State.postLampFault; repeat' split
  all_goals simp
@[simp] theorem State.postLampFault_speed (s : State) (n : Fin 40) : (s.postLampFault n).speed = s.speed := by
  unfold State.postLampFault; repeat' split
  all_goals simp
@[simp] theorem State.postLampFault_store (s : State) (n : Fin 40) : (s.postLampFault n).store = s.store := by
  unfold State.postLampFault; repeat' split
  all_goals simp
@[simp] theorem State.postLampFault_lamps (s : State) (n : Fin 40) : (s.postLampFault n).lamps = s.lamps := by
  unfold State.postLampFault; repeat' split
  all_goals simp
@[simp] theorem State.postLampFault_hours (s : State) (n : Fin 40) : (s.postLampFault n).hours = s.hours := by
  unfold State.postLampFault; repeat' split
  all_goals simp
@[simp] theorem State.postLampFault_panel (s : State) (n : Fin 40) : (s.postLampFault n).panel = s.panel := by
  unfold State.postLampFault; repeat' split
  all_goals simp
@[simp] theorem State.postLampFault_prescale (s : State) (n : Fin 40) : (s.postLampFault n).prescale = s.prescale := by
  unfold State.postLampFault; repeat' split
  all_goals simp
@[simp] theorem State.postLampFault_pending (s : State) (n : Fin 40) : (s.postLampFault n).pending = s.pending := by
  unfold State.postLampFault; repeat' split
  all_goals simp

/-! ## State.lampFaultMessage -/

@[simp] theorem State.lampFaultMessage_mode (s : State) (n : Fin 40) (a b : Bool) : (s.lampFaultMessage n a b).mode = s.mode := by
  unfold State.lampFaultMessage; repeat' split
  all_goals simp
@[simp] theorem State.lampFaultMessage_xm (s : State) (n : Fin 40) (a b : Bool) : (s.lampFaultMessage n a b).xm = s.xm := by
  unfold State.lampFaultMessage; repeat' split
  all_goals simp
@[simp] theorem State.lampFaultMessage_engine (s : State) (n : Fin 40) (a b : Bool) : (s.lampFaultMessage n a b).engine = s.engine := by
  unfold State.lampFaultMessage; repeat' split
  all_goals simp
@[simp] theorem State.lampFaultMessage_tables (s : State) (n : Fin 40) (a b : Bool) : (s.lampFaultMessage n a b).tables = s.tables := by
  unfold State.lampFaultMessage; repeat' split
  all_goals simp
@[simp] theorem State.lampFaultMessage_intake (s : State) (n : Fin 40) (a b : Bool) : (s.lampFaultMessage n a b).intake = s.intake := by
  unfold State.lampFaultMessage; repeat' split
  all_goals simp
@[simp] theorem State.lampFaultMessage_gauges (s : State) (n : Fin 40) (a b : Bool) : (s.lampFaultMessage n a b).gauges = s.gauges := by
  unfold State.lampFaultMessage; repeat' split
  all_goals simp
@[simp] theorem State.lampFaultMessage_speed (s : State) (n : Fin 40) (a b : Bool) : (s.lampFaultMessage n a b).speed = s.speed := by
  unfold State.lampFaultMessage; repeat' split
  all_goals simp
@[simp] theorem State.lampFaultMessage_store (s : State) (n : Fin 40) (a b : Bool) : (s.lampFaultMessage n a b).store = s.store := by
  unfold State.lampFaultMessage; repeat' split
  all_goals simp
@[simp] theorem State.lampFaultMessage_lamps (s : State) (n : Fin 40) (a b : Bool) : (s.lampFaultMessage n a b).lamps = s.lamps := by
  unfold State.lampFaultMessage; repeat' split
  all_goals simp
@[simp] theorem State.lampFaultMessage_hours (s : State) (n : Fin 40) (a b : Bool) : (s.lampFaultMessage n a b).hours = s.hours := by
  unfold State.lampFaultMessage; repeat' split
  all_goals simp
@[simp] theorem State.lampFaultMessage_panel (s : State) (n : Fin 40) (a b : Bool) : (s.lampFaultMessage n a b).panel = s.panel := by
  unfold State.lampFaultMessage; repeat' split
  all_goals simp
@[simp] theorem State.lampFaultMessage_prescale (s : State) (n : Fin 40) (a b : Bool) : (s.lampFaultMessage n a b).prescale = s.prescale := by
  unfold State.lampFaultMessage; repeat' split
  all_goals simp
@[simp] theorem State.lampFaultMessage_pending (s : State) (n : Fin 40) (a b : Bool) : (s.lampFaultMessage n a b).pending = s.pending := by
  unfold State.lampFaultMessage; repeat' split
  all_goals simp

/-! ## State.setLampFault -/

@[simp] theorem State.setLampFault_mode (s : State) (n : Fin 40) (r : LampRec) : (s.setLampFault n r).mode = s.mode := by
  unfold State.setLampFault; dsimp only; split <;> simp
@[simp] theorem State.setLampFault_xm (s : State) (n : Fin 40) (r : LampRec) : (s.setLampFault n r).xm = s.xm := by
  unfold State.setLampFault; dsimp only; split <;> simp
@[simp] theorem State.setLampFault_engine (s : State) (n : Fin 40) (r : LampRec) : (s.setLampFault n r).engine = s.engine := by
  unfold State.setLampFault; dsimp only; split <;> simp
@[simp] theorem State.setLampFault_tables (s : State) (n : Fin 40) (r : LampRec) : (s.setLampFault n r).tables = s.tables := by
  unfold State.setLampFault; dsimp only; split <;> simp
@[simp] theorem State.setLampFault_intake (s : State) (n : Fin 40) (r : LampRec) : (s.setLampFault n r).intake = s.intake := by
  unfold State.setLampFault; dsimp only; split <;> simp
@[simp] theorem State.setLampFault_gauges (s : State) (n : Fin 40) (r : LampRec) : (s.setLampFault n r).gauges = s.gauges := by
  unfold State.setLampFault; dsimp only; split <;> simp
@[simp] theorem State.setLampFault_speed (s : State) (n : Fin 40) (r : LampRec) : (s.setLampFault n r).speed = s.speed := by
  unfold State.setLampFault; dsimp only; split <;> simp
@[simp] theorem State.setLampFault_store (s : State) (n : Fin 40) (r : LampRec) : (s.setLampFault n r).store = s.store := by
  unfold State.setLampFault; dsimp only; split <;> simp
@[simp] theorem State.setLampFault_hours (s : State) (n : Fin 40) (r : LampRec) : (s.setLampFault n r).hours = s.hours := by
  unfold State.setLampFault; dsimp only; split <;> simp
@[simp] theorem State.setLampFault_panel (s : State) (n : Fin 40) (r : LampRec) : (s.setLampFault n r).panel = s.panel := by
  unfold State.setLampFault; dsimp only; split <;> simp
@[simp] theorem State.setLampFault_prescale (s : State) (n : Fin 40) (r : LampRec) : (s.setLampFault n r).prescale = s.prescale := by
  unfold State.setLampFault; dsimp only; split <;> simp
@[simp] theorem State.setLampFault_pending (s : State) (n : Fin 40) (r : LampRec) : (s.setLampFault n r).pending = s.pending := by
  unfold State.setLampFault; dsimp only; split <;> simp

@[simp] theorem State.setLampFault_lamps (s : State) (n : Fin 40) (r : LampRec) :
    (s.setLampFault n r).lamps = { s.lamps with recs := putAt s.lamps.recs n r } := by
  unfold State.setLampFault; dsimp only; split <;> simp

/-! ## State.repostLampFault -/

@[simp] theorem State.repostLampFault_mode (v : Severity) (s : State) (n : Fin 40) : (State.repostLampFault v s n).mode = s.mode := by
  unfold State.repostLampFault; repeat' split
  all_goals simp
@[simp] theorem State.repostLampFault_xm (v : Severity) (s : State) (n : Fin 40) : (State.repostLampFault v s n).xm = s.xm := by
  unfold State.repostLampFault; repeat' split
  all_goals simp
@[simp] theorem State.repostLampFault_engine (v : Severity) (s : State) (n : Fin 40) : (State.repostLampFault v s n).engine = s.engine := by
  unfold State.repostLampFault; repeat' split
  all_goals simp
@[simp] theorem State.repostLampFault_tables (v : Severity) (s : State) (n : Fin 40) : (State.repostLampFault v s n).tables = s.tables := by
  unfold State.repostLampFault; repeat' split
  all_goals simp
@[simp] theorem State.repostLampFault_intake (v : Severity) (s : State) (n : Fin 40) : (State.repostLampFault v s n).intake = s.intake := by
  unfold State.repostLampFault; repeat' split
  all_goals simp
@[simp] theorem State.repostLampFault_gauges (v : Severity) (s : State) (n : Fin 40) : (State.repostLampFault v s n).gauges = s.gauges := by
  unfold State.repostLampFault; repeat' split
  all_goals simp
@[simp] theorem State.repostLampFault_speed (v : Severity) (s : State) (n : Fin 40) : (State.repostLampFault v s n).speed = s.speed := by
  unfold State.repostLampFault; repeat' split
  all_goals simp
@[simp] theorem State.repostLampFault_store (v : Severity) (s : State) (n : Fin 40) : (State.repostLampFault v s n).store = s.store := by
  unfold State.repostLampFault; repeat' split
  all_goals simp
@[simp] theorem State.repostLampFault_lamps (v : Severity) (s : State) (n : Fin 40) : (State.repostLampFault v s n).lamps = s.lamps := by
  unfold State.repostLampFault; repeat' split
  all_goals simp
@[simp] theorem State.repostLampFault_hours (v : Severity) (s : State) (n : Fin 40) : (State.repostLampFault v s n).hours = s.hours := by
  unfold State.repostLampFault; repeat' split
  all_goals simp
@[simp] theorem State.repostLampFault_panel (v : Severity) (s : State) (n : Fin 40) : (State.repostLampFault v s n).panel = s.panel := by
  unfold State.repostLampFault; repeat' split
  all_goals simp
@[simp] theorem State.repostLampFault_prescale (v : Severity) (s : State) (n : Fin 40) : (State.repostLampFault v s n).prescale = s.prescale := by
  unfold State.repostLampFault; repeat' split
  all_goals simp
@[simp] theorem State.repostLampFault_pending (v : Severity) (s : State) (n : Fin 40) : (State.repostLampFault v s n).pending = s.pending := by
  unfold State.repostLampFault; repeat' split
  all_goals simp

/-! ## State.judgeEscalation -/

@[simp] theorem State.judgeEscalation_mode (s : State) (n : Fin 40) : (s.judgeEscalation n).mode = s.mode := by
  unfold State.judgeEscalation; dsimp only; repeat' split
  all_goals simp [foldl_keeps (State.repostLampFault _) (fun s => s.mode)]
@[simp] theorem State.judgeEscalation_xm (s : State) (n : Fin 40) : (s.judgeEscalation n).xm = s.xm := by
  unfold State.judgeEscalation; dsimp only; repeat' split
  all_goals simp [foldl_keeps (State.repostLampFault _) (fun s => s.xm)]
@[simp] theorem State.judgeEscalation_engine (s : State) (n : Fin 40) : (s.judgeEscalation n).engine = s.engine := by
  unfold State.judgeEscalation; dsimp only; repeat' split
  all_goals simp [foldl_keeps (State.repostLampFault _) (fun s => s.engine)]
@[simp] theorem State.judgeEscalation_tables (s : State) (n : Fin 40) : (s.judgeEscalation n).tables = s.tables := by
  unfold State.judgeEscalation; dsimp only; repeat' split
  all_goals simp [foldl_keeps (State.repostLampFault _) (fun s => s.tables)]
@[simp] theorem State.judgeEscalation_intake (s : State) (n : Fin 40) : (s.judgeEscalation n).intake = s.intake := by
  unfold State.judgeEscalation; dsimp only; repeat' split
  all_goals simp [foldl_keeps (State.repostLampFault _) (fun s => s.intake)]
@[simp] theorem State.judgeEscalation_gauges (s : State) (n : Fin 40) : (s.judgeEscalation n).gauges = s.gauges := by
  unfold State.judgeEscalation; dsimp only; repeat' split
  all_goals simp [foldl_keeps (State.repostLampFault _) (fun s => s.gauges)]
@[simp] theorem State.judgeEscalation_speed (s : State) (n : Fin 40) : (s.judgeEscalation n).speed = s.speed := by
  unfold State.judgeEscalation; dsimp only; repeat' split
  all_goals simp [foldl_keeps (State.repostLampFault _) (fun s => s.speed)]
@[simp] theorem State.judgeEscalation_store (s : State) (n : Fin 40) : (s.judgeEscalation n).store = s.store := by
  unfold State.judgeEscalation; dsimp only; repeat' split
  all_goals simp [foldl_keeps (State.repostLampFault _) (fun s => s.store)]
@[simp] theorem State.judgeEscalation_hours (s : State) (n : Fin 40) : (s.judgeEscalation n).hours = s.hours := by
  unfold State.judgeEscalation; dsimp only; repeat' split
  all_goals simp [foldl_keeps (State.repostLampFault _) (fun s => s.hours)]
@[simp] theorem State.judgeEscalation_panel (s : State) (n : Fin 40) : (s.judgeEscalation n).panel = s.panel := by
  unfold State.judgeEscalation; dsimp only; repeat' split
  all_goals simp [foldl_keeps (State.repostLampFault _) (fun s => s.panel)]
@[simp] theorem State.judgeEscalation_prescale (s : State) (n : Fin 40) : (s.judgeEscalation n).prescale = s.prescale := by
  unfold State.judgeEscalation; dsimp only; repeat' split
  all_goals simp [foldl_keeps (State.repostLampFault _) (fun s => s.prescale)]
@[simp] theorem State.judgeEscalation_pending (s : State) (n : Fin 40) : (s.judgeEscalation n).pending = s.pending := by
  unfold State.judgeEscalation; dsimp only; repeat' split
  all_goals simp [foldl_keeps (State.repostLampFault _) (fun s => s.pending)]

/-! ## State.riseMessage -/

@[simp] theorem State.riseMessage_mode (s : State) (n : Fin 40) (e : LampEntry) : (s.riseMessage n e).mode = s.mode := by
  unfold State.riseMessage; dsimp only; repeat' split
  all_goals simp
@[simp] theorem State.riseMessage_xm (s : State) (n : Fin 40) (e : LampEntry) : (s.riseMessage n e).xm = s.xm := by
  unfold State.riseMessage; dsimp only; repeat' split
  all_goals simp
@[simp] theorem State.riseMessage_engine (s : State) (n : Fin 40) (e : LampEntry) : (s.riseMessage n e).engine = s.engine := by
  unfold State.riseMessage; dsimp only; repeat' split
  all_goals simp
@[simp] theorem State.riseMessage_tables (s : State) (n : Fin 40) (e : LampEntry) : (s.riseMessage n e).tables = s.tables := by
  unfold State.riseMessage; dsimp only; repeat' split
  all_goals simp
@[simp] theorem State.riseMessage_intake (s : State) (n : Fin 40) (e : LampEntry) : (s.riseMessage n e).intake = s.intake := by
  unfold State.riseMessage; dsimp only; repeat' split
  all_goals simp
@[simp] theorem State.riseMessage_gauges (s : State) (n : Fin 40) (e : LampEntry) : (s.riseMessage n e).gauges = s.gauges := by
  unfold State.riseMessage; dsimp only; repeat' split
  all_goals simp
@[simp] theorem State.riseMessage_speed (s : State) (n : Fin 40) (e : LampEntry) : (s.riseMessage n e).speed = s.speed := by
  unfold State.riseMessage; dsimp only; repeat' split
  all_goals simp
@[simp] theorem State.riseMessage_store (s : State) (n : Fin 40) (e : LampEntry) : (s.riseMessage n e).store = s.store := by
  unfold State.riseMessage; dsimp only; repeat' split
  all_goals simp
@[simp] theorem State.riseMessage_hours (s : State) (n : Fin 40) (e : LampEntry) : (s.riseMessage n e).hours = s.hours := by
  unfold State.riseMessage; dsimp only; repeat' split
  all_goals simp
@[simp] theorem State.riseMessage_panel (s : State) (n : Fin 40) (e : LampEntry) : (s.riseMessage n e).panel = s.panel := by
  unfold State.riseMessage; dsimp only; repeat' split
  all_goals simp
@[simp] theorem State.riseMessage_prescale (s : State) (n : Fin 40) (e : LampEntry) : (s.riseMessage n e).prescale = s.prescale := by
  unfold State.riseMessage; dsimp only; repeat' split
  all_goals simp
@[simp] theorem State.riseMessage_pending (s : State) (n : Fin 40) (e : LampEntry) : (s.riseMessage n e).pending = s.pending := by
  unfold State.riseMessage; dsimp only; repeat' split
  all_goals simp

/-! ## State.judgeRise -/

@[simp] theorem State.judgeRise_mode (s : State) (n : Fin 40) (e : LampEntry) (p : Demand) : (s.judgeRise n e p).mode = s.mode := by
  unfold State.judgeRise; dsimp only; split <;> simp
@[simp] theorem State.judgeRise_xm (s : State) (n : Fin 40) (e : LampEntry) (p : Demand) : (s.judgeRise n e p).xm = s.xm := by
  unfold State.judgeRise; dsimp only; split <;> simp
@[simp] theorem State.judgeRise_engine (s : State) (n : Fin 40) (e : LampEntry) (p : Demand) : (s.judgeRise n e p).engine = s.engine := by
  unfold State.judgeRise; dsimp only; split <;> simp
@[simp] theorem State.judgeRise_tables (s : State) (n : Fin 40) (e : LampEntry) (p : Demand) : (s.judgeRise n e p).tables = s.tables := by
  unfold State.judgeRise; dsimp only; split <;> simp
@[simp] theorem State.judgeRise_intake (s : State) (n : Fin 40) (e : LampEntry) (p : Demand) : (s.judgeRise n e p).intake = s.intake := by
  unfold State.judgeRise; dsimp only; split <;> simp
@[simp] theorem State.judgeRise_gauges (s : State) (n : Fin 40) (e : LampEntry) (p : Demand) : (s.judgeRise n e p).gauges = s.gauges := by
  unfold State.judgeRise; dsimp only; split <;> simp
@[simp] theorem State.judgeRise_speed (s : State) (n : Fin 40) (e : LampEntry) (p : Demand) : (s.judgeRise n e p).speed = s.speed := by
  unfold State.judgeRise; dsimp only; split <;> simp
@[simp] theorem State.judgeRise_store (s : State) (n : Fin 40) (e : LampEntry) (p : Demand) : (s.judgeRise n e p).store = s.store := by
  unfold State.judgeRise; dsimp only; split <;> simp
@[simp] theorem State.judgeRise_hours (s : State) (n : Fin 40) (e : LampEntry) (p : Demand) : (s.judgeRise n e p).hours = s.hours := by
  unfold State.judgeRise; dsimp only; split <;> simp
@[simp] theorem State.judgeRise_panel (s : State) (n : Fin 40) (e : LampEntry) (p : Demand) : (s.judgeRise n e p).panel = s.panel := by
  unfold State.judgeRise; dsimp only; split <;> simp
@[simp] theorem State.judgeRise_prescale (s : State) (n : Fin 40) (e : LampEntry) (p : Demand) : (s.judgeRise n e p).prescale = s.prescale := by
  unfold State.judgeRise; dsimp only; split <;> simp
@[simp] theorem State.judgeRise_pending (s : State) (n : Fin 40) (e : LampEntry) (p : Demand) : (s.judgeRise n e p).pending = s.pending := by
  unfold State.judgeRise; dsimp only; split <;> simp

/-! ## State.dropRise -/

@[simp] theorem State.dropRise_mode (s : State) (n : Fin 40) : (s.dropRise n).mode = s.mode := by
  unfold State.dropRise; dsimp only; repeat' split
  all_goals simp
@[simp] theorem State.dropRise_xm (s : State) (n : Fin 40) : (s.dropRise n).xm = s.xm := by
  unfold State.dropRise; dsimp only; repeat' split
  all_goals simp
@[simp] theorem State.dropRise_engine (s : State) (n : Fin 40) : (s.dropRise n).engine = s.engine := by
  unfold State.dropRise; dsimp only; repeat' split
  all_goals simp
@[simp] theorem State.dropRise_tables (s : State) (n : Fin 40) : (s.dropRise n).tables = s.tables := by
  unfold State.dropRise; dsimp only; repeat' split
  all_goals simp
@[simp] theorem State.dropRise_intake (s : State) (n : Fin 40) : (s.dropRise n).intake = s.intake := by
  unfold State.dropRise; dsimp only; repeat' split
  all_goals simp
@[simp] theorem State.dropRise_gauges (s : State) (n : Fin 40) : (s.dropRise n).gauges = s.gauges := by
  unfold State.dropRise; dsimp only; repeat' split
  all_goals simp
@[simp] theorem State.dropRise_speed (s : State) (n : Fin 40) : (s.dropRise n).speed = s.speed := by
  unfold State.dropRise; dsimp only; repeat' split
  all_goals simp
@[simp] theorem State.dropRise_store (s : State) (n : Fin 40) : (s.dropRise n).store = s.store := by
  unfold State.dropRise; dsimp only; repeat' split
  all_goals simp
@[simp] theorem State.dropRise_hours (s : State) (n : Fin 40) : (s.dropRise n).hours = s.hours := by
  unfold State.dropRise; dsimp only; repeat' split
  all_goals simp
@[simp] theorem State.dropRise_panel (s : State) (n : Fin 40) : (s.dropRise n).panel = s.panel := by
  unfold State.dropRise; dsimp only; repeat' split
  all_goals simp
@[simp] theorem State.dropRise_prescale (s : State) (n : Fin 40) : (s.dropRise n).prescale = s.prescale := by
  unfold State.dropRise; dsimp only; repeat' split
  all_goals simp
@[simp] theorem State.dropRise_pending (s : State) (n : Fin 40) : (s.dropRise n).pending = s.pending := by
  unfold State.dropRise; dsimp only; repeat' split
  all_goals simp

/-! ## State.sampleLamp -/

@[simp] theorem State.sampleLamp_mode (s : State) (n : Fin 40) (b : Bool) : (s.sampleLamp n b).mode = s.mode := by
  unfold State.sampleLamp; repeat' split
  all_goals simp
@[simp] theorem State.sampleLamp_xm (s : State) (n : Fin 40) (b : Bool) : (s.sampleLamp n b).xm = s.xm := by
  unfold State.sampleLamp; repeat' split
  all_goals simp
@[simp] theorem State.sampleLamp_engine (s : State) (n : Fin 40) (b : Bool) : (s.sampleLamp n b).engine = s.engine := by
  unfold State.sampleLamp; repeat' split
  all_goals simp
@[simp] theorem State.sampleLamp_tables (s : State) (n : Fin 40) (b : Bool) : (s.sampleLamp n b).tables = s.tables := by
  unfold State.sampleLamp; repeat' split
  all_goals simp
@[simp] theorem State.sampleLamp_intake (s : State) (n : Fin 40) (b : Bool) : (s.sampleLamp n b).intake = s.intake := by
  unfold State.sampleLamp; repeat' split
  all_goals simp
@[simp] theorem State.sampleLamp_gauges (s : State) (n : Fin 40) (b : Bool) : (s.sampleLamp n b).gauges = s.gauges := by
  unfold State.sampleLamp; repeat' split
  all_goals simp
@[simp] theorem State.sampleLamp_speed (s : State) (n : Fin 40) (b : Bool) : (s.sampleLamp n b).speed = s.speed := by
  unfold State.sampleLamp; repeat' split
  all_goals simp
@[simp] theorem State.sampleLamp_store (s : State) (n : Fin 40) (b : Bool) : (s.sampleLamp n b).store = s.store := by
  unfold State.sampleLamp; repeat' split
  all_goals simp
@[simp] theorem State.sampleLamp_hours (s : State) (n : Fin 40) (b : Bool) : (s.sampleLamp n b).hours = s.hours := by
  unfold State.sampleLamp; repeat' split
  all_goals simp
@[simp] theorem State.sampleLamp_panel (s : State) (n : Fin 40) (b : Bool) : (s.sampleLamp n b).panel = s.panel := by
  unfold State.sampleLamp; repeat' split
  all_goals simp
@[simp] theorem State.sampleLamp_prescale (s : State) (n : Fin 40) (b : Bool) : (s.sampleLamp n b).prescale = s.prescale := by
  unfold State.sampleLamp; repeat' split
  all_goals simp
@[simp] theorem State.sampleLamp_pending (s : State) (n : Fin 40) (b : Bool) : (s.sampleLamp n b).pending = s.pending := by
  unfold State.sampleLamp; repeat' split
  all_goals simp

/-! ## State.formDemands -/

@[simp] theorem State.formDemands_mode (s : State) (n : Fin 40) : (s.formDemands n).mode = s.mode := by
  unfold State.formDemands; repeat' split
  all_goals simp
@[simp] theorem State.formDemands_link (s : State) (n : Fin 40) : (s.formDemands n).link = s.link := by
  unfold State.formDemands; repeat' split
  all_goals simp
@[simp] theorem State.formDemands_xm (s : State) (n : Fin 40) : (s.formDemands n).xm = s.xm := by
  unfold State.formDemands; repeat' split
  all_goals simp
@[simp] theorem State.formDemands_engine (s : State) (n : Fin 40) : (s.formDemands n).engine = s.engine := by
  unfold State.formDemands; repeat' split
  all_goals simp
@[simp] theorem State.formDemands_tables (s : State) (n : Fin 40) : (s.formDemands n).tables = s.tables := by
  unfold State.formDemands; repeat' split
  all_goals simp
@[simp] theorem State.formDemands_intake (s : State) (n : Fin 40) : (s.formDemands n).intake = s.intake := by
  unfold State.formDemands; repeat' split
  all_goals simp
@[simp] theorem State.formDemands_gauges (s : State) (n : Fin 40) : (s.formDemands n).gauges = s.gauges := by
  unfold State.formDemands; repeat' split
  all_goals simp
@[simp] theorem State.formDemands_speed (s : State) (n : Fin 40) : (s.formDemands n).speed = s.speed := by
  unfold State.formDemands; repeat' split
  all_goals simp
@[simp] theorem State.formDemands_store (s : State) (n : Fin 40) : (s.formDemands n).store = s.store := by
  unfold State.formDemands; repeat' split
  all_goals simp
@[simp] theorem State.formDemands_chime (s : State) (n : Fin 40) : (s.formDemands n).chime = s.chime := by
  unfold State.formDemands; repeat' split
  all_goals simp
@[simp] theorem State.formDemands_hours (s : State) (n : Fin 40) : (s.formDemands n).hours = s.hours := by
  unfold State.formDemands; repeat' split
  all_goals simp
@[simp] theorem State.formDemands_stack (s : State) (n : Fin 40) : (s.formDemands n).stack = s.stack := by
  unfold State.formDemands; repeat' split
  all_goals simp
@[simp] theorem State.formDemands_panel (s : State) (n : Fin 40) : (s.formDemands n).panel = s.panel := by
  unfold State.formDemands; repeat' split
  all_goals simp
@[simp] theorem State.formDemands_prescale (s : State) (n : Fin 40) : (s.formDemands n).prescale = s.prescale := by
  unfold State.formDemands; repeat' split
  all_goals simp
@[simp] theorem State.formDemands_pending (s : State) (n : Fin 40) : (s.formDemands n).pending = s.pending := by
  unfold State.formDemands; repeat' split
  all_goals simp

/-! ## State.driveLamp -/

@[simp] theorem State.driveLamp_mode (s : State) (n : Fin 40) : (s.driveLamp n).mode = s.mode := rfl
@[simp] theorem State.driveLamp_link (s : State) (n : Fin 40) : (s.driveLamp n).link = s.link := rfl
@[simp] theorem State.driveLamp_xm (s : State) (n : Fin 40) : (s.driveLamp n).xm = s.xm := rfl
@[simp] theorem State.driveLamp_engine (s : State) (n : Fin 40) : (s.driveLamp n).engine = s.engine := rfl
@[simp] theorem State.driveLamp_tables (s : State) (n : Fin 40) : (s.driveLamp n).tables = s.tables := rfl
@[simp] theorem State.driveLamp_intake (s : State) (n : Fin 40) : (s.driveLamp n).intake = s.intake := rfl
@[simp] theorem State.driveLamp_gauges (s : State) (n : Fin 40) : (s.driveLamp n).gauges = s.gauges := rfl
@[simp] theorem State.driveLamp_speed (s : State) (n : Fin 40) : (s.driveLamp n).speed = s.speed := rfl
@[simp] theorem State.driveLamp_store (s : State) (n : Fin 40) : (s.driveLamp n).store = s.store := rfl
@[simp] theorem State.driveLamp_chime (s : State) (n : Fin 40) : (s.driveLamp n).chime = s.chime := rfl
@[simp] theorem State.driveLamp_hours (s : State) (n : Fin 40) : (s.driveLamp n).hours = s.hours := rfl
@[simp] theorem State.driveLamp_stack (s : State) (n : Fin 40) : (s.driveLamp n).stack = s.stack := rfl
@[simp] theorem State.driveLamp_panel (s : State) (n : Fin 40) : (s.driveLamp n).panel = s.panel := rfl
@[simp] theorem State.driveLamp_prescale (s : State) (n : Fin 40) : (s.driveLamp n).prescale = s.prescale := rfl
@[simp] theorem State.driveLamp_pending (s : State) (n : Fin 40) : (s.driveLamp n).pending = s.pending := rfl

/-! ## State.riseLamp -/

@[simp] theorem State.riseLamp_mode (s : State) (n : Fin 40) : (s.riseLamp n).mode = s.mode := by
  unfold State.riseLamp; dsimp only; split <;> simp
@[simp] theorem State.riseLamp_xm (s : State) (n : Fin 40) : (s.riseLamp n).xm = s.xm := by
  unfold State.riseLamp; dsimp only; split <;> simp
@[simp] theorem State.riseLamp_engine (s : State) (n : Fin 40) : (s.riseLamp n).engine = s.engine := by
  unfold State.riseLamp; dsimp only; split <;> simp
@[simp] theorem State.riseLamp_tables (s : State) (n : Fin 40) : (s.riseLamp n).tables = s.tables := by
  unfold State.riseLamp; dsimp only; split <;> simp
@[simp] theorem State.riseLamp_intake (s : State) (n : Fin 40) : (s.riseLamp n).intake = s.intake := by
  unfold State.riseLamp; dsimp only; split <;> simp
@[simp] theorem State.riseLamp_gauges (s : State) (n : Fin 40) : (s.riseLamp n).gauges = s.gauges := by
  unfold State.riseLamp; dsimp only; split <;> simp
@[simp] theorem State.riseLamp_speed (s : State) (n : Fin 40) : (s.riseLamp n).speed = s.speed := by
  unfold State.riseLamp; dsimp only; split <;> simp
@[simp] theorem State.riseLamp_store (s : State) (n : Fin 40) : (s.riseLamp n).store = s.store := by
  unfold State.riseLamp; dsimp only; split <;> simp
@[simp] theorem State.riseLamp_hours (s : State) (n : Fin 40) : (s.riseLamp n).hours = s.hours := by
  unfold State.riseLamp; dsimp only; split <;> simp
@[simp] theorem State.riseLamp_panel (s : State) (n : Fin 40) : (s.riseLamp n).panel = s.panel := by
  unfold State.riseLamp; dsimp only; split <;> simp
@[simp] theorem State.riseLamp_prescale (s : State) (n : Fin 40) : (s.riseLamp n).prescale = s.prescale := by
  unfold State.riseLamp; dsimp only; split <;> simp
@[simp] theorem State.riseLamp_pending (s : State) (n : Fin 40) : (s.riseLamp n).pending = s.pending := by
  unfold State.riseLamp; dsimp only; split <;> simp

/-! ## State.evaluateLamp -/

@[simp] theorem State.evaluateLamp_mode (o : List (Fin 40)) (s : State) (n : Fin 40) : (State.evaluateLamp o s n).mode = s.mode := by
  simp [State.evaluateLamp]
@[simp] theorem State.evaluateLamp_xm (o : List (Fin 40)) (s : State) (n : Fin 40) : (State.evaluateLamp o s n).xm = s.xm := by
  simp [State.evaluateLamp]
@[simp] theorem State.evaluateLamp_engine (o : List (Fin 40)) (s : State) (n : Fin 40) : (State.evaluateLamp o s n).engine = s.engine := by
  simp [State.evaluateLamp]
@[simp] theorem State.evaluateLamp_tables (o : List (Fin 40)) (s : State) (n : Fin 40) : (State.evaluateLamp o s n).tables = s.tables := by
  simp [State.evaluateLamp]
@[simp] theorem State.evaluateLamp_intake (o : List (Fin 40)) (s : State) (n : Fin 40) : (State.evaluateLamp o s n).intake = s.intake := by
  simp [State.evaluateLamp]
@[simp] theorem State.evaluateLamp_gauges (o : List (Fin 40)) (s : State) (n : Fin 40) : (State.evaluateLamp o s n).gauges = s.gauges := by
  simp [State.evaluateLamp]
@[simp] theorem State.evaluateLamp_speed (o : List (Fin 40)) (s : State) (n : Fin 40) : (State.evaluateLamp o s n).speed = s.speed := by
  simp [State.evaluateLamp]
@[simp] theorem State.evaluateLamp_store (o : List (Fin 40)) (s : State) (n : Fin 40) : (State.evaluateLamp o s n).store = s.store := by
  simp [State.evaluateLamp]
@[simp] theorem State.evaluateLamp_hours (o : List (Fin 40)) (s : State) (n : Fin 40) : (State.evaluateLamp o s n).hours = s.hours := by
  simp [State.evaluateLamp]
@[simp] theorem State.evaluateLamp_panel (o : List (Fin 40)) (s : State) (n : Fin 40) : (State.evaluateLamp o s n).panel = s.panel := by
  simp [State.evaluateLamp]
@[simp] theorem State.evaluateLamp_prescale (o : List (Fin 40)) (s : State) (n : Fin 40) : (State.evaluateLamp o s n).prescale = s.prescale := by
  simp [State.evaluateLamp]
@[simp] theorem State.evaluateLamp_pending (o : List (Fin 40)) (s : State) (n : Fin 40) : (State.evaluateLamp o s n).pending = s.pending := by
  simp [State.evaluateLamp]

/-! ## State.restartLamp -/

@[simp] theorem State.restartLamp_mode (s : State) (n : Fin 40) : (s.restartLamp n).mode = s.mode := by
  simp [State.restartLamp]
@[simp] theorem State.restartLamp_xm (s : State) (n : Fin 40) : (s.restartLamp n).xm = s.xm := by
  simp [State.restartLamp]
@[simp] theorem State.restartLamp_engine (s : State) (n : Fin 40) : (s.restartLamp n).engine = s.engine := by
  simp [State.restartLamp]
@[simp] theorem State.restartLamp_tables (s : State) (n : Fin 40) : (s.restartLamp n).tables = s.tables := by
  simp [State.restartLamp]
@[simp] theorem State.restartLamp_intake (s : State) (n : Fin 40) : (s.restartLamp n).intake = s.intake := by
  simp [State.restartLamp]
@[simp] theorem State.restartLamp_gauges (s : State) (n : Fin 40) : (s.restartLamp n).gauges = s.gauges := by
  simp [State.restartLamp]
@[simp] theorem State.restartLamp_speed (s : State) (n : Fin 40) : (s.restartLamp n).speed = s.speed := by
  simp [State.restartLamp]
@[simp] theorem State.restartLamp_store (s : State) (n : Fin 40) : (s.restartLamp n).store = s.store := by
  simp [State.restartLamp]
@[simp] theorem State.restartLamp_hours (s : State) (n : Fin 40) : (s.restartLamp n).hours = s.hours := by
  simp [State.restartLamp]
@[simp] theorem State.restartLamp_panel (s : State) (n : Fin 40) : (s.restartLamp n).panel = s.panel := by
  simp [State.restartLamp]
@[simp] theorem State.restartLamp_prescale (s : State) (n : Fin 40) : (s.restartLamp n).prescale = s.prescale := by
  simp [State.restartLamp]
@[simp] theorem State.restartLamp_pending (s : State) (n : Fin 40) : (s.restartLamp n).pending = s.pending := by
  simp [State.restartLamp]

/-! ## Rounds of arm -/

@[simp] theorem State.forChannels_arm_mode (s : State) : (s.forChannels (State.arm)).mode = s.mode :=
  foldl_keeps _ (fun s => s.mode) (fun s a => by simp) _ s
@[simp] theorem State.forChannels_arm_xm (s : State) : (s.forChannels (State.arm)).xm = s.xm :=
  foldl_keeps _ (fun s => s.xm) (fun s a => by simp) _ s
@[simp] theorem State.forChannels_arm_engine (s : State) : (s.forChannels (State.arm)).engine = s.engine :=
  foldl_keeps _ (fun s => s.engine) (fun s a => by simp) _ s
@[simp] theorem State.forChannels_arm_tables (s : State) : (s.forChannels (State.arm)).tables = s.tables :=
  foldl_keeps _ (fun s => s.tables) (fun s a => by simp) _ s
@[simp] theorem State.forChannels_arm_intake (s : State) : (s.forChannels (State.arm)).intake = s.intake :=
  foldl_keeps _ (fun s => s.intake) (fun s a => by simp) _ s
@[simp] theorem State.forChannels_arm_speed (s : State) : (s.forChannels (State.arm)).speed = s.speed :=
  foldl_keeps _ (fun s => s.speed) (fun s a => by simp) _ s
@[simp] theorem State.forChannels_arm_store (s : State) : (s.forChannels (State.arm)).store = s.store :=
  foldl_keeps _ (fun s => s.store) (fun s a => by simp) _ s
@[simp] theorem State.forChannels_arm_lamps (s : State) : (s.forChannels (State.arm)).lamps = s.lamps :=
  foldl_keeps _ (fun s => s.lamps) (fun s a => by simp) _ s
@[simp] theorem State.forChannels_arm_hours (s : State) : (s.forChannels (State.arm)).hours = s.hours :=
  foldl_keeps _ (fun s => s.hours) (fun s a => by simp) _ s
@[simp] theorem State.forChannels_arm_panel (s : State) : (s.forChannels (State.arm)).panel = s.panel :=
  foldl_keeps _ (fun s => s.panel) (fun s a => by simp) _ s
@[simp] theorem State.forChannels_arm_prescale (s : State) : (s.forChannels (State.arm)).prescale = s.prescale :=
  foldl_keeps _ (fun s => s.prescale) (fun s a => by simp) _ s
@[simp] theorem State.forChannels_arm_pending (s : State) : (s.forChannels (State.arm)).pending = s.pending :=
  foldl_keeps _ (fun s => s.pending) (fun s a => by simp) _ s

/-! ## Rounds of disarm -/

@[simp] theorem State.forChannels_disarm_mode (s : State) : (s.forChannels (State.disarm)).mode = s.mode :=
  foldl_keeps _ (fun s => s.mode) (fun s a => by simp) _ s
@[simp] theorem State.forChannels_disarm_xm (s : State) : (s.forChannels (State.disarm)).xm = s.xm :=
  foldl_keeps _ (fun s => s.xm) (fun s a => by simp) _ s
@[simp] theorem State.forChannels_disarm_engine (s : State) : (s.forChannels (State.disarm)).engine = s.engine :=
  foldl_keeps _ (fun s => s.engine) (fun s a => by simp) _ s
@[simp] theorem State.forChannels_disarm_tables (s : State) : (s.forChannels (State.disarm)).tables = s.tables :=
  foldl_keeps _ (fun s => s.tables) (fun s a => by simp) _ s
@[simp] theorem State.forChannels_disarm_intake (s : State) : (s.forChannels (State.disarm)).intake = s.intake :=
  foldl_keeps _ (fun s => s.intake) (fun s a => by simp) _ s
@[simp] theorem State.forChannels_disarm_speed (s : State) : (s.forChannels (State.disarm)).speed = s.speed :=
  foldl_keeps _ (fun s => s.speed) (fun s a => by simp) _ s
@[simp] theorem State.forChannels_disarm_store (s : State) : (s.forChannels (State.disarm)).store = s.store :=
  foldl_keeps _ (fun s => s.store) (fun s a => by simp) _ s
@[simp] theorem State.forChannels_disarm_lamps (s : State) : (s.forChannels (State.disarm)).lamps = s.lamps :=
  foldl_keeps _ (fun s => s.lamps) (fun s a => by simp) _ s
@[simp] theorem State.forChannels_disarm_hours (s : State) : (s.forChannels (State.disarm)).hours = s.hours :=
  foldl_keeps _ (fun s => s.hours) (fun s a => by simp) _ s
@[simp] theorem State.forChannels_disarm_panel (s : State) : (s.forChannels (State.disarm)).panel = s.panel :=
  foldl_keeps _ (fun s => s.panel) (fun s a => by simp) _ s
@[simp] theorem State.forChannels_disarm_prescale (s : State) : (s.forChannels (State.disarm)).prescale = s.prescale :=
  foldl_keeps _ (fun s => s.prescale) (fun s a => by simp) _ s
@[simp] theorem State.forChannels_disarm_pending (s : State) : (s.forChannels (State.disarm)).pending = s.pending :=
  foldl_keeps _ (fun s => s.pending) (fun s a => by simp) _ s

/-! ## Rounds of parkChannel -/

@[simp] theorem State.forChannels_parkChannel_mode (s : State) : (s.forChannels (State.parkChannel)).mode = s.mode :=
  foldl_keeps _ (fun s => s.mode) (fun s a => by simp) _ s
@[simp] theorem State.forChannels_parkChannel_xm (s : State) : (s.forChannels (State.parkChannel)).xm = s.xm :=
  foldl_keeps _ (fun s => s.xm) (fun s a => by simp) _ s
@[simp] theorem State.forChannels_parkChannel_engine (s : State) : (s.forChannels (State.parkChannel)).engine = s.engine :=
  foldl_keeps _ (fun s => s.engine) (fun s a => by simp) _ s
@[simp] theorem State.forChannels_parkChannel_tables (s : State) : (s.forChannels (State.parkChannel)).tables = s.tables :=
  foldl_keeps _ (fun s => s.tables) (fun s a => by simp) _ s
@[simp] theorem State.forChannels_parkChannel_intake (s : State) : (s.forChannels (State.parkChannel)).intake = s.intake :=
  foldl_keeps _ (fun s => s.intake) (fun s a => by simp) _ s
@[simp] theorem State.forChannels_parkChannel_speed (s : State) : (s.forChannels (State.parkChannel)).speed = s.speed :=
  foldl_keeps _ (fun s => s.speed) (fun s a => by simp) _ s
@[simp] theorem State.forChannels_parkChannel_store (s : State) : (s.forChannels (State.parkChannel)).store = s.store :=
  foldl_keeps _ (fun s => s.store) (fun s a => by simp) _ s
@[simp] theorem State.forChannels_parkChannel_lamps (s : State) : (s.forChannels (State.parkChannel)).lamps = s.lamps :=
  foldl_keeps _ (fun s => s.lamps) (fun s a => by simp) _ s
@[simp] theorem State.forChannels_parkChannel_hours (s : State) : (s.forChannels (State.parkChannel)).hours = s.hours :=
  foldl_keeps _ (fun s => s.hours) (fun s a => by simp) _ s
@[simp] theorem State.forChannels_parkChannel_panel (s : State) : (s.forChannels (State.parkChannel)).panel = s.panel :=
  foldl_keeps _ (fun s => s.panel) (fun s a => by simp) _ s
@[simp] theorem State.forChannels_parkChannel_prescale (s : State) : (s.forChannels (State.parkChannel)).prescale = s.prescale :=
  foldl_keeps _ (fun s => s.prescale) (fun s a => by simp) _ s
@[simp] theorem State.forChannels_parkChannel_pending (s : State) : (s.forChannels (State.parkChannel)).pending = s.pending :=
  foldl_keeps _ (fun s => s.pending) (fun s a => by simp) _ s

/-! ## Rounds of startChannel -/

@[simp] theorem State.forChannels_startChannel_mode (s : State) (b : Bool) : (s.forChannels (State.startChannel b)).mode = s.mode :=
  foldl_keeps _ (fun s => s.mode) (fun s a => by simp) _ s
@[simp] theorem State.forChannels_startChannel_xm (s : State) (b : Bool) : (s.forChannels (State.startChannel b)).xm = s.xm :=
  foldl_keeps _ (fun s => s.xm) (fun s a => by simp) _ s
@[simp] theorem State.forChannels_startChannel_engine (s : State) (b : Bool) : (s.forChannels (State.startChannel b)).engine = s.engine :=
  foldl_keeps _ (fun s => s.engine) (fun s a => by simp) _ s
@[simp] theorem State.forChannels_startChannel_tables (s : State) (b : Bool) : (s.forChannels (State.startChannel b)).tables = s.tables :=
  foldl_keeps _ (fun s => s.tables) (fun s a => by simp) _ s
@[simp] theorem State.forChannels_startChannel_intake (s : State) (b : Bool) : (s.forChannels (State.startChannel b)).intake = s.intake :=
  foldl_keeps _ (fun s => s.intake) (fun s a => by simp) _ s
@[simp] theorem State.forChannels_startChannel_speed (s : State) (b : Bool) : (s.forChannels (State.startChannel b)).speed = s.speed :=
  foldl_keeps _ (fun s => s.speed) (fun s a => by simp) _ s
@[simp] theorem State.forChannels_startChannel_store (s : State) (b : Bool) : (s.forChannels (State.startChannel b)).store = s.store :=
  foldl_keeps _ (fun s => s.store) (fun s a => by simp) _ s
@[simp] theorem State.forChannels_startChannel_lamps (s : State) (b : Bool) : (s.forChannels (State.startChannel b)).lamps = s.lamps :=
  foldl_keeps _ (fun s => s.lamps) (fun s a => by simp) _ s
@[simp] theorem State.forChannels_startChannel_hours (s : State) (b : Bool) : (s.forChannels (State.startChannel b)).hours = s.hours :=
  foldl_keeps _ (fun s => s.hours) (fun s a => by simp) _ s
@[simp] theorem State.forChannels_startChannel_panel (s : State) (b : Bool) : (s.forChannels (State.startChannel b)).panel = s.panel :=
  foldl_keeps _ (fun s => s.panel) (fun s a => by simp) _ s
@[simp] theorem State.forChannels_startChannel_prescale (s : State) (b : Bool) : (s.forChannels (State.startChannel b)).prescale = s.prescale :=
  foldl_keeps _ (fun s => s.prescale) (fun s a => by simp) _ s
@[simp] theorem State.forChannels_startChannel_pending (s : State) (b : Bool) : (s.forChannels (State.startChannel b)).pending = s.pending :=
  foldl_keeps _ (fun s => s.pending) (fun s a => by simp) _ s

/-! ## Rounds of sourceEvent -/

@[simp] theorem State.forChannels_sourceEvent_mode (s : State) (src : Source) (a b : Condition) (r : Bool) : (s.forChannels (State.sourceEvent src a b r)).mode = s.mode :=
  foldl_keeps _ (fun s => s.mode) (fun s a => by simp) _ s
@[simp] theorem State.forChannels_sourceEvent_xm (s : State) (src : Source) (a b : Condition) (r : Bool) : (s.forChannels (State.sourceEvent src a b r)).xm = s.xm :=
  foldl_keeps _ (fun s => s.xm) (fun s a => by simp) _ s
@[simp] theorem State.forChannels_sourceEvent_engine (s : State) (src : Source) (a b : Condition) (r : Bool) : (s.forChannels (State.sourceEvent src a b r)).engine = s.engine :=
  foldl_keeps _ (fun s => s.engine) (fun s a => by simp) _ s
@[simp] theorem State.forChannels_sourceEvent_tables (s : State) (src : Source) (a b : Condition) (r : Bool) : (s.forChannels (State.sourceEvent src a b r)).tables = s.tables :=
  foldl_keeps _ (fun s => s.tables) (fun s a => by simp) _ s
@[simp] theorem State.forChannels_sourceEvent_intake (s : State) (src : Source) (a b : Condition) (r : Bool) : (s.forChannels (State.sourceEvent src a b r)).intake = s.intake :=
  foldl_keeps _ (fun s => s.intake) (fun s a => by simp) _ s
@[simp] theorem State.forChannels_sourceEvent_speed (s : State) (src : Source) (a b : Condition) (r : Bool) : (s.forChannels (State.sourceEvent src a b r)).speed = s.speed :=
  foldl_keeps _ (fun s => s.speed) (fun s a => by simp) _ s
@[simp] theorem State.forChannels_sourceEvent_store (s : State) (src : Source) (a b : Condition) (r : Bool) : (s.forChannels (State.sourceEvent src a b r)).store = s.store :=
  foldl_keeps _ (fun s => s.store) (fun s a => by simp) _ s
@[simp] theorem State.forChannels_sourceEvent_lamps (s : State) (src : Source) (a b : Condition) (r : Bool) : (s.forChannels (State.sourceEvent src a b r)).lamps = s.lamps :=
  foldl_keeps _ (fun s => s.lamps) (fun s a => by simp) _ s
@[simp] theorem State.forChannels_sourceEvent_hours (s : State) (src : Source) (a b : Condition) (r : Bool) : (s.forChannels (State.sourceEvent src a b r)).hours = s.hours :=
  foldl_keeps _ (fun s => s.hours) (fun s a => by simp) _ s
@[simp] theorem State.forChannels_sourceEvent_panel (s : State) (src : Source) (a b : Condition) (r : Bool) : (s.forChannels (State.sourceEvent src a b r)).panel = s.panel :=
  foldl_keeps _ (fun s => s.panel) (fun s a => by simp) _ s
@[simp] theorem State.forChannels_sourceEvent_prescale (s : State) (src : Source) (a b : Condition) (r : Bool) : (s.forChannels (State.sourceEvent src a b r)).prescale = s.prescale :=
  foldl_keeps _ (fun s => s.prescale) (fun s a => by simp) _ s
@[simp] theorem State.forChannels_sourceEvent_pending (s : State) (src : Source) (a b : Condition) (r : Bool) : (s.forChannels (State.sourceEvent src a b r)).pending = s.pending :=
  foldl_keeps _ (fun s => s.pending) (fun s a => by simp) _ s

/-! ## State.restartLamps -/

@[simp] theorem State.restartLamps_mode (s : State) : (allLamps.foldl State.restartLamp s).mode = s.mode := foldl_keeps _ (fun s => s.mode) (fun s a => by simp) _ s
@[simp] theorem State.restartLamps_xm (s : State) : (allLamps.foldl State.restartLamp s).xm = s.xm := foldl_keeps _ (fun s => s.xm) (fun s a => by simp) _ s
@[simp] theorem State.restartLamps_engine (s : State) : (allLamps.foldl State.restartLamp s).engine = s.engine := foldl_keeps _ (fun s => s.engine) (fun s a => by simp) _ s
@[simp] theorem State.restartLamps_tables (s : State) : (allLamps.foldl State.restartLamp s).tables = s.tables := foldl_keeps _ (fun s => s.tables) (fun s a => by simp) _ s
@[simp] theorem State.restartLamps_intake (s : State) : (allLamps.foldl State.restartLamp s).intake = s.intake := foldl_keeps _ (fun s => s.intake) (fun s a => by simp) _ s
@[simp] theorem State.restartLamps_gauges (s : State) : (allLamps.foldl State.restartLamp s).gauges = s.gauges := foldl_keeps _ (fun s => s.gauges) (fun s a => by simp) _ s
@[simp] theorem State.restartLamps_speed (s : State) : (allLamps.foldl State.restartLamp s).speed = s.speed := foldl_keeps _ (fun s => s.speed) (fun s a => by simp) _ s
@[simp] theorem State.restartLamps_store (s : State) : (allLamps.foldl State.restartLamp s).store = s.store := foldl_keeps _ (fun s => s.store) (fun s a => by simp) _ s
@[simp] theorem State.restartLamps_hours (s : State) : (allLamps.foldl State.restartLamp s).hours = s.hours := foldl_keeps _ (fun s => s.hours) (fun s a => by simp) _ s
@[simp] theorem State.restartLamps_panel (s : State) : (allLamps.foldl State.restartLamp s).panel = s.panel := foldl_keeps _ (fun s => s.panel) (fun s a => by simp) _ s
@[simp] theorem State.restartLamps_prescale (s : State) : (allLamps.foldl State.restartLamp s).prescale = s.prescale := foldl_keeps _ (fun s => s.prescale) (fun s a => by simp) _ s
@[simp] theorem State.restartLamps_pending (s : State) : (allLamps.foldl State.restartLamp s).pending = s.pending := foldl_keeps _ (fun s => s.pending) (fun s a => by simp) _ s

/-! ## State.dropRises -/

@[simp] theorem State.dropRises_mode (s : State) : (allLamps.foldl State.dropRise s).mode = s.mode := foldl_keeps _ (fun s => s.mode) (fun s a => by simp) _ s
@[simp] theorem State.dropRises_xm (s : State) : (allLamps.foldl State.dropRise s).xm = s.xm := foldl_keeps _ (fun s => s.xm) (fun s a => by simp) _ s
@[simp] theorem State.dropRises_engine (s : State) : (allLamps.foldl State.dropRise s).engine = s.engine := foldl_keeps _ (fun s => s.engine) (fun s a => by simp) _ s
@[simp] theorem State.dropRises_tables (s : State) : (allLamps.foldl State.dropRise s).tables = s.tables := foldl_keeps _ (fun s => s.tables) (fun s a => by simp) _ s
@[simp] theorem State.dropRises_intake (s : State) : (allLamps.foldl State.dropRise s).intake = s.intake := foldl_keeps _ (fun s => s.intake) (fun s a => by simp) _ s
@[simp] theorem State.dropRises_gauges (s : State) : (allLamps.foldl State.dropRise s).gauges = s.gauges := foldl_keeps _ (fun s => s.gauges) (fun s a => by simp) _ s
@[simp] theorem State.dropRises_speed (s : State) : (allLamps.foldl State.dropRise s).speed = s.speed := foldl_keeps _ (fun s => s.speed) (fun s a => by simp) _ s
@[simp] theorem State.dropRises_store (s : State) : (allLamps.foldl State.dropRise s).store = s.store := foldl_keeps _ (fun s => s.store) (fun s a => by simp) _ s
@[simp] theorem State.dropRises_hours (s : State) : (allLamps.foldl State.dropRise s).hours = s.hours := foldl_keeps _ (fun s => s.hours) (fun s a => by simp) _ s
@[simp] theorem State.dropRises_panel (s : State) : (allLamps.foldl State.dropRise s).panel = s.panel := foldl_keeps _ (fun s => s.panel) (fun s a => by simp) _ s
@[simp] theorem State.dropRises_prescale (s : State) : (allLamps.foldl State.dropRise s).prescale = s.prescale := foldl_keeps _ (fun s => s.prescale) (fun s a => by simp) _ s
@[simp] theorem State.dropRises_pending (s : State) : (allLamps.foldl State.dropRise s).pending = s.pending := foldl_keeps _ (fun s => s.pending) (fun s a => by simp) _ s

/-! ## State.enterStarting -/

@[simp] theorem State.enterStarting_xm (s : State) (b : Bool) : (s.enterStarting b).xm = s.xm := by
  simp [State.enterStarting]
@[simp] theorem State.enterStarting_engine (s : State) (b : Bool) : (s.enterStarting b).engine = s.engine := by
  simp [State.enterStarting]
@[simp] theorem State.enterStarting_tables (s : State) (b : Bool) : (s.enterStarting b).tables = s.tables := by
  simp [State.enterStarting]
@[simp] theorem State.enterStarting_intake (s : State) (b : Bool) : (s.enterStarting b).intake = s.intake := by
  simp [State.enterStarting]
@[simp] theorem State.enterStarting_speed (s : State) (b : Bool) : (s.enterStarting b).speed = s.speed := by
  simp [State.enterStarting]
@[simp] theorem State.enterStarting_store (s : State) (b : Bool) : (s.enterStarting b).store = s.store := by
  simp [State.enterStarting]
@[simp] theorem State.enterStarting_hours (s : State) (b : Bool) : (s.enterStarting b).hours = s.hours := by
  simp [State.enterStarting]
@[simp] theorem State.enterStarting_panel (s : State) (b : Bool) : (s.enterStarting b).panel = s.panel := by
  simp [State.enterStarting]
@[simp] theorem State.enterStarting_prescale (s : State) (b : Bool) : (s.enterStarting b).prescale = s.prescale := by
  simp [State.enterStarting]
@[simp] theorem State.enterStarting_pending (s : State) (b : Bool) : (s.enterStarting b).pending = s.pending := by
  simp [State.enterStarting]

/-! ## State.enterRunning -/

@[simp] theorem State.enterRunning_xm (s : State) : (s.enterRunning).xm = s.xm := rfl
@[simp] theorem State.enterRunning_engine (s : State) : (s.enterRunning).engine = s.engine := rfl
@[simp] theorem State.enterRunning_tables (s : State) : (s.enterRunning).tables = s.tables := rfl
@[simp] theorem State.enterRunning_gauges (s : State) : (s.enterRunning).gauges = s.gauges := rfl
@[simp] theorem State.enterRunning_speed (s : State) : (s.enterRunning).speed = s.speed := rfl
@[simp] theorem State.enterRunning_store (s : State) : (s.enterRunning).store = s.store := rfl
@[simp] theorem State.enterRunning_lamps (s : State) : (s.enterRunning).lamps = s.lamps := rfl
@[simp] theorem State.enterRunning_chime (s : State) : (s.enterRunning).chime = s.chime := rfl
@[simp] theorem State.enterRunning_hours (s : State) : (s.enterRunning).hours = s.hours := rfl
@[simp] theorem State.enterRunning_stack (s : State) : (s.enterRunning).stack = s.stack := rfl
@[simp] theorem State.enterRunning_panel (s : State) : (s.enterRunning).panel = s.panel := rfl
@[simp] theorem State.enterRunning_prescale (s : State) : (s.enterRunning).prescale = s.prescale := rfl
@[simp] theorem State.enterRunning_pending (s : State) : (s.enterRunning).pending = s.pending := rfl

/-! ## State.judgeRunning -/

@[simp] theorem State.judgeRunning_xm (s : State) : (s.judgeRunning).xm = s.xm := by
  unfold State.judgeRunning; repeat' split
  all_goals simp
@[simp] theorem State.judgeRunning_engine (s : State) : (s.judgeRunning).engine = s.engine := by
  unfold State.judgeRunning; repeat' split
  all_goals simp
@[simp] theorem State.judgeRunning_tables (s : State) : (s.judgeRunning).tables = s.tables := by
  unfold State.judgeRunning; repeat' split
  all_goals simp
@[simp] theorem State.judgeRunning_gauges (s : State) : (s.judgeRunning).gauges = s.gauges := by
  unfold State.judgeRunning; repeat' split
  all_goals simp
@[simp] theorem State.judgeRunning_speed (s : State) : (s.judgeRunning).speed = s.speed := by
  unfold State.judgeRunning; repeat' split
  all_goals simp
@[simp] theorem State.judgeRunning_store (s : State) : (s.judgeRunning).store = s.store := by
  unfold State.judgeRunning; repeat' split
  all_goals simp
@[simp] theorem State.judgeRunning_lamps (s : State) : (s.judgeRunning).lamps = s.lamps := by
  unfold State.judgeRunning; repeat' split
  all_goals simp
@[simp] theorem State.judgeRunning_chime (s : State) : (s.judgeRunning).chime = s.chime := by
  unfold State.judgeRunning; repeat' split
  all_goals simp
@[simp] theorem State.judgeRunning_hours (s : State) : (s.judgeRunning).hours = s.hours := by
  unfold State.judgeRunning; repeat' split
  all_goals simp
@[simp] theorem State.judgeRunning_stack (s : State) : (s.judgeRunning).stack = s.stack := by
  unfold State.judgeRunning; repeat' split
  all_goals simp
@[simp] theorem State.judgeRunning_panel (s : State) : (s.judgeRunning).panel = s.panel := by
  unfold State.judgeRunning; repeat' split
  all_goals simp
@[simp] theorem State.judgeRunning_prescale (s : State) : (s.judgeRunning).prescale = s.prescale := by
  unfold State.judgeRunning; repeat' split
  all_goals simp
@[simp] theorem State.judgeRunning_pending (s : State) : (s.judgeRunning).pending = s.pending := by
  unfold State.judgeRunning; repeat' split
  all_goals simp

/-! ## State.judgeDormant -/

@[simp] theorem State.judgeDormant_xm (s : State) : (s.judgeDormant).xm = s.xm := by
  unfold State.judgeDormant; repeat' split
  all_goals simp
@[simp] theorem State.judgeDormant_engine (s : State) : (s.judgeDormant).engine = s.engine := by
  unfold State.judgeDormant; repeat' split
  all_goals simp
@[simp] theorem State.judgeDormant_tables (s : State) : (s.judgeDormant).tables = s.tables := by
  unfold State.judgeDormant; repeat' split
  all_goals simp
@[simp] theorem State.judgeDormant_intake (s : State) : (s.judgeDormant).intake = s.intake := by
  unfold State.judgeDormant; repeat' split
  all_goals simp
@[simp] theorem State.judgeDormant_gauges (s : State) : (s.judgeDormant).gauges = s.gauges := by
  unfold State.judgeDormant; repeat' split
  all_goals simp
@[simp] theorem State.judgeDormant_speed (s : State) : (s.judgeDormant).speed = s.speed := by
  unfold State.judgeDormant; repeat' split
  all_goals simp
@[simp] theorem State.judgeDormant_store (s : State) : (s.judgeDormant).store = s.store := by
  unfold State.judgeDormant; repeat' split
  all_goals simp
@[simp] theorem State.judgeDormant_lamps (s : State) : (s.judgeDormant).lamps = s.lamps := by
  unfold State.judgeDormant; repeat' split
  all_goals simp
@[simp] theorem State.judgeDormant_chime (s : State) : (s.judgeDormant).chime = s.chime := by
  unfold State.judgeDormant; repeat' split
  all_goals simp
@[simp] theorem State.judgeDormant_hours (s : State) : (s.judgeDormant).hours = s.hours := by
  unfold State.judgeDormant; repeat' split
  all_goals simp
@[simp] theorem State.judgeDormant_stack (s : State) : (s.judgeDormant).stack = s.stack := by
  unfold State.judgeDormant; repeat' split
  all_goals simp
@[simp] theorem State.judgeDormant_panel (s : State) : (s.judgeDormant).panel = s.panel := by
  unfold State.judgeDormant; repeat' split
  all_goals simp
@[simp] theorem State.judgeDormant_prescale (s : State) : (s.judgeDormant).prescale = s.prescale := by
  unfold State.judgeDormant; repeat' split
  all_goals simp
@[simp] theorem State.judgeDormant_pending (s : State) : (s.judgeDormant).pending = s.pending := by
  unfold State.judgeDormant; repeat' split
  all_goals simp

/-! ## State.enterLimp -/

@[simp] theorem State.enterLimp_xm (s : State) : (s.enterLimp).xm = s.xm := by
  unfold State.enterLimp; repeat' split
  all_goals simp
@[simp] theorem State.enterLimp_engine (s : State) : (s.enterLimp).engine = s.engine := by
  unfold State.enterLimp; repeat' split
  all_goals simp
@[simp] theorem State.enterLimp_tables (s : State) : (s.enterLimp).tables = s.tables := by
  unfold State.enterLimp; repeat' split
  all_goals simp
@[simp] theorem State.enterLimp_intake (s : State) : (s.enterLimp).intake = s.intake := by
  unfold State.enterLimp; repeat' split
  all_goals simp
@[simp] theorem State.enterLimp_gauges (s : State) : (s.enterLimp).gauges = s.gauges := by
  unfold State.enterLimp; repeat' split
  all_goals simp
@[simp] theorem State.enterLimp_speed (s : State) : (s.enterLimp).speed = s.speed := by
  unfold State.enterLimp; repeat' split
  all_goals simp
@[simp] theorem State.enterLimp_store (s : State) : (s.enterLimp).store = s.store := by
  unfold State.enterLimp; repeat' split
  all_goals simp
@[simp] theorem State.enterLimp_lamps (s : State) : (s.enterLimp).lamps = s.lamps := by
  unfold State.enterLimp; repeat' split
  all_goals simp
@[simp] theorem State.enterLimp_hours (s : State) : (s.enterLimp).hours = s.hours := by
  unfold State.enterLimp; repeat' split
  all_goals simp
@[simp] theorem State.enterLimp_panel (s : State) : (s.enterLimp).panel = s.panel := by
  unfold State.enterLimp; repeat' split
  all_goals simp
@[simp] theorem State.enterLimp_prescale (s : State) : (s.enterLimp).prescale = s.prescale := by
  unfold State.enterLimp; repeat' split
  all_goals simp
@[simp] theorem State.enterLimp_pending (s : State) : (s.enterLimp).pending = s.pending := by
  unfold State.enterLimp; repeat' split
  all_goals simp

/-! ## State.leaveLimp -/

@[simp] theorem State.leaveLimp_xm (s : State) : (s.leaveLimp).xm = s.xm := by
  unfold State.leaveLimp; repeat' split
  all_goals simp
@[simp] theorem State.leaveLimp_engine (s : State) : (s.leaveLimp).engine = s.engine := by
  unfold State.leaveLimp; repeat' split
  all_goals simp
@[simp] theorem State.leaveLimp_tables (s : State) : (s.leaveLimp).tables = s.tables := by
  unfold State.leaveLimp; repeat' split
  all_goals simp
@[simp] theorem State.leaveLimp_intake (s : State) : (s.leaveLimp).intake = s.intake := by
  unfold State.leaveLimp; repeat' split
  all_goals simp
@[simp] theorem State.leaveLimp_gauges (s : State) : (s.leaveLimp).gauges = s.gauges := by
  unfold State.leaveLimp; repeat' split
  all_goals simp
@[simp] theorem State.leaveLimp_speed (s : State) : (s.leaveLimp).speed = s.speed := by
  unfold State.leaveLimp; repeat' split
  all_goals simp
@[simp] theorem State.leaveLimp_store (s : State) : (s.leaveLimp).store = s.store := by
  unfold State.leaveLimp; repeat' split
  all_goals simp
@[simp] theorem State.leaveLimp_lamps (s : State) : (s.leaveLimp).lamps = s.lamps := by
  unfold State.leaveLimp; repeat' split
  all_goals simp
@[simp] theorem State.leaveLimp_hours (s : State) : (s.leaveLimp).hours = s.hours := by
  unfold State.leaveLimp; repeat' split
  all_goals simp
@[simp] theorem State.leaveLimp_panel (s : State) : (s.leaveLimp).panel = s.panel := by
  unfold State.leaveLimp; repeat' split
  all_goals simp
@[simp] theorem State.leaveLimp_prescale (s : State) : (s.leaveLimp).prescale = s.prescale := by
  unfold State.leaveLimp; repeat' split
  all_goals simp
@[simp] theorem State.leaveLimp_pending (s : State) : (s.leaveLimp).pending = s.pending := by
  unfold State.leaveLimp; repeat' split
  all_goals simp

/-! ## State.changeSlot -/

@[simp] theorem State.changeSlot_mode (s : State) (i : Fin 64) (r : SlotRec) (b : Bool) : (s.changeSlot i r b).mode = s.mode := by
  simp [State.changeSlot]
@[simp] theorem State.changeSlot_xm (s : State) (i : Fin 64) (r : SlotRec) (b : Bool) : (s.changeSlot i r b).xm = s.xm := by
  simp [State.changeSlot]
@[simp] theorem State.changeSlot_engine (s : State) (i : Fin 64) (r : SlotRec) (b : Bool) : (s.changeSlot i r b).engine = s.engine := by
  simp [State.changeSlot]
@[simp] theorem State.changeSlot_tables (s : State) (i : Fin 64) (r : SlotRec) (b : Bool) : (s.changeSlot i r b).tables = s.tables := by
  simp [State.changeSlot]
@[simp] theorem State.changeSlot_speed (s : State) (i : Fin 64) (r : SlotRec) (b : Bool) : (s.changeSlot i r b).speed = s.speed := by
  simp [State.changeSlot]
@[simp] theorem State.changeSlot_store (s : State) (i : Fin 64) (r : SlotRec) (b : Bool) : (s.changeSlot i r b).store = s.store := by
  simp [State.changeSlot]
@[simp] theorem State.changeSlot_lamps (s : State) (i : Fin 64) (r : SlotRec) (b : Bool) : (s.changeSlot i r b).lamps = s.lamps := by
  simp [State.changeSlot]
@[simp] theorem State.changeSlot_hours (s : State) (i : Fin 64) (r : SlotRec) (b : Bool) : (s.changeSlot i r b).hours = s.hours := by
  simp [State.changeSlot]
@[simp] theorem State.changeSlot_panel (s : State) (i : Fin 64) (r : SlotRec) (b : Bool) : (s.changeSlot i r b).panel = s.panel := by
  simp [State.changeSlot]
@[simp] theorem State.changeSlot_prescale (s : State) (i : Fin 64) (r : SlotRec) (b : Bool) : (s.changeSlot i r b).prescale = s.prescale := by
  simp [State.changeSlot]
@[simp] theorem State.changeSlot_pending (s : State) (i : Fin 64) (r : SlotRec) (b : Bool) : (s.changeSlot i r b).pending = s.pending := by
  simp [State.changeSlot]

/-! ## State.ageSlot -/

@[simp] theorem State.ageSlot_mode (s : State) (i : Fin 64) : (s.ageSlot i).mode = s.mode := by
  unfold State.ageSlot; dsimp only; split <;> simp
@[simp] theorem State.ageSlot_xm (s : State) (i : Fin 64) : (s.ageSlot i).xm = s.xm := by
  unfold State.ageSlot; dsimp only; split <;> simp
@[simp] theorem State.ageSlot_engine (s : State) (i : Fin 64) : (s.ageSlot i).engine = s.engine := by
  unfold State.ageSlot; dsimp only; split <;> simp
@[simp] theorem State.ageSlot_tables (s : State) (i : Fin 64) : (s.ageSlot i).tables = s.tables := by
  unfold State.ageSlot; dsimp only; split <;> simp
@[simp] theorem State.ageSlot_speed (s : State) (i : Fin 64) : (s.ageSlot i).speed = s.speed := by
  unfold State.ageSlot; dsimp only; split <;> simp
@[simp] theorem State.ageSlot_store (s : State) (i : Fin 64) : (s.ageSlot i).store = s.store := by
  unfold State.ageSlot; dsimp only; split <;> simp
@[simp] theorem State.ageSlot_lamps (s : State) (i : Fin 64) : (s.ageSlot i).lamps = s.lamps := by
  unfold State.ageSlot; dsimp only; split <;> simp
@[simp] theorem State.ageSlot_hours (s : State) (i : Fin 64) : (s.ageSlot i).hours = s.hours := by
  unfold State.ageSlot; dsimp only; split <;> simp
@[simp] theorem State.ageSlot_panel (s : State) (i : Fin 64) : (s.ageSlot i).panel = s.panel := by
  unfold State.ageSlot; dsimp only; split <;> simp
@[simp] theorem State.ageSlot_prescale (s : State) (i : Fin 64) : (s.ageSlot i).prescale = s.prescale := by
  unfold State.ageSlot; dsimp only; split <;> simp
@[simp] theorem State.ageSlot_pending (s : State) (i : Fin 64) : (s.ageSlot i).pending = s.pending := by
  unfold State.ageSlot; dsimp only; split <;> simp

/-! ## State.acceptSlot -/

@[simp] theorem State.acceptSlot_mode (s : State) (i : Fin 64) (a b : Word) : (s.acceptSlot i a b).mode = s.mode := by
  simp [State.acceptSlot]
@[simp] theorem State.acceptSlot_xm (s : State) (i : Fin 64) (a b : Word) : (s.acceptSlot i a b).xm = s.xm := by
  simp [State.acceptSlot]
@[simp] theorem State.acceptSlot_engine (s : State) (i : Fin 64) (a b : Word) : (s.acceptSlot i a b).engine = s.engine := by
  simp [State.acceptSlot]
@[simp] theorem State.acceptSlot_tables (s : State) (i : Fin 64) (a b : Word) : (s.acceptSlot i a b).tables = s.tables := by
  simp [State.acceptSlot]
@[simp] theorem State.acceptSlot_speed (s : State) (i : Fin 64) (a b : Word) : (s.acceptSlot i a b).speed = s.speed := by
  simp [State.acceptSlot]
@[simp] theorem State.acceptSlot_store (s : State) (i : Fin 64) (a b : Word) : (s.acceptSlot i a b).store = s.store := by
  simp [State.acceptSlot]
@[simp] theorem State.acceptSlot_lamps (s : State) (i : Fin 64) (a b : Word) : (s.acceptSlot i a b).lamps = s.lamps := by
  simp [State.acceptSlot]
@[simp] theorem State.acceptSlot_hours (s : State) (i : Fin 64) (a b : Word) : (s.acceptSlot i a b).hours = s.hours := by
  simp [State.acceptSlot]
@[simp] theorem State.acceptSlot_panel (s : State) (i : Fin 64) (a b : Word) : (s.acceptSlot i a b).panel = s.panel := by
  simp [State.acceptSlot]
@[simp] theorem State.acceptSlot_prescale (s : State) (i : Fin 64) (a b : Word) : (s.acceptSlot i a b).prescale = s.prescale := by
  simp [State.acceptSlot]
@[simp] theorem State.acceptSlot_pending (s : State) (i : Fin 64) (a b : Word) : (s.acceptSlot i a b).pending = s.pending := by
  simp [State.acceptSlot]

/-! ## State.setHeartbeat -/

@[simp] theorem State.setHeartbeat_xm (s : State) (h : Heartbeat) : (s.setHeartbeat h).xm = s.xm := by
  unfold State.setHeartbeat; dsimp only; repeat' split
  all_goals simp
@[simp] theorem State.setHeartbeat_engine (s : State) (h : Heartbeat) : (s.setHeartbeat h).engine = s.engine := by
  unfold State.setHeartbeat; dsimp only; repeat' split
  all_goals simp
@[simp] theorem State.setHeartbeat_tables (s : State) (h : Heartbeat) : (s.setHeartbeat h).tables = s.tables := by
  unfold State.setHeartbeat; dsimp only; repeat' split
  all_goals simp
@[simp] theorem State.setHeartbeat_gauges (s : State) (h : Heartbeat) : (s.setHeartbeat h).gauges = s.gauges := by
  unfold State.setHeartbeat; dsimp only; repeat' split
  all_goals simp
@[simp] theorem State.setHeartbeat_speed (s : State) (h : Heartbeat) : (s.setHeartbeat h).speed = s.speed := by
  unfold State.setHeartbeat; dsimp only; repeat' split
  all_goals simp
@[simp] theorem State.setHeartbeat_store (s : State) (h : Heartbeat) : (s.setHeartbeat h).store = s.store := by
  unfold State.setHeartbeat; dsimp only; repeat' split
  all_goals simp
@[simp] theorem State.setHeartbeat_lamps (s : State) (h : Heartbeat) : (s.setHeartbeat h).lamps = s.lamps := by
  unfold State.setHeartbeat; dsimp only; repeat' split
  all_goals simp
@[simp] theorem State.setHeartbeat_hours (s : State) (h : Heartbeat) : (s.setHeartbeat h).hours = s.hours := by
  unfold State.setHeartbeat; dsimp only; repeat' split
  all_goals simp
@[simp] theorem State.setHeartbeat_panel (s : State) (h : Heartbeat) : (s.setHeartbeat h).panel = s.panel := by
  unfold State.setHeartbeat; dsimp only; repeat' split
  all_goals simp
@[simp] theorem State.setHeartbeat_prescale (s : State) (h : Heartbeat) : (s.setHeartbeat h).prescale = s.prescale := by
  unfold State.setHeartbeat; dsimp only; repeat' split
  all_goals simp
@[simp] theorem State.setHeartbeat_pending (s : State) (h : Heartbeat) : (s.setHeartbeat h).pending = s.pending := by
  unfold State.setHeartbeat; dsimp only; repeat' split
  all_goals simp

/-! ## STRIP writes -/

@[simp] theorem State.handOver_mode (s : State) (n : Strip) : (s.handOver n).mode = s.mode := by
  unfold State.handOver; repeat' split
  all_goals simp
@[simp] theorem State.handOver_tables (s : State) (n : Strip) : (s.handOver n).tables = s.tables := by
  unfold State.handOver; repeat' split
  all_goals simp
@[simp] theorem State.handOver_intake (s : State) (n : Strip) : (s.handOver n).intake = s.intake := by
  unfold State.handOver; repeat' split
  all_goals simp
@[simp] theorem State.handOver_gauges (s : State) (n : Strip) : (s.handOver n).gauges = s.gauges := by
  unfold State.handOver; repeat' split
  all_goals simp
@[simp] theorem State.handOver_speed (s : State) (n : Strip) : (s.handOver n).speed = s.speed := by
  unfold State.handOver; repeat' split
  all_goals simp
@[simp] theorem State.handOver_store (s : State) (n : Strip) : (s.handOver n).store = s.store := by
  unfold State.handOver; repeat' split
  all_goals simp
@[simp] theorem State.handOver_lamps (s : State) (n : Strip) : (s.handOver n).lamps = s.lamps := by
  unfold State.handOver; repeat' split
  all_goals simp
@[simp] theorem State.handOver_chime (s : State) (n : Strip) : (s.handOver n).chime = s.chime := by
  unfold State.handOver; repeat' split
  all_goals simp
@[simp] theorem State.handOver_hours (s : State) (n : Strip) : (s.handOver n).hours = s.hours := by
  unfold State.handOver; repeat' split
  all_goals simp
@[simp] theorem State.handOver_stack (s : State) (n : Strip) : (s.handOver n).stack = s.stack := by
  unfold State.handOver; repeat' split
  all_goals simp
@[simp] theorem State.handOver_panel (s : State) (n : Strip) : (s.handOver n).panel = s.panel := by
  unfold State.handOver; repeat' split
  all_goals simp
@[simp] theorem State.handOver_prescale (s : State) (n : Strip) : (s.handOver n).prescale = s.prescale := by
  unfold State.handOver; repeat' split
  all_goals simp
@[simp] theorem State.handOver_pending (s : State) (n : Strip) : (s.handOver n).pending = s.pending := by
  unfold State.handOver; repeat' split
  all_goals simp

@[simp] theorem State.withdraw_mode (s : State) (n : Strip) : (s.withdraw n).mode = s.mode := by
  unfold State.withdraw; repeat' split
  all_goals simp
@[simp] theorem State.withdraw_tables (s : State) (n : Strip) : (s.withdraw n).tables = s.tables := by
  unfold State.withdraw; repeat' split
  all_goals simp
@[simp] theorem State.withdraw_intake (s : State) (n : Strip) : (s.withdraw n).intake = s.intake := by
  unfold State.withdraw; repeat' split
  all_goals simp
@[simp] theorem State.withdraw_gauges (s : State) (n : Strip) : (s.withdraw n).gauges = s.gauges := by
  unfold State.withdraw; repeat' split
  all_goals simp
@[simp] theorem State.withdraw_speed (s : State) (n : Strip) : (s.withdraw n).speed = s.speed := by
  unfold State.withdraw; repeat' split
  all_goals simp
@[simp] theorem State.withdraw_store (s : State) (n : Strip) : (s.withdraw n).store = s.store := by
  unfold State.withdraw; repeat' split
  all_goals simp
@[simp] theorem State.withdraw_lamps (s : State) (n : Strip) : (s.withdraw n).lamps = s.lamps := by
  unfold State.withdraw; repeat' split
  all_goals simp
@[simp] theorem State.withdraw_chime (s : State) (n : Strip) : (s.withdraw n).chime = s.chime := by
  unfold State.withdraw; repeat' split
  all_goals simp
@[simp] theorem State.withdraw_hours (s : State) (n : Strip) : (s.withdraw n).hours = s.hours := by
  unfold State.withdraw; repeat' split
  all_goals simp
@[simp] theorem State.withdraw_stack (s : State) (n : Strip) : (s.withdraw n).stack = s.stack := by
  unfold State.withdraw; repeat' split
  all_goals simp
@[simp] theorem State.withdraw_panel (s : State) (n : Strip) : (s.withdraw n).panel = s.panel := by
  unfold State.withdraw; repeat' split
  all_goals simp
@[simp] theorem State.withdraw_prescale (s : State) (n : Strip) : (s.withdraw n).prescale = s.prescale := by
  unfold State.withdraw; repeat' split
  all_goals simp
@[simp] theorem State.withdraw_pending (s : State) (n : Strip) : (s.withdraw n).pending = s.pending := by
  unfold State.withdraw; repeat' split
  all_goals simp

@[simp] theorem State.writeStrip_mode (s : State) (w : Word) : (s.writeStrip w).mode = s.mode := by
  unfold State.writeStrip; repeat' split
  all_goals simp
@[simp] theorem State.writeStrip_tables (s : State) (w : Word) : (s.writeStrip w).tables = s.tables := by
  unfold State.writeStrip; repeat' split
  all_goals simp
@[simp] theorem State.writeStrip_intake (s : State) (w : Word) : (s.writeStrip w).intake = s.intake := by
  unfold State.writeStrip; repeat' split
  all_goals simp
@[simp] theorem State.writeStrip_gauges (s : State) (w : Word) : (s.writeStrip w).gauges = s.gauges := by
  unfold State.writeStrip; repeat' split
  all_goals simp
@[simp] theorem State.writeStrip_speed (s : State) (w : Word) : (s.writeStrip w).speed = s.speed := by
  unfold State.writeStrip; repeat' split
  all_goals simp
@[simp] theorem State.writeStrip_store (s : State) (w : Word) : (s.writeStrip w).store = s.store := by
  unfold State.writeStrip; repeat' split
  all_goals simp
@[simp] theorem State.writeStrip_lamps (s : State) (w : Word) : (s.writeStrip w).lamps = s.lamps := by
  unfold State.writeStrip; repeat' split
  all_goals simp
@[simp] theorem State.writeStrip_chime (s : State) (w : Word) : (s.writeStrip w).chime = s.chime := by
  unfold State.writeStrip; repeat' split
  all_goals simp
@[simp] theorem State.writeStrip_hours (s : State) (w : Word) : (s.writeStrip w).hours = s.hours := by
  unfold State.writeStrip; repeat' split
  all_goals simp
@[simp] theorem State.writeStrip_stack (s : State) (w : Word) : (s.writeStrip w).stack = s.stack := by
  unfold State.writeStrip; repeat' split
  all_goals simp
@[simp] theorem State.writeStrip_panel (s : State) (w : Word) : (s.writeStrip w).panel = s.panel := by
  unfold State.writeStrip; repeat' split
  all_goals simp
@[simp] theorem State.writeStrip_prescale (s : State) (w : Word) : (s.writeStrip w).prescale = s.prescale := by
  unfold State.writeStrip; repeat' split
  all_goals simp
@[simp] theorem State.writeStrip_pending (s : State) (w : Word) : (s.writeStrip w).pending = s.pending := by
  unfold State.writeStrip; repeat' split
  all_goals simp

/-! ## State.takeAccess -/

@[simp] theorem State.takeAccess_mode (s : State) (a : LinkAccess) : (s.takeAccess a).mode = s.mode := by
  cases a <;> simp only [State.takeAccess, State.writeWctl, State.writeWadr, State.readWdat, State.writeWdat, State.writeCause] <;>
    (repeat' split) <;> simp
@[simp] theorem State.takeAccess_tables (s : State) (a : LinkAccess) : (s.takeAccess a).tables = s.tables := by
  cases a <;> simp only [State.takeAccess, State.writeWctl, State.writeWadr, State.readWdat, State.writeWdat, State.writeCause] <;>
    (repeat' split) <;> simp
@[simp] theorem State.takeAccess_intake (s : State) (a : LinkAccess) : (s.takeAccess a).intake = s.intake := by
  cases a <;> simp only [State.takeAccess, State.writeWctl, State.writeWadr, State.readWdat, State.writeWdat, State.writeCause] <;>
    (repeat' split) <;> simp
@[simp] theorem State.takeAccess_gauges (s : State) (a : LinkAccess) : (s.takeAccess a).gauges = s.gauges := by
  cases a <;> simp only [State.takeAccess, State.writeWctl, State.writeWadr, State.readWdat, State.writeWdat, State.writeCause] <;>
    (repeat' split) <;> simp
@[simp] theorem State.takeAccess_speed (s : State) (a : LinkAccess) : (s.takeAccess a).speed = s.speed := by
  cases a <;> simp only [State.takeAccess, State.writeWctl, State.writeWadr, State.readWdat, State.writeWdat, State.writeCause] <;>
    (repeat' split) <;> simp
@[simp] theorem State.takeAccess_store (s : State) (a : LinkAccess) : (s.takeAccess a).store = s.store := by
  cases a <;> simp only [State.takeAccess, State.writeWctl, State.writeWadr, State.readWdat, State.writeWdat, State.writeCause] <;>
    (repeat' split) <;> simp
@[simp] theorem State.takeAccess_lamps (s : State) (a : LinkAccess) : (s.takeAccess a).lamps = s.lamps := by
  cases a <;> simp only [State.takeAccess, State.writeWctl, State.writeWadr, State.readWdat, State.writeWdat, State.writeCause] <;>
    (repeat' split) <;> simp
@[simp] theorem State.takeAccess_chime (s : State) (a : LinkAccess) : (s.takeAccess a).chime = s.chime := by
  cases a <;> simp only [State.takeAccess, State.writeWctl, State.writeWadr, State.readWdat, State.writeWdat, State.writeCause] <;>
    (repeat' split) <;> simp
@[simp] theorem State.takeAccess_hours (s : State) (a : LinkAccess) : (s.takeAccess a).hours = s.hours := by
  cases a <;> simp only [State.takeAccess, State.writeWctl, State.writeWadr, State.readWdat, State.writeWdat, State.writeCause] <;>
    (repeat' split) <;> simp
@[simp] theorem State.takeAccess_stack (s : State) (a : LinkAccess) : (s.takeAccess a).stack = s.stack := by
  cases a <;> simp only [State.takeAccess, State.writeWctl, State.writeWadr, State.readWdat, State.writeWdat, State.writeCause] <;>
    (repeat' split) <;> simp
@[simp] theorem State.takeAccess_panel (s : State) (a : LinkAccess) : (s.takeAccess a).panel = s.panel := by
  cases a <;> simp only [State.takeAccess, State.writeWctl, State.writeWadr, State.readWdat, State.writeWdat, State.writeCause] <;>
    (repeat' split) <;> simp
@[simp] theorem State.takeAccess_prescale (s : State) (a : LinkAccess) : (s.takeAccess a).prescale = s.prescale := by
  cases a <;> simp only [State.takeAccess, State.writeWctl, State.writeWadr, State.readWdat, State.writeWdat, State.writeCause] <;>
    (repeat' split) <;> simp
@[simp] theorem State.takeAccess_pending (s : State) (a : LinkAccess) : (s.takeAccess a).pending = s.pending := by
  cases a <;> simp only [State.takeAccess, State.writeWctl, State.writeWadr, State.readWdat, State.writeWdat, State.writeCause] <;>
    (repeat' split) <;> simp

/-! ## State.access -/

@[simp] theorem State.access_mode (s : State) (a : LinkAccess) : (s.access a).mode = s.mode := by
  unfold State.access; repeat' split
  all_goals simp
@[simp] theorem State.access_tables (s : State) (a : LinkAccess) : (s.access a).tables = s.tables := by
  unfold State.access; repeat' split
  all_goals simp
@[simp] theorem State.access_intake (s : State) (a : LinkAccess) : (s.access a).intake = s.intake := by
  unfold State.access; repeat' split
  all_goals simp
@[simp] theorem State.access_gauges (s : State) (a : LinkAccess) : (s.access a).gauges = s.gauges := by
  unfold State.access; repeat' split
  all_goals simp
@[simp] theorem State.access_speed (s : State) (a : LinkAccess) : (s.access a).speed = s.speed := by
  unfold State.access; repeat' split
  all_goals simp
@[simp] theorem State.access_store (s : State) (a : LinkAccess) : (s.access a).store = s.store := by
  unfold State.access; repeat' split
  all_goals simp
@[simp] theorem State.access_lamps (s : State) (a : LinkAccess) : (s.access a).lamps = s.lamps := by
  unfold State.access; repeat' split
  all_goals simp
@[simp] theorem State.access_chime (s : State) (a : LinkAccess) : (s.access a).chime = s.chime := by
  unfold State.access; repeat' split
  all_goals simp
@[simp] theorem State.access_hours (s : State) (a : LinkAccess) : (s.access a).hours = s.hours := by
  unfold State.access; repeat' split
  all_goals simp
@[simp] theorem State.access_stack (s : State) (a : LinkAccess) : (s.access a).stack = s.stack := by
  unfold State.access; repeat' split
  all_goals simp
@[simp] theorem State.access_panel (s : State) (a : LinkAccess) : (s.access a).panel = s.panel := by
  unfold State.access; repeat' split
  all_goals simp
@[simp] theorem State.access_prescale (s : State) (a : LinkAccess) : (s.access a).prescale = s.prescale := by
  unfold State.access; repeat' split
  all_goals simp
@[simp] theorem State.access_pending (s : State) (a : LinkAccess) : (s.access a).pending = s.pending := by
  unfold State.access; repeat' split
  all_goals simp

/-! ## State.accessesAt -/

@[simp] theorem State.accessesAt_mode (mid : List MidAccess) (p : Nat) (s : State) : (State.accessesAt mid p s).mode = s.mode := foldl_keeps _ (fun s => s.mode) (fun s a => by simp) _ s
@[simp] theorem State.accessesAt_tables (mid : List MidAccess) (p : Nat) (s : State) : (State.accessesAt mid p s).tables = s.tables := foldl_keeps _ (fun s => s.tables) (fun s a => by simp) _ s
@[simp] theorem State.accessesAt_intake (mid : List MidAccess) (p : Nat) (s : State) : (State.accessesAt mid p s).intake = s.intake := foldl_keeps _ (fun s => s.intake) (fun s a => by simp) _ s
@[simp] theorem State.accessesAt_gauges (mid : List MidAccess) (p : Nat) (s : State) : (State.accessesAt mid p s).gauges = s.gauges := foldl_keeps _ (fun s => s.gauges) (fun s a => by simp) _ s
@[simp] theorem State.accessesAt_speed (mid : List MidAccess) (p : Nat) (s : State) : (State.accessesAt mid p s).speed = s.speed := foldl_keeps _ (fun s => s.speed) (fun s a => by simp) _ s
@[simp] theorem State.accessesAt_store (mid : List MidAccess) (p : Nat) (s : State) : (State.accessesAt mid p s).store = s.store := foldl_keeps _ (fun s => s.store) (fun s a => by simp) _ s
@[simp] theorem State.accessesAt_lamps (mid : List MidAccess) (p : Nat) (s : State) : (State.accessesAt mid p s).lamps = s.lamps := foldl_keeps _ (fun s => s.lamps) (fun s a => by simp) _ s
@[simp] theorem State.accessesAt_chime (mid : List MidAccess) (p : Nat) (s : State) : (State.accessesAt mid p s).chime = s.chime := foldl_keeps _ (fun s => s.chime) (fun s a => by simp) _ s
@[simp] theorem State.accessesAt_hours (mid : List MidAccess) (p : Nat) (s : State) : (State.accessesAt mid p s).hours = s.hours := foldl_keeps _ (fun s => s.hours) (fun s a => by simp) _ s
@[simp] theorem State.accessesAt_stack (mid : List MidAccess) (p : Nat) (s : State) : (State.accessesAt mid p s).stack = s.stack := foldl_keeps _ (fun s => s.stack) (fun s a => by simp) _ s
@[simp] theorem State.accessesAt_panel (mid : List MidAccess) (p : Nat) (s : State) : (State.accessesAt mid p s).panel = s.panel := foldl_keeps _ (fun s => s.panel) (fun s a => by simp) _ s
@[simp] theorem State.accessesAt_prescale (mid : List MidAccess) (p : Nat) (s : State) : (State.accessesAt mid p s).prescale = s.prescale := foldl_keeps _ (fun s => s.prescale) (fun s a => by simp) _ s
@[simp] theorem State.accessesAt_pending (mid : List MidAccess) (p : Nat) (s : State) : (State.accessesAt mid p s).pending = s.pending := foldl_keeps _ (fun s => s.pending) (fun s a => by simp) _ s

/-! ## State.refreshPanel -/

@[simp] theorem State.refreshPanel_mode (s : State) : (s.refreshPanel).mode = s.mode := by
  unfold State.refreshPanel; dsimp only; split <;> simp
@[simp] theorem State.refreshPanel_link (s : State) : (s.refreshPanel).link = s.link := by
  unfold State.refreshPanel; dsimp only; split <;> simp
@[simp] theorem State.refreshPanel_xm (s : State) : (s.refreshPanel).xm = s.xm := by
  unfold State.refreshPanel; dsimp only; split <;> simp
@[simp] theorem State.refreshPanel_engine (s : State) : (s.refreshPanel).engine = s.engine := by
  unfold State.refreshPanel; dsimp only; split <;> simp
@[simp] theorem State.refreshPanel_tables (s : State) : (s.refreshPanel).tables = s.tables := by
  unfold State.refreshPanel; dsimp only; split <;> simp
@[simp] theorem State.refreshPanel_intake (s : State) : (s.refreshPanel).intake = s.intake := by
  unfold State.refreshPanel; dsimp only; split <;> simp
@[simp] theorem State.refreshPanel_gauges (s : State) : (s.refreshPanel).gauges = s.gauges := by
  unfold State.refreshPanel; dsimp only; split <;> simp
@[simp] theorem State.refreshPanel_speed (s : State) : (s.refreshPanel).speed = s.speed := by
  unfold State.refreshPanel; dsimp only; split <;> simp
@[simp] theorem State.refreshPanel_store (s : State) : (s.refreshPanel).store = s.store := by
  unfold State.refreshPanel; dsimp only; split <;> simp
@[simp] theorem State.refreshPanel_lamps (s : State) : (s.refreshPanel).lamps = s.lamps := by
  unfold State.refreshPanel; dsimp only; split <;> simp
@[simp] theorem State.refreshPanel_chime (s : State) : (s.refreshPanel).chime = s.chime := by
  unfold State.refreshPanel; dsimp only; split <;> simp
@[simp] theorem State.refreshPanel_hours (s : State) : (s.refreshPanel).hours = s.hours := by
  unfold State.refreshPanel; dsimp only; split <;> simp
@[simp] theorem State.refreshPanel_prescale (s : State) : (s.refreshPanel).prescale = s.prescale := by
  unfold State.refreshPanel; dsimp only; split <;> simp
@[simp] theorem State.refreshPanel_pending (s : State) : (s.refreshPanel).pending = s.pending := by
  unfold State.refreshPanel; dsimp only; split <;> simp

end Sys2Proof.Machine
end

