-- ==== Sys2Proof/Laws/Orders.lean ====
section
/-! SUPPORT. What the end of an order does (R175, R176), said once; the statements' shapes `endsOrder` and
`holdsOrder` follow from what the order's body answers. -/

namespace Sys2Proof.Machine

/-! ## Frames in parts -/

/-- `onlyExchange` field by field. -/
theorem onlyExchange_iff (s t : State) : onlyExchange s t ↔
    t.mode = s.mode ∧ t.tables = s.tables ∧ t.intake = s.intake ∧ t.gauges = s.gauges ∧ t.speed = s.speed ∧
      t.store = s.store ∧ t.lamps = s.lamps ∧ t.chime = s.chime ∧ t.hours = s.hours ∧ t.stack = s.stack ∧
      t.panel = s.panel ∧ t.prescale = s.prescale ∧ t.pending = s.pending := by
  cases s; cases t
  simp [onlyExchange, State.withXm, State.withLink, State.withEngine]

/-- `onlyMessages` field by field. -/
theorem onlyMessages_iff (s t : State) : onlyMessages s t ↔
    t.mode = s.mode ∧ t.xm = s.xm ∧ t.engine = s.engine ∧ t.tables = s.tables ∧ t.intake = s.intake ∧
      t.gauges = s.gauges ∧ t.speed = s.speed ∧ t.store = s.store ∧ t.lamps = s.lamps ∧ t.hours = s.hours ∧
      t.panel = s.panel ∧ t.prescale = s.prescale ∧ t.pending = s.pending := by
  cases s; cases t
  simp [onlyMessages, State.withStack, State.withLink, State.withChime]

/-! ## Causes -/

/-- A bit of a word is the word's bit of that number. -/
theorem bit_eq_getLsbD (w : Word) (i : Nat) : bit w i = w.getLsbD i := by
  rw [bit, bits, ← BitVec.testBit_toNat, Nat.testBit_eq_decide_div_mod_eq]
  by_cases h : w.toNat / 2 ^ i % 2 = 1 <;> simp [h]

/-- The word of a cause has the cause's place alone. -/
theorem Cause.bit_word (c : Cause) (i : Nat) : bit c.word i = decide (i = c.place) := by
  rw [bit_eq_getLsbD]
  by_cases h : i < 16
  · have key : ∀ (c : Cause), c.place < 16 ∧ ∀ i : Fin 16, c.word.getLsbD i.val = decide (i.val = c.place) := by
      intro c; cases c <;> decide
    exact (key c).2 ⟨i, h⟩
  · rw [BitVec.getLsbD_of_ge _ _ (by omega)]
    have : c.place < 16 := by cases c <;> decide
    rw [decide_eq_false (by omega)]

/-- The causes after a cause has been raised. -/
theorem bit_raise (l : Link) (c : Cause) (i : Nat) :
    bit (l.raise c).causes i = (bit l.causes i || decide (i = c.place)) := by
  rw [← Cause.bit_word, bit_eq_getLsbD, bit_eq_getLsbD, bit_eq_getLsbD, Link.raise, BitVec.getLsbD_or]

/-- Raising a cause changes nothing of the link port but the causes. -/
theorem raise_causes (l : Link) (c : Cause) : l.raise c = { l with causes := (l.raise c).causes } := rfl

/-- A cause that has been raised is pending. -/
theorem pends_raise (s : State) (c : Cause) : pends (s.raise c) c := by
  rw [pends, State.raise_link, bit_raise]; simp

/-- A pending cause stays pending when another is raised. -/
theorem pends_raise_of (s : State) (c d : Cause) (h : pends s c) : pends (s.raise d) c := by
  rw [pends, State.raise_link, bit_raise, show bit s.link.causes c.place = true from h]; rfl

/-- A pending cause stays pending through an event of the stack. -/
theorem pends_takeStack (s : State) (r : Stack × List Severity) (c : Cause) (h : pends s c) :
    pends (s.takeStack r) c := by
  simp only [pends, State.takeStack]
  split
  · rw [bit_raise, show bit s.link.causes c.place = true from h]; rfl
  · exact h

/-- An arrival, which has its chime request, sets MESSAGE_CHANGE (R134), whatever numbers the entries hold. -/
theorem pends_takeStack_of_arrival (s : State) (r : Stack × List Severity) (h : r.2 ≠ []) :
    pends (s.takeStack r) .messageChange := by
  have : (s.stack.changed r.1 || !r.2.isEmpty) = true := by cases e : r.2 <;> simp_all
  rw [pends, State.takeStack, if_pos this, bit_raise]
  simp

/-! ## The return of a strip -/

/-- What the stopping of strips keeps of the exchange. -/
structure Returned (m t : State) : Prop where
  wf : t.xm.wf = true
  others : onlyExchange m t
  words : ∀ a, a ≠ 0x100 → a ≠ 0x300 → t.readXm a = m.readXm a
  causes : t.link = { m.link with causes := t.link.causes }
  rest : ∀ i, i ≠ 1 → i ≠ 2 → bit t.link.causes i = bit m.link.causes i
  hold : m.engine.hold = none → t.engine.hold = none

/-- Nothing has happened. -/
theorem Returned.rfl' {m : State} (h : m.xm.wf = true) : Returned m m :=
  ⟨h, by simp [onlyExchange_iff], fun _ _ _ => rfl, rfl, fun _ _ _ => rfl, id⟩

/-- One stop after another. -/
theorem Returned.trans {a b c : State} (h : Returned a b) (k : Returned b c) : Returned a c where
  wf := k.wf
  others := by
    have h1 := (onlyExchange_iff a b).1 h.others
    have h2 := (onlyExchange_iff b c).1 k.others
    simp_all [onlyExchange_iff]
  words x h1 h2 := (k.words x h1 h2).trans (h.words x h1 h2)
  causes := by rw [k.causes, h.causes]
  rest i h1 h2 := (k.rest i h1 h2).trans (h.rest i h1 h2)
  hold h1 := k.hold (h.hold h1)

/-- The header words lie at 0x100 and 0x300. -/
theorem Strip.base_eq (n : Strip) : n.base = 0x100 ∨ n.base = 0x300 := by cases n <;> simp [Strip.base]

/-- The return of a strip. -/
theorem returnStrip_returned {m : State} (h : m.xm.wf = true) (n : Strip) (r : StopReason) (k : Nat) :
    Returned m (m.returnStrip n r k) where
  wf := by
    have := State.writeXm_wf h n.base (headerWord r k)
    simpa [State.returnStrip] using this
  others := by simp [onlyExchange_iff]
  words a h1 h2 := by
    have ne : a ≠ n.base := by rcases n.base_eq with e | e <;> omega
    have := State.readXm_writeXm_ne h ne (headerWord r k)
    simpa [State.returnStrip, State.readXm] using this
  causes := by simp [State.returnStrip, Link.raise]
  rest i h1 h2 := by
    simp only [State.returnStrip, State.withEngine_link, State.raise_link, State.writeXm_link, bit_raise]
    cases n <;> simp [Strip.returnedCause, Cause.place, h1, h2]
  hold _ := by
    simp only [State.returnStrip, State.withEngine_engine]
    split <;> simp [Engine.start]

/-- One round of the checks on arrival. -/
theorem stopOnce_returned {m : State} (h : m.xm.wf = true) : Returned m m.stopOnce := by
  unfold State.stopOnce
  split
  · exact Returned.rfl' h
  · split
    · exact returnStrip_returned h _ _ _
    · exact Returned.rfl' h
    · exact Returned.rfl' h

/-- The checks on arrival at a position. -/
theorem stopStrips_returned {m : State} (h : m.xm.wf = true) : Returned m m.stopStrips :=
  (stopOnce_returned h).trans (stopOnce_returned (stopOnce_returned h).wf)

/-! ## Going on and stopping at a position -/

/-- A strip that goes on where it stands has END or an order there. -/
theorem standing_of_runsAt {s : State} {n : Strip} (h : s.runsAt n s.engine.position) :
    s.standing n = .endWord ∨ ∃ o, s.standing n = .order o := by
  obtain ⟨lt, h⟩ := h
  unfold State.standing
  simp only [if_neg (Nat.not_le.2 lt)]
  by_cases h0 : s.stripWord n s.engine.position = 0
  · exact .inl (by simp [h0])
  · obtain ⟨o, ho, inside, hm⟩ := h.resolve_left h0
    exact .inr ⟨o, by rw [if_neg h0, ho]; dsimp only; rw [if_neg (Nat.not_lt.2 inside), if_neg (not_not_intro (p := _ = mark) hm)]⟩

/-- A strip that stops where it stands has a stop there, whose reason and number make the header. -/
theorem standing_of_stopsAt {s : State} {n : Strip} {header : Word}
    (h : s.stopsAt n s.engine.position s.engine.executed header) :
    ∃ r k, s.standing n = .stop r k ∧ headerWord r k = header := by
  unfold State.standing
  obtain ⟨le, rfl⟩ | ⟨lt, h0, h⟩ := h
  · exact ⟨.overrun, s.engine.executed, by simp [le], by simp [headerWord, wordOf, StopReason.code]⟩
  · simp only [if_neg (Nat.not_le.2 lt), if_neg h0]
    obtain ⟨ho, rfl⟩ | ⟨o, ho, ⟨out, rfl⟩ | ⟨inside, hm, rfl⟩⟩ := h
    · exact ⟨.unknownFunction, s.engine.position, by simp [ho],
        by simp [headerWord, wordOf, StopReason.code, Nat.mod_eq_of_lt lt]⟩
    · exact ⟨.overrun, s.engine.executed, by simp [ho, out], by simp [headerWord, wordOf, StopReason.code]⟩
    · exact ⟨.malformed, s.engine.position, by rw [ho]; dsimp only; rw [if_neg (Nat.not_lt.2 inside), if_pos (show ¬_ = mark from hm)],
        by simp [headerWord, wordOf, StopReason.code, Nat.mod_eq_of_lt lt]⟩

/-- Where the running strip goes on nothing stops. -/
theorem stopStrips_runsAt {m : State} {n : Strip} (hr : m.engine.running = some n)
    (h : m.runsAt n m.engine.position) : m.stopStrips = m := by
  have : m.stopOnce = m := by
    unfold State.stopOnce
    rw [hr]
    rcases standing_of_runsAt h with h | ⟨o, h⟩ <;> simp [h]
  rw [State.stopStrips, this, this]

/-- What the running strip's words say at a position does not depend on words outside it. -/
theorem runsAt_congr {s t : State} {n : Strip} {p : Nat}
    (h : ∀ i, i < 512 → t.stripWord n i = s.stripWord n i) (hs : s.runsAt n p) : t.runsAt n p := by
  obtain ⟨lt, hs⟩ := hs
  refine ⟨lt, ?_⟩
  rw [h _ lt]
  refine hs.imp id ?_
  rintro ⟨o, ho, inside, hm⟩
  exact ⟨o, ho, inside, by rw [h _ (by omega)]; exact hm⟩

/-- The two strips do not overlap. -/
theorem Strip.base_other (n : Strip) (i : Nat) (h : i < 512) (j : Nat) (k : j < 512) :
    n.other.base + i ≠ n.base + j := by cases n <;> simp only [Strip.base, Strip.other] <;> omega

/-- The engine after the return of a strip, strip by strip. -/
theorem Engine.strip_withStrip (e : Engine) (n : Strip) (st : StripState) :
    (e.withStrip n st).strip n = st ∧ (e.withStrip n st).strip n.other = e.strip n.other := by
  cases n <;> exact ⟨rfl, rfl⟩

/-- The return of a strip (R174). -/
theorem returnStrip_stripReturned {m : State} (h : m.xm.wf = true) (n : Strip) (r : StopReason) (k : Nat) :
    stripReturned m (m.returnStrip n r k) n (headerWord r k) := by
  have read : ∀ a, (m.returnStrip n r k).readXm a = if a = n.base then headerWord r k else m.readXm a := by
    intro a
    have lt : n.base < 4096 := by cases n <;> simp [Strip.base]
    have := State.readXm_writeXm h lt a (headerWord r k)
    simpa [State.returnStrip, State.readXm] using this
  have link : (m.returnStrip n r k).link =
      { m.link with causes := m.link.causes ||| (if n = .one then 0x0002 else 0x0004) } := by
    cases n <;> simp [State.returnStrip, Link.raise, Strip.returnedCause, Cause.word, Cause.place]
  have rest : ∀ a, a ≠ n.base → (m.returnStrip n r k).readXm a = m.readXm a := fun a ha => by rw [read, if_neg ha]
  have eng : (m.returnStrip n r k).engine =
      if m.engine.strip n.other = .queued then ({ m.engine.withStrip n .free with hold := none } : Engine).start n.other
      else { m.engine.withStrip n .free with hold := none } := by
    cases n <;> rfl
  refine ⟨?_, ?_, by rw [read, if_pos rfl], fun ho => ⟨?_, rest, link⟩, fun ho _ => ?_⟩
  · rw [eng]; split <;> cases n <;> rfl
  · rw [eng]; split <;> rfl
  · rw [eng, if_neg (by simp [ho])]; cases n <;> exact ho
  · rw [eng, if_pos ho]
    exact ⟨by cases n <;> rfl, by cases n <;> rfl, by cases n <;> rfl, rest, link⟩

/-- The check at the other strip's position after a return (R175). -/
theorem stopOnce_stripReturned {m u : State} {n : Strip} {header : Word} (wf : u.xm.wf = true)
    (h : stripReturned m u n header) : stripReturned m u.stopOnce n header := by
  obtain ⟨free, hold, head, other, next⟩ := h
  have hn : ¬u.engine.strip n = .running := by rw [free]; simp
  have one : u.engine.running = none ∨ u.engine.running = some n.other ∧ u.engine.strip n.other = .running := by
    unfold Engine.running
    cases n <;> simp_all [Engine.strip, Strip.other] <;> exact (Classical.em _).symm
  rcases one with hr | ⟨hr, ho⟩
  · have : u.stopOnce = u := by unfold State.stopOnce; rw [hr]
    rw [this]; exact ⟨free, hold, head, other, next⟩
  · refine ⟨?_, ?_, ?_, fun hf => ?_, fun hq hat => ?_⟩
    · unfold State.stopOnce
      rw [hr]; dsimp only
      split
      · simp only [State.returnStrip, State.withEngine_engine]
        split <;> cases n <;> simp_all [Engine.strip, Engine.withStrip, Strip.other]
      · exact free
      · exact free
    · unfold State.stopOnce
      rw [hr]; dsimp only
      split
      · simp only [State.returnStrip, State.withEngine_engine]
        split <;> rfl
      · exact hold
      · exact hold
    · unfold State.stopOnce
      rw [hr]; dsimp only
      split
      · rename_i reason number _
        have ne : n.base ≠ n.other.base := by have := Strip.base_other n 0 (by omega) 0 (by omega); omega
        have := State.readXm_writeXm_ne wf ne (headerWord reason number)
        simpa [State.returnStrip, State.readXm, head] using this.trans head
      · exact head
      · exact head
    · rw [(other hf).1] at ho; cases ho
    · obtain ⟨h1, h2, h3, h4, h5⟩ := next hq hat
      have same : ∀ i, i < 512 → u.stripWord n.other i = m.stripWord n.other i := fun i hi => by
        have := Strip.base_other n i hi 0 (by omega)
        exact h4 _ (by omega)
      have stay : u.stopOnce = u := by
        unfold State.stopOnce
        rw [hr]
        rcases standing_of_runsAt (h2.symm ▸ runsAt_congr same hat) with h | ⟨o, h⟩ <;> simp [h]
      rw [stay]; exact ⟨h1, h2, h3, h4, h5⟩

/-- The running strip stops where it stands, and is returned (R174, R175). -/
theorem stopStrips_stopsAt {m : State} (wf : m.xm.wf = true) {n : Strip} {header : Word}
    (hr : m.engine.running = some n) (h : m.stopsAt n m.engine.position m.engine.executed header) :
    stripReturned m m.stopStrips n header := by
  obtain ⟨r, k, hs, rfl⟩ := standing_of_stopsAt h
  have : m.stopOnce = m.returnStrip n r k := by unfold State.stopOnce; rw [hr]; simp [hs]
  rw [State.stopStrips, this]
  exact stopOnce_stripReturned (returnStrip_returned wf n r k).wf (returnStrip_stripReturned wf n r k)

/-! ## The end of an order -/

/-- The order at the execution position lies inside its strip. -/
theorem standing_order {m : State} {n : Strip} {o : Order} (h : m.standing n = .order o) :
    m.engine.position + o.argCount + 1 ≤ 511 := by
  unfold State.standing at h
  dsimp only at h
  split at h
  · simp at h
  · split at h
    · simp at h
    · split at h
      · simp at h
      · split at h
        · simp at h
        · split at h
          · simp at h
          · cases h; omega

/-- An order ends with its result word, and the rest of the exchange is as `orderEnded` says. -/
theorem finish_ends {m : State} {n : Strip} {o : Order} (hr : m.engine.running = some n)
    (hs : m.standing n = .order o) (h : m.xm.wf = true) (r : Result) (d : Nat) :
    onlyExchange m (m.finish r d) ∧ orderEnded m (m.finish r d) n o (resultWord r d) := by
  have inside := standing_order hs
  have lt : m.closing n o < 4096 := by
    have := n.base_eq; unfold State.closing; omega
  have ne : m.closing n o ≠ 0x100 ∧ m.closing n o ≠ 0x300 := by
    unfold State.closing
    cases n <;> simp only [Strip.base] <;> omega
  have eq : n.base + (m.engine.position + o.argCount + 1) = m.closing n o := by
    unfold State.closing; omega
  have fin : m.finish r d = State.stopStrips
      ((m.writeXm (m.closing n o) (resultWord r d)).withEngine { m.engine with
        position := m.engine.position + o.argCount + 2, executed := m.engine.executed + 1, hold := none }) := by
    unfold State.finish
    rw [hr]
    simp only [hs]
    rw [eq]
    rfl
  generalize hu : (m.writeXm (m.closing n o) (resultWord r d)).withEngine { m.engine with
    position := m.engine.position + o.argCount + 2, executed := m.engine.executed + 1, hold := none } = u at fin
  have uwf : u.xm.wf = true := by subst hu; exact State.writeXm_wf h _ _
  have uread : ∀ a, u.readXm a = if a = m.closing n o then resultWord r d else m.readXm a := by
    intro a; subst hu
    exact State.readXm_writeXm h lt a _
  have ret := stopStrips_returned uwf
  have ulink : u.link = m.link := by subst hu; rfl
  rw [fin]
  have hrun : u.engine.running = some n := by subst hu; exact hr
  have hp : u.engine.position = m.engine.position + o.argCount + 2 := by subst hu; rfl
  have he : u.engine.executed = m.engine.executed + 1 := by subst hu; rfl
  refine ⟨?_, ?_, ?_, ?_, ?_, ?_, ?_, ?_⟩
  · have h1 := (onlyExchange_iff u _).1 ret.others
    rw [onlyExchange_iff]
    subst hu
    exact h1
  · rw [ret.words _ ne.1 ne.2, uread, if_pos rfl]
  · intro a ha h1 h2
    rw [ret.words a h1 h2, uread, if_neg ha]
  · exact ret.hold (by subst hu; rfl)
  · rw [ret.causes, ulink]
  · intro i h1 h2; rw [ret.rest i h1 h2, ulink]
  · intro hat
    have far : ∀ i, m.engine.position + o.argCount + 2 ≤ i → u.stripWord n i = m.stripWord n i := fun i hi => by
      unfold State.stripWord
      rw [uread, if_neg (by unfold State.closing; omega)]
    have : u.runsAt n u.engine.position := by
      obtain ⟨hlt, hat⟩ := hat
      rw [hp]
      refine ⟨hlt, ?_⟩
      rw [far _ (by omega)]
      refine hat.imp id ?_
      rintro ⟨o', h1, h2, h3⟩
      exact ⟨o', h1, h2, by rw [far _ (by omega)]; exact h3⟩
    rw [stopStrips_runsAt hrun this]
    subst hu; rfl
  · intro header hstop
    have far : ∀ i, m.engine.position + o.argCount + 2 ≤ i → u.stripWord n i = m.stripWord n i := fun i hi => by
      unfold State.stripWord
      rw [uread, if_neg (by unfold State.closing; omega)]
    have hat : u.stopsAt n u.engine.position u.engine.executed header := by
      rw [hp, he]
      refine hstop.imp id ?_
      rintro ⟨h1, h2, h3⟩
      refine ⟨h1, by rw [far _ (by omega)]; exact h2, ?_⟩
      rw [far _ (by omega)]
      refine h3.imp id ?_
      rintro ⟨o', h4, h5⟩
      exact ⟨o', h4, h5.imp id fun ⟨h6, h7, h8⟩ => ⟨h6, by rw [far _ (by omega)]; exact h7, h8⟩⟩
    have := stopStrips_stopsAt uwf hrun hat
    subst hu
    exact this

/-- A due order is the one at the execution position of the running strip. -/
theorem due_parts {s : State} {n : Strip} {o : Order} (h : due s n o) :
    s.mode.mode ≠ .initial ∧ s.engine.hold = none ∧ s.engine.running = some n ∧ s.standing n = .order o ∧
      s.xm.wf = true := by
  obtain ⟨h, wf⟩ := h
  unfold State.dueOrder at h
  split at h
  · simp at h
  · rename_i hm
    split at h
    · simp at h
    · split at h
      · rename_i hst
        cases h
        simp_all
      · simp at h
      · simp at h

/-- What a due order runs. -/
theorem runOrder_due {s : State} {n : Strip} {o : Order} (h : due s n o)
    (body : State → List Word → State × OrderEnd) :
    s.runOrder o body = State.closeOrder (body s (s.orderArgs n o)) := by
  unfold State.runOrder; rw [h.1]; simp

/-- The words of the running strip and the engine decide what stands at the execution position. -/
theorem standing_congr {s m : State} {n : Strip} (he : m.engine = s.engine)
    (hw : ∀ a, a < 0x500 → m.readXm a = s.readXm a) {o : Order} (h : s.standing n = .order o) :
    m.standing n = .order o := by
  have inside := standing_order h
  have b : n.base ≤ 0x300 := by rcases n.base_eq with e | e <;> omega
  have g : ∀ p, p < 512 → m.stripWord n p = s.stripWord n p := fun p hp => hw _ (by omega)
  unfold State.standing at h ⊢
  dsimp only at h ⊢
  rw [he]
  split at h
  · simp at h
  · rename_i h0
    rw [if_neg h0, g _ (by omega)]
    split at h
    · simp at h
    · rename_i h1
      rw [if_neg h1]
      split at h
      · simp at h
      · rename_i o' _
        split at h
        · simp at h
        · rename_i h2
          rw [if_neg h2, g _ (by omega)]
          exact h

/-- A command that runs a due order whose body ends it, with the body's state, ends the order. -/
theorem endsOrder_of_body {c : Instr} {s m : State} {n : Strip} {o : Order} {r : Result} {d : Nat} {w : Word}
    {body : State → List Word → State × OrderEnd} (h : due s n o)
    (hc : exec c s = .next (s.runOrder o body)) (hb : body s (s.orderArgs n o) = (m, .ended r d))
    (he : m.engine = s.engine) (hw : ∀ a, a < 0x500 → m.readXm a = s.readXm a) (hm : m.xm.wf = true)
    (hr : resultWord r d = w) : endsOrder c s m n o w := by
  obtain ⟨_, _, h3, h4, _⟩ := due_parts h
  subst hr
  refine ⟨m.finish r d, ?_, finish_ends (by rw [he]; exact h3) (standing_congr he hw h4) hm r d⟩
  rw [hc, runOrder_due h, hb]; rfl

/-- A command that completes a held order ends it. -/
theorem endsOrder_of_finish {c : Instr} {s m : State} {n : Strip} {k : Hold} {o : Order} {r : Result} {d : Nat}
    {w : Word} (h : awaits s n k o) (hc : exec c s = .next (m.finish r d)) (he : m.engine = s.engine)
    (hw : ∀ a, a < 0x500 → m.readXm a = s.readXm a) (hm : m.xm.wf = true) (hr : resultWord r d = w) :
    endsOrder c s m n o w := by
  obtain ⟨_, _, h3, h4, _⟩ := h
  subst hr
  exact ⟨m.finish r d, hc, finish_ends (by rw [he]; exact h3) (standing_congr he hw h4) hm r d⟩

/-- A command that runs a due order whose body holds the strip. -/
theorem holdsOrder_of_body {c : Instr} {s m : State} {n : Strip} {o : Order} {k : Hold}
    {body : State → List Word → State × OrderEnd} (h : due s n o)
    (hc : exec c s = .next (s.runOrder o body)) (hb : body s (s.orderArgs n o) = (m, .holds k)) :
    holdsOrder c s m k := by
  unfold holdsOrder
  rw [hc, runOrder_due h, hb]; rfl

/-- Argument word `i` of a due order. -/
theorem arg_orderArgs (s : State) (n : Strip) (o : Order) (i : Nat) (hi : i < o.argCount) :
    arg (s.orderArgs n o) i = s.argNum n i := by
  have key : ∀ (k a i : Nat), i < k → (s.readWords a k).getD i 0 = s.readXm (a + i) := by
    intro k
    induction k with
    | zero => intro a i h; omega
    | succ k ih =>
      intro a i h
      cases i with
      | zero => simp [State.readWords]
      | succ i =>
        have := ih (a + 1) i (by omega)
        simp only [State.readWords, List.getD_cons_succ, this]
        congr 1; omega
  unfold arg State.orderArgs State.argNum
  rw [key _ _ _ hi]

/-- The two-word argument that begins at argument word `i` of a due order. -/
theorem arg2_orderArgs (s : State) (n : Strip) (o : Order) (i : Nat) (hi : i + 1 < o.argCount) :
    arg2 (s.orderArgs n o) i = s.argLong n i := by
  have h0 := arg_orderArgs s n o i (by omega)
  have h1 := arg_orderArgs s n o (i + 1) hi
  unfold arg at h0 h1
  unfold arg2 fromTwoWords State.argLong
  rw [h0, h1]

end Sys2Proof.Machine
end

