-- ==== Sys2Proof/Laws/Messages.lean ====
section
/-! SUPPORT. What a post and a clear do to a message's place in the stack (R121 to R126): a posted message is kept,
a cleared one is dropped, and posts and clears of other identities change neither. -/

namespace Sys2Proof.Machine

/-! ## What the stack holds of an identity -/

/-- No identity is held twice. -/
abbrev Stack.single (k : Stack) : Prop := (k.entries.map Entry.id).Nodup

/-- Activity and severity of the entry with an identity. -/
def Stack.status (k : Stack) (id : Identity) : Option (Bool × Severity) :=
  (k.find id).map fun e => (e.active, e.severity)

/-- Keeping a message is a matter of its entry's activity and severity, and of the pending list. -/
theorem Stack.keeps_iff (k : Stack) (id : Identity) (sev : Severity) : k.keeps id sev ↔
    (∀ v, (id, v) ∈ k.waiting → v = sev) ∧ (k.waits id = true ∨ k.status id = some (true, sev)) := by
  unfold Stack.keeps Stack.status
  cases k.find id <;> simp

/-- A message is dropped where its entry is absent or inactive and it does not wait. -/
theorem Stack.dropped_iff (k : Stack) (id : Identity) : k.dropped id ↔
    (∀ sev, k.status id ≠ some (true, sev)) ∧ k.waits id = false := by
  unfold Stack.dropped Stack.holdsActive Stack.status
  cases k.find id <;> simp

/-- An identity waits exactly when the pending list holds it with some severity. -/
theorem Stack.waits_iff (k : Stack) (id : Identity) : k.waits id = true ↔ ∃ v, (id, v) ∈ k.waiting := by
  unfold Stack.waits
  simp only [List.any_eq_true, beq_iff_eq, Prod.exists]
  exact ⟨fun ⟨a, v, h, e⟩ => ⟨v, e ▸ h⟩, fun ⟨v, h⟩ => ⟨id, v, h, rfl⟩⟩

/-- The entry that is found has the identity and is held. -/
theorem Stack.find_some {k : Stack} {id : Identity} {e : Entry} (h : k.find id = some e) :
    e ∈ k.entries ∧ e.id = id := by
  unfold Stack.find at h
  exact ⟨List.mem_of_find?_eq_some h, by have := List.find?_some h; simpa using this⟩

/-- Where no identity is held twice, the held entry is the one that is found. -/
theorem Stack.find_of_mem {k : Stack} (h : k.single) {e : Entry} (he : e ∈ k.entries) : k.find e.id = some e := by
  obtain ⟨entries, counter, waiting⟩ := k
  simp only [Stack.single, Stack.find] at *
  induction entries with
  | nil => simp at he
  | cons b es ih =>
    simp only [List.map_cons, List.nodup_cons, List.mem_map, not_exists, not_and] at h
    rcases List.mem_cons.1 he with rfl | he
    · simp
    · rw [List.find?_cons_of_neg (by simpa using fun x => h.1 e he x.symm)]
      exact ih h.2 he

/-! ## The operations on entries -/

/-- A map that keeps identities keeps them single. -/
theorem Stack.find_map {es : List Entry} (f : Entry → Entry) (hf : ∀ e, (f e).id = e.id) (id : Identity) :
    (es.map f).find? (fun e => e.id == id) = (es.find? fun e => e.id == id).map f := by
  rw [List.find?_map]
  congr 2
  funext e
  simp [hf]

/-- A filter that drops one identity. -/
theorem Stack.status_drop (k : Stack) (id other : Identity) :
    (k.drop id).status other = if other = id then none else k.status other := by
  unfold Stack.status Stack.find Stack.drop
  simp only [List.find?_filter]
  split
  · rename_i h; subst h
    rw [List.find?_eq_none.2]; · rfl
    intro e _; simp
  · rename_i h
    congr 2
    funext e
    by_cases he : e.id = other <;> simp [he, h]

/-- The renumbering keeps what is held of an identity. -/
theorem Stack.status_bump (k : Stack) (other : Identity) : k.bump.status other = k.status other := by
  unfold Stack.bump
  split
  · rfl
  · unfold Stack.status Stack.find renumber
    rw [Stack.find_map _ (by simp), Option.map_map]
    rfl

/-- An arrival is held active with its severity; the others stay. -/
theorem Stack.status_arrive (k : Stack) (id other : Identity) (sev : Severity) :
    (k.arrive id sev).status other = if other = id then some (true, sev) else k.status other := by
  have h : (k.arrive id sev).status other =
      (((k.bump.drop id).find other).or (if id == other then some ⟨id, sev, .new, true, k.bump.counter, 0⟩ else none)).map
        (fun e => (e.active, e.severity)) := by
    unfold Stack.arrive Stack.status Stack.find
    simp only [List.find?_append, List.find?_singleton]
  have d := Stack.status_drop k.bump id other
  rw [Stack.status_bump] at d
  unfold Stack.status at d
  rw [h]
  by_cases he : other = id
  · subst he
    rw [if_pos rfl, Option.map_eq_none_iff] at d
    rw [d]; simp
  · rw [if_neg he] at d ⊢
    rw [if_neg (by simpa using fun x : id = other => he x.symm), Option.or_none, d]
    rfl

/-- A severity changed in place. -/
theorem Stack.status_setSeverity (k : Stack) (id other : Identity) (sev : Severity) :
    (k.setSeverity id sev).status other =
      if other = id then (k.status other).map (fun x => (x.1, sev)) else k.status other := by
  unfold Stack.setSeverity Stack.status Stack.find
  rw [Stack.find_map _ (by intro e; split <;> rfl), Option.map_map]
  have key : ∀ e, (k.entries.find? fun e => e.id == other) = some e → e.id = other := fun e h => by
    simpa using List.find?_some h
  revert key
  generalize (k.entries.find? fun e => e.id == other) = o
  intro key
  cases o with
  | none => simp
  | some e =>
    have := key e rfl
    subst this
    by_cases h : e.id = id <;> simp [h]

/-- One operation keeps identities single. -/
theorem Stack.single_drop {k : Stack} (h : k.single) (id : Identity) : (k.drop id).single :=
  h.sublist (List.filter_sublist.map _)

/-- An eviction keeps identities single. -/
theorem Stack.single_evict {k : Stack} (h : k.single) (e : Entry) : (k.evict e).single := by
  unfold Stack.evict
  split
  · unfold Stack.wait
    split <;> exact Stack.single_drop h _
  · exact Stack.single_drop h _

/-- An arrival keeps identities single. -/
theorem Stack.single_arrive {k : Stack} (h : k.single) (id : Identity) (sev : Severity) : (k.arrive id sev).single := by
  have hb : k.bump.single := by
    unfold Stack.bump
    split
    · exact h
    · simpa [Stack.single, renumber, Function.comp_def] using h
  have hd := Stack.single_drop hb id
  unfold Stack.single Stack.arrive
  simp only [List.map_append, List.map_cons, List.map_nil]
  rw [List.nodup_append]
  refine ⟨hd, by simp, ?_⟩
  intro a ha b hb' hab
  subst hab
  simp only [List.mem_singleton] at hb'
  subst hb'
  obtain ⟨e, he, rfl⟩ := List.mem_map.1 ha
  simp [Stack.drop] at he

/-- A severity changed in place keeps identities single. -/
theorem Stack.single_setSeverity {k : Stack} (h : k.single) (id : Identity) (sev : Severity) :
    (k.setSeverity id sev).single := by
  unfold Stack.single Stack.setSeverity
  rw [List.map_map]
  have : (Entry.id ∘ fun e : Entry => if e.id = id then { e with severity := sev } else e) = Entry.id := by
    funext e; simp only [Function.comp_apply]; split <;> rfl
  rw [this]; exact h

/-! ## Room (R122, R123) -/

/-- The oldest entry of a kind is held and of that kind. -/
theorem oldest_mem {p : Entry → Bool} {es : List Entry} {v : Entry} (h : oldest p es = some v) :
    v ∈ es ∧ p v = true := by
  have key : ∀ (l : List Entry) (a : Option Entry), (l.foldl olderOf a) = some v → v ∈ l ∨ a = some v := by
    intro l
    induction l with
    | nil => intro a h; exact .inr h
    | cons b l ih =>
      intro a h
      rcases ih _ h with h | h
      · exact .inl (List.mem_cons_of_mem _ h)
      · cases a with
        | none => simp only [olderOf, Option.some.injEq] at h; subst h; exact .inl (List.mem_cons_self)
        | some c =>
          simp only [olderOf] at h
          split at h
          · simp only [Option.some.injEq] at h; subst h; exact .inl (List.mem_cons_self)
          · exact .inr h
  rcases key _ _ h with h | h
  · exact List.mem_filter.1 h
  · simp at h

/-- Room for an AMBER or INFO entry is there, or an entry other than the one posted for has left. -/
theorem Stack.makeNonRedRoom_some {k k' : Stack} {id : Identity} {adding : Bool}
    (h : k.makeNonRedRoom id adding = some k') : k' = k ∨ ∃ v ∈ k.entries, v.id ≠ id ∧ k' = k.evict v := by
  unfold Stack.makeNonRedRoom at h
  split at h
  · simp only [Option.some.injEq] at h; exact .inl h.symm
  · obtain ⟨v, hv, rfl⟩ := Option.map_eq_some_iff.1 h
    refine .inr ⟨v, ?_⟩
    unfold Stack.nonRedVictim at hv
    split at hv
    · rename_i hv'
      simp only [Option.some.injEq] at hv; subst hv
      have := oldest_mem hv'
      simp_all
    · have := oldest_mem hv
      simp_all

/-- Room for a RED entry is there, or an entry has left. -/
theorem Stack.makeRedRoom_some {k k' : Stack} {unit : Bool} (h : k.makeRedRoom unit = some k') :
    k' = k ∨ ∃ v ∈ k.entries, k' = k.evict v := by
  unfold Stack.makeRedRoom at h
  split at h
  · simp only [Option.some.injEq] at h; exact .inl h.symm
  · obtain ⟨v, hv, rfl⟩ := Option.map_eq_some_iff.1 h
    refine .inr ⟨v, ?_, rfl⟩
    unfold Stack.redVictim at hv
    split at hv
    · rename_i hv'; cases hv; exact (oldest_mem hv').1
    · split at hv
      · rename_i hv'; cases hv; exact (oldest_mem hv').1
      · split at hv
        · rename_i hv'; cases hv; exact (oldest_mem hv').1
        · split at hv
          · exact (oldest_mem hv).1
          · simp at hv

/-! ## Keeping and dropping through one operation -/

/-- What an operation does for a unit's message that it does not name: it stays kept, or stays dropped. -/
structure Stack.Spares (k k' : Stack) (other : Identity) : Prop where
  keeps : ∀ sev, other.origin ≠ .link → k.keeps other sev → k'.keeps other sev
  dropped : k.dropped other → k'.dropped other

/-- Nothing has happened. -/
theorem Stack.Spares.refl (k : Stack) (other : Identity) : Stack.Spares k k other := ⟨fun _ _ h => h, fun h => h⟩

/-- One operation after another. -/
theorem Stack.Spares.trans {a b c : Stack} {other : Identity} (h : Stack.Spares a b other)
    (k : Stack.Spares b c other) : Stack.Spares a c other :=
  ⟨fun sev ho x => k.keeps sev ho (h.keeps sev ho x), fun x => k.dropped (h.dropped x)⟩

/-- An operation that leaves what is held of an identity and the pending list spares it. -/
theorem Stack.Spares.of_eq {k k' : Stack} {other : Identity} (hs : k'.status other = k.status other)
    (hw : ∀ v, (other, v) ∈ k'.waiting ↔ (other, v) ∈ k.waiting) : Stack.Spares k k' other := by
  have : k'.waits other = k.waits other := by
    rw [Bool.eq_iff_iff, Stack.waits_iff, Stack.waits_iff]
    exact exists_congr hw
  constructor
  · intro sev _
    rw [Stack.keeps_iff, Stack.keeps_iff, hs, this]
    exact fun ⟨h1, h2⟩ => ⟨fun v hv => h1 v ((hw v).1 hv), h2⟩
  · rw [Stack.dropped_iff, Stack.dropped_iff, hs, this]; exact id

/-- An eviction spares every unit's message. -/
theorem Stack.evict_spares {k : Stack} (h : k.single) {v : Entry} (hv : v ∈ k.entries) (other : Identity) :
    Stack.Spares k (k.evict v) other := by
  have st : (k.evict v).status other = if other = v.id then none else k.status other := by
    unfold Stack.evict
    split
    · unfold Stack.wait
      split
      · exact Stack.status_drop k v.id other
      · exact Stack.status_drop k v.id other
    · exact Stack.status_drop k v.id other
  have found := Stack.find_of_mem h hv
  by_cases he : other = v.id
  · subst he
    have stv : k.status v.id = some (v.active, v.severity) := by unfold Stack.status; rw [found]; rfl
    constructor
    · intro sev ho hk
      rw [Stack.keeps_iff] at hk ⊢
      rw [stv] at hk
      unfold Stack.evict
      by_cases hw : k.waits v.id = true
      · have hw' : (k.drop v.id).waits v.id = true := hw
        split
        · unfold Stack.wait; rw [if_pos hw']; exact ⟨hk.1, .inl hw'⟩
        · exact ⟨hk.1, .inl hw'⟩
      · have hw' : ¬(k.drop v.id).waits v.id = true := hw
        rcases hk.2 with h1 | h1
        · exact absurd h1 hw
        · simp only [Option.some.injEq, Prod.mk.injEq] at h1
          rw [if_pos (by simp [h1.1, ho])]
          unfold Stack.wait
          rw [if_neg hw']
          refine ⟨fun x hx => ?_, .inl ?_⟩
          · simp only [Stack.drop, List.mem_append, List.mem_singleton, Prod.mk.injEq, true_and] at hx
            rcases hx with hx | hx
            · exact hk.1 x hx
            · exact hx.trans h1.2
          · rw [Stack.waits_iff]; exact ⟨v.severity, by simp⟩
    · rw [Stack.dropped_iff, Stack.dropped_iff, stv]
      rintro ⟨h1, h2⟩
      have act : v.active = false := by
        cases ha : v.active with
        | false => rfl
        | true => exact absurd (by rw [ha]) (h1 v.severity)
      unfold Stack.evict
      rw [if_neg (by simp [act])]
      refine ⟨fun sev => ?_, h2⟩
      rw [Stack.status_drop, if_pos rfl]; simp
  · refine Stack.Spares.of_eq (by rw [st, if_neg he]) fun x => ?_
    unfold Stack.evict
    split
    · unfold Stack.wait
      split
      · rfl
      · simp [Stack.drop, he]
    · rfl

/-- A post that R121 takes spares the messages of other identities; the one it names is then held active with the
severity, unless there is no room. It keeps identities single. -/
theorem Stack.offer_spec {k : Stack} (h : k.single) (id : Identity) (sev : Severity) :
    (k.offer id sev).1.single ∧ (∀ other, other ≠ id → Stack.Spares k (k.offer id sev).1 other) ∧
      ((k.offer id sev).2 = .noRoom → (k.offer id sev).1 = k) ∧
      ((k.offer id sev).2 ≠ .noRoom → (k.offer id sev).1.status id = some (true, sev)) ∧
      (∀ v, (id, v) ∈ (k.offer id sev).1.waiting ↔ (id, v) ∈ k.waiting) := by
  have evicted : ∀ v ∈ k.entries, v.id ≠ id → ∀ x, (id, x) ∈ (k.evict v).waiting ↔ (id, x) ∈ k.waiting := by
    intro v _ ne x
    unfold Stack.evict
    split
    · unfold Stack.wait
      split
      · rfl
      · simp [Stack.drop, Ne.symm ne]
    · rfl
  have arrived : ∀ k' : Stack, k' = k ∨ (∃ v ∈ k.entries, v.id ≠ id ∧ k' = k.evict v) →
      (k'.arrive id sev).single ∧ (∀ other, other ≠ id → Stack.Spares k (k'.arrive id sev) other) ∧
        (k'.arrive id sev).status id = some (true, sev) ∧
        (∀ v, (id, v) ∈ (k'.arrive id sev).waiting ↔ (id, v) ∈ k.waiting) := by
    intro k' hk'
    have hs : k'.single := by
      rcases hk' with rfl | ⟨v, _, _, rfl⟩
      · exact h
      · exact Stack.single_evict h v
    have wait' : (k'.arrive id sev).waiting = k'.waiting := by
      unfold Stack.arrive Stack.drop Stack.bump; dsimp only; split <;> rfl
    refine ⟨Stack.single_arrive hs id sev, fun other ne => ?_, by rw [Stack.status_arrive, if_pos rfl], fun v => ?_⟩
    · have s2 : Stack.Spares k' (k'.arrive id sev) other :=
        Stack.Spares.of_eq (by rw [Stack.status_arrive, if_neg ne]) (fun v => by rw [wait'])
      rcases hk' with rfl | ⟨v, hv, _, rfl⟩
      · exact s2
      · exact (Stack.evict_spares h hv other).trans s2
    · rw [wait']
      rcases hk' with rfl | ⟨v', hv, ne, rfl⟩
      · rfl
      · exact evicted v' hv ne v
  unfold Stack.offer
  split
  · rename_i hf
    have noid : ∀ v ∈ k.entries, v.id ≠ id := by
      intro v hv he
      have := Stack.find_of_mem h hv
      rw [he, hf] at this; cases this
    split
    · rename_i k' hk
      have : k' = k ∨ ∃ v ∈ k.entries, v.id ≠ id ∧ k' = k.evict v := by
        split at hk
        · rcases Stack.makeRedRoom_some hk with rfl | ⟨v, hv, rfl⟩
          · exact .inl rfl
          · exact .inr ⟨v, hv, noid v hv, rfl⟩
        · exact Stack.makeNonRedRoom_some hk
      obtain ⟨a, b, c, d⟩ := arrived k' this
      exact ⟨a, b, by simp, fun _ => c, d⟩
    · exact ⟨h, fun other _ => .refl k other, fun _ => rfl, by simp, fun _ => Iff.rfl⟩
  · rename_i e hf
    split
    · rename_i hact
      simp only [Bool.and_eq_true, beq_iff_eq] at hact
      refine ⟨h, fun other _ => .refl k other, fun _ => rfl, fun _ => ?_, fun _ => Iff.rfl⟩
      unfold Stack.status; rw [hf]; simp [hact]
    · split
      · rename_i k' hk
        have hk' : k' = k ∨ ∃ v ∈ k.entries, v.id ≠ id ∧ k' = k.evict v := by
          split at hk
          · exact Stack.makeNonRedRoom_some hk
          · simp only [Option.some.injEq] at hk; exact .inl hk.symm
        split
        · rename_i hact
          have hs : k'.single := by
            rcases hk' with rfl | ⟨v, _, _, rfl⟩
            · exact h
            · exact Stack.single_evict h v
          have st : k'.status id = some (true, e.severity) := by
            have base : k.status id = some (true, e.severity) := by
              unfold Stack.status; rw [hf]; simp [hact]
            rcases hk' with rfl | ⟨v, hv, ne, rfl⟩
            · exact base
            · have : (k.evict v).status id = k.status id := by
                unfold Stack.evict
                split
                · unfold Stack.wait
                  split <;> exact (Stack.status_drop k v.id id).trans (if_neg (Ne.symm ne))
                · exact (Stack.status_drop k v.id id).trans (if_neg (Ne.symm ne))
              rw [this, base]
          refine ⟨Stack.single_setSeverity hs id sev, fun other ne => ?_, by simp, fun _ => ?_, fun v => ?_⟩
          · have s2 : Stack.Spares k' (k'.setSeverity id sev) other :=
              Stack.Spares.of_eq (by rw [Stack.status_setSeverity, if_neg ne]) (fun v => Iff.rfl)
            rcases hk' with rfl | ⟨v, hv, _, rfl⟩
            · exact s2
            · exact (Stack.evict_spares h hv other).trans s2
          · rw [Stack.status_setSeverity, if_pos rfl, st]; rfl
          · show (id, v) ∈ k'.waiting ↔ _
            rcases hk' with rfl | ⟨v', hv, ne, rfl⟩
            · rfl
            · exact evicted v' hv ne v
        · obtain ⟨a, b, c, d⟩ := arrived k' hk'
          exact ⟨a, b, by simp, fun _ => c, d⟩
      · exact ⟨h, fun other _ => .refl k other, fun _ => rfl, by simp, fun _ => Iff.rfl⟩

/-! ## The pending list and its retry (R125) -/

/-- An identity that leaves the pending list. -/
theorem Stack.unwait_spares (k : Stack) {id other : Identity} (ne : other ≠ id) : Stack.Spares k (k.unwait id) other :=
  Stack.Spares.of_eq rfl fun v => by simp [Stack.unwait, ne]

/-- After it no severity waits with the identity. -/
theorem Stack.unwait_not_mem (k : Stack) (id : Identity) (v : Severity) : (id, v) ∉ (k.unwait id).waiting := by
  simp [Stack.unwait]

/-- A retry keeps identities single, keeps every unit's message that is kept, and posts none that is dropped. -/
theorem Stack.retry_spares {k : Stack} (h : k.single) :
    k.retry.1.single ∧ ∀ other, Stack.Spares k k.retry.1 other := by
  have key : ∀ (l : List (Identity × Severity)) (acc : Stack × List Severity), (∀ w ∈ l, w ∈ k.waiting) →
      acc.1.single → (∀ other, Stack.Spares k acc.1 other) →
      (l.foldl Stack.retryOne acc).1.single ∧ ∀ other, Stack.Spares k (l.foldl Stack.retryOne acc).1 other := by
    intro l
    induction l with
    | nil => intro acc _ h1 h2; exact ⟨h1, h2⟩
    | cons w l ih =>
      intro acc hl h1 h2
      have hw : w ∈ k.waiting := hl w (by simp)
      have spec := Stack.offer_spec h1 w.1 w.2
      refine ih _ (fun x hx => hl x (List.mem_cons_of_mem _ hx)) ?_ ?_
      · unfold Stack.retryOne
        split
        · exact h1
        · rename_i k' o _ heq
          have := spec.1
          rw [heq] at this
          exact this
      · intro other
        unfold Stack.retryOne
        split
        · exact h2 other
        · rename_i k' o hne heq
          rw [heq] at spec
          obtain ⟨_, sp, _, made, _⟩ := spec
          by_cases he : other = w.1
          · subst he
            constructor
            · intro sev _ hk
              have hs : w.2 = sev := by
                rw [Stack.keeps_iff] at hk; exact hk.1 _ hw
              have := made hne
              rw [Stack.keeps_iff]
              exact ⟨fun v hv => absurd hv (Stack.unwait_not_mem _ _ _), .inr (hs ▸ this)⟩
            · intro hd
              rw [Stack.dropped_iff] at hd
              have : k.waits w.1 = true := (Stack.waits_iff _ _).2 ⟨w.2, hw⟩
              rw [hd.2] at this; cases this
          · exact ((h2 other).trans (sp other he)).trans (Stack.unwait_spares _ he)
  unfold Stack.retry
  refine key _ _ ?_ h fun other => .refl k other
  intro w hw
  rcases List.mem_append.1 hw with hw | hw
  · exact (List.mem_filter.1 hw).1
  · exact (List.mem_filter.1 hw).1

/-- The end of an event of the stack spares every message. -/
theorem Stack.settle_spares {k : Stack} (h : k.single) (rings : List Severity) (again : Bool) :
    (k.settle rings again).1.single ∧ ∀ other, Stack.Spares k (k.settle rings again).1 other := by
  unfold Stack.settle
  split
  · exact Stack.retry_spares h
  · exact ⟨h, fun other => .refl k other⟩

/-! ## A unit's post and clear (R121, R125, R126) -/

/-- A severity changed in the pending list. -/
theorem Stack.rewait_spec (k : Stack) (id : Identity) (sev : Severity) (hw : k.waits id = true) :
    (k.rewait id sev).keeps id sev ∧ ∀ other, other ≠ id → Stack.Spares k (k.rewait id sev) other := by
  have mem : ∀ other v, (other, v) ∈ (k.rewait id sev).waiting ↔
      (other = id ∧ v = sev ∧ ∃ x, (id, x) ∈ k.waiting) ∨ (other ≠ id ∧ (other, v) ∈ k.waiting) := by
    intro other v
    simp only [Stack.rewait, List.mem_map, Prod.exists]
    constructor
    · rintro ⟨a, x, hx, he⟩
      by_cases ha : a = id
      · rw [if_pos ha] at he
        simp only [Prod.mk.injEq] at he
        exact .inl ⟨he.1.symm, he.2.symm, x, ha ▸ hx⟩
      · rw [if_neg ha] at he
        simp only [Prod.mk.injEq] at he
        obtain ⟨rfl, rfl⟩ := he
        exact .inr ⟨ha, hx⟩
    · rintro (⟨rfl, rfl, x, hx⟩ | ⟨ne, hx⟩)
      · exact ⟨other, x, hx, by simp⟩
      · exact ⟨other, v, hx, by simp [ne]⟩
  refine ⟨?_, fun other ne => Stack.Spares.of_eq rfl fun v => by rw [mem]; simp [ne]⟩
  rw [Stack.keeps_iff]
  obtain ⟨x, hx⟩ := (Stack.waits_iff _ _).1 hw
  refine ⟨fun v hv => ?_, .inl ((Stack.waits_iff _ _).2 ⟨sev, (mem _ _).2 (.inl ⟨rfl, rfl, x, hx⟩)⟩)⟩
  rcases (mem _ _).1 hv with h | h
  · exact h.2.1
  · exact absurd rfl h.1

/-- A unit's post: its message is kept with the severity, and the messages of other identities are spared. -/
theorem Stack.unitPost_spec {k : Stack} (h : k.single) (id : Identity) (sev : Severity) (unit : id.origin ≠ .link) :
    (k.unitPost id sev).1.single ∧ (k.unitPost id sev).1.keeps id sev ∧
      ∀ other, other ≠ id → Stack.Spares k (k.unitPost id sev).1 other := by
  unfold Stack.unitPost
  split
  · rename_i hw
    simp only [Bool.and_eq_true] at hw
    have := Stack.rewait_spec k id sev hw.1
    exact ⟨h, this.1, this.2⟩
  · obtain ⟨s1, sp, same, made, _⟩ := Stack.offer_spec h id sev
    have after : (k.afterOffer (k.offer id sev).1 id sev (k.offer id sev).2).single ∧
        (k.afterOffer (k.offer id sev).1 id sev (k.offer id sev).2).keeps id sev ∧
        ∀ other, other ≠ id → Stack.Spares k (k.afterOffer (k.offer id sev).1 id sev (k.offer id sev).2) other := by
      by_cases ho : (k.offer id sev).2 = .noRoom
      · rw [ho]
        unfold Stack.afterOffer
        dsimp only
        split
        · rename_i hw
          have := Stack.rewait_spec k id sev hw
          exact ⟨h, this.1, this.2⟩
        · rename_i hw
          unfold Stack.wait
          rw [if_neg hw]
          refine ⟨h, ?_, fun other ne => Stack.Spares.of_eq rfl fun v => by simp [ne]⟩
          rw [Stack.keeps_iff]
          refine ⟨fun v hv => ?_, .inl ((Stack.waits_iff _ _).2 ⟨sev, by simp⟩)⟩
          simp only [List.mem_append, List.mem_singleton, Prod.mk.injEq, true_and] at hv
          rcases hv with hv | hv
          · exact absurd ((Stack.waits_iff _ _).2 ⟨v, hv⟩) hw
          · exact hv
      · have e : k.afterOffer (k.offer id sev).1 id sev (k.offer id sev).2 = (k.offer id sev).1.unwait id := by
          unfold Stack.afterOffer
          split <;> simp_all
        rw [e]
        refine ⟨s1, ?_, fun other ne => (sp other ne).trans (Stack.unwait_spares _ ne)⟩
        rw [Stack.keeps_iff]
        exact ⟨fun v hv => absurd hv (Stack.unwait_not_mem _ _ _), .inr (made ho)⟩
    obtain ⟨a1, a2, a3⟩ := after
    obtain ⟨b1, b2⟩ := Stack.settle_spares a1 ((k.offer id sev).2.rings sev) (k.reseverity id sev (k.offer id sev).2)
    exact ⟨b1, (b2 id).keeps sev unit a2, fun other ne => (a3 other ne).trans (b2 other)⟩

/-- One entry changed: the others stay. -/
theorem Stack.change_spec {k : Stack} (h : k.single) (id : Identity) (f : Entry → Entry) (hf : ∀ e, (f e).id = e.id) :
    (k.change id f).single ∧ (∀ other, other ≠ id → Stack.Spares k (k.change id f) other) ∧
      ∀ e, (k.change id f).find id = some e → ∃ b, k.find id = some b ∧ e = f b := by
  have ids : ((k.entries.map fun e => if e.id = id then f e else e).map Entry.id) = k.entries.map Entry.id := by
    rw [List.map_map]; congr 1; funext e
    simp only [Function.comp_apply]; split
    · exact hf e
    · rfl
  refine ⟨?_, fun other ne => ?_, ?_⟩
  · have : ((k.entries.map fun e => if e.id = id then f e else e).map Entry.id).Nodup := by rw [ids]; exact h
    exact this.sublist (List.filter_sublist.map _)
  · refine Stack.Spares.of_eq ?_ fun v => Iff.rfl
    unfold Stack.status Stack.find Stack.change
    simp only [List.find?_filter]
    have same : ∀ e : Entry, decide ((!(e.id == id && e.gone)) = true ∧ (e.id == other) = true) = (e.id == other) := by
      intro e
      by_cases he : e.id = other
      · simp [he, ne]
      · simp [he]
    have kept : ∀ e : Entry, (if e.id = id then f e else e).id = e.id := by
      intro e
      split
      · exact hf e
      · rfl
    simp only [same]
    rw [Stack.find_map _ kept, Option.map_map]
    have found : ∀ e, (k.entries.find? fun e => e.id == other) = some e → e.id = other := fun e he => by
      simpa using List.find?_some he
    revert found
    generalize (k.entries.find? fun e => e.id == other) = o
    intro found
    cases o with
    | none => rfl
    | some e => have := found e rfl; simp [this, ne]
  · intro e he
    obtain ⟨hm, hid⟩ := Stack.find_some he
    simp only [Stack.change, List.mem_filter, List.mem_map] at hm
    obtain ⟨⟨b, hb, hfb⟩, _⟩ := hm
    have hbid : b.id = id := by
      by_cases hb' : b.id = id
      · exact hb'
      · rw [if_neg hb'] at hfb; rw [hfb]; exact hid
    rw [if_pos hbid] at hfb
    exact ⟨b, hbid ▸ Stack.find_of_mem h hb, hfb.symm⟩

/-- A clear: its message is dropped, and every other identity's message is spared. -/
theorem Stack.clear_spec {k : Stack} (h : k.single) (id : Identity) :
    (k.clear id).1.single ∧ (k.clear id).1.dropped id ∧
      ∀ other, other ≠ id → Stack.Spares k (k.clear id).1 other := by
  have unwaited : (k.unwait id).waits id = false := by
    rw [Bool.eq_false_iff, ne_eq, Stack.waits_iff]
    rintro ⟨v, hv⟩; exact Stack.unwait_not_mem _ _ _ hv
  unfold Stack.clear
  split
  · have hu : (k.unwait id).single := h
    obtain ⟨c1, c2, c3⟩ := Stack.change_spec hu id Entry.deactivate (fun _ => rfl)
    obtain ⟨b1, b2⟩ := Stack.settle_spares c1 [] true
    refine ⟨b1, (b2 id).dropped ?_, fun other ne => ((Stack.unwait_spares k ne).trans (c2 other ne)).trans (b2 other)⟩
    refine ⟨?_, unwaited⟩
    unfold Stack.holdsActive
    cases hfind : ((k.unwait id).change id Entry.deactivate).find id with
    | none => rfl
    | some e => obtain ⟨b, _, rfl⟩ := c3 e hfind; rfl
  · rename_i ha
    exact ⟨h, ⟨Bool.eq_false_iff.2 ha, unwaited⟩, fun other ne => Stack.unwait_spares k ne⟩

/-! ## Within the part -/

/-- A unit's post within the part. -/
theorem State.post_spec {s : State} (h : s.stack.single) (id : Identity) (sev : Severity) (unit : id.origin ≠ .link) :
    (s.post id sev).stack.single ∧ (s.post id sev).stack.keeps id sev ∧
      ∀ other, other ≠ id → Stack.Spares s.stack (s.post id sev).stack other :=
  Stack.unitPost_spec h id sev unit

/-- A unit's clear within the part. -/
theorem State.clear_spec {s : State} (h : s.stack.single) (id : Identity) :
    (s.clear id).stack.single ∧ (s.clear id).stack.dropped id ∧
      ∀ other, other ≠ id → Stack.Spares s.stack (s.clear id).stack other :=
  Stack.clear_spec h id

/-- What a unit does for a message whose condition goes from `old` to `new`: the message follows, and those of other
identities are spared. -/
structure Follows (s m : State) (id : Identity) (sev : Severity) (old new : Bool) : Prop where
  single : m.stack.single
  rises : old = false → new = true → m.stack.keeps id sev
  falls : old = true → new = false → m.stack.dropped id
  spares : ∀ other, other ≠ id → Stack.Spares s.stack m.stack other

/-- An alert of the hours unit follows its flag (R114). -/
theorem State.alert_follows {s : State} (h : s.stack.single) (id : Identity) (sev : Severity)
    (unit : id.origin ≠ .link) (old new : Bool) : Follows s (s.alert id sev old new) id sev old new := by
  have p := State.post_spec h id sev unit
  have q := State.clear_spec h id
  unfold State.alert
  cases old <;> cases new
  · exact ⟨h, by simp, by simp, fun other _ => .refl _ _⟩
  · exact ⟨p.1, fun _ _ => p.2.1, by simp, p.2.2⟩
  · exact ⟨q.1, by simp, fun _ _ => q.2.1, q.2.2⟩
  · exact ⟨h, by simp, by simp, fun other _ => .refl _ _⟩

/-- The rise of an alert sets HOURS_ALERT, and no alert withdraws a cause (R114, R182). -/
theorem State.alert_pends (s : State) (id : Identity) (sev : Severity) (old new : Bool) :
    (old = false → new = true → pends (s.alert id sev old new) .hoursAlert) ∧
      ∀ c, pends s c → pends (s.alert id sev old new) c := by
  unfold State.alert
  cases old <;> cases new
  · exact ⟨by simp, fun _ h => h⟩
  · exact ⟨fun _ _ => pends_raise _ _, fun c hc => pends_raise_of _ _ _ (pends_takeStack _ _ _ hc)⟩
  · exact ⟨by simp, fun c hc => pends_takeStack _ _ _ hc⟩
  · exact ⟨by simp, fun _ h => h⟩

/-! ## The alerts of the hours unit (R114, R115) -/

/-- Alerts of distinct identities in turn: each message follows its flag. -/
theorem alerts_follow (l : List (Identity × Severity × Bool × Bool)) {s : State} (h : s.stack.single)
    (distinct : (l.map Prod.fst).Nodup) (unit : ∀ a ∈ l, a.1.origin ≠ .link) :
    ∀ m, m = l.foldl (fun s a => s.alert a.1 a.2.1 a.2.2.1 a.2.2.2) s →
      m.stack.single ∧ (∀ other, other ∉ l.map Prod.fst → Stack.Spares s.stack m.stack other) ∧
        ∀ id sev old new, (id, sev, old, new) ∈ l →
          (old = false → new = true → m.stack.keeps id sev) ∧ (old = true → new = false → m.stack.dropped id) := by
  induction l generalizing s with
  | nil => rintro m rfl; exact ⟨h, fun _ _ => .refl _ _, by simp⟩
  | cons a l ih =>
    rintro m rfl
    have f := State.alert_follows h a.1 a.2.1 (unit a (by simp)) a.2.2.1 a.2.2.2
    simp only [List.map_cons, List.nodup_cons] at distinct
    obtain ⟨h1, h3, h4⟩ := ih f.single distinct.2 (fun b hb => unit b (List.mem_cons_of_mem _ hb)) _ rfl
    refine ⟨h1, fun other ho => ?_, ?_⟩
    · simp only [List.map_cons, List.mem_cons, not_or] at ho
      exact (f.spares other ho.1).trans (h3 other ho.2)
    · intro id sev old new hm
      rcases List.mem_cons.1 hm with rfl | hm
      · exact ⟨fun x y => (h3 _ distinct.1).keeps _ (unit _ (by simp)) (f.rises x y),
          fun x y => (h3 _ distinct.1).dropped (f.falls x y)⟩
      · exact h4 id sev old new hm

/-- Alerts in turn: a rise among them sets the cause, and no cause is withdrawn. -/
theorem alerts_pend (l : List (Identity × Severity × Bool × Bool)) (s : State) :
    ∀ m, m = l.foldl (fun s a => s.alert a.1 a.2.1 a.2.2.1 a.2.2.2) s →
      (∀ c, pends s c → pends m c) ∧
        ∀ id sev old new, (id, sev, old, new) ∈ l → old = false → new = true → pends m .hoursAlert := by
  induction l generalizing s with
  | nil => rintro m rfl; exact ⟨fun _ h => h, by simp⟩
  | cons a l ih =>
    rintro m rfl
    have p := State.alert_pends s a.1 a.2.1 a.2.2.1 a.2.2.2
    obtain ⟨h1, h2⟩ := ih (s.alert a.1 a.2.1 a.2.2.1 a.2.2.2) _ rfl
    refine ⟨fun c hc => h1 c (p.2 c hc), ?_⟩
    intro id sev old new hm x y
    rcases List.mem_cons.1 hm with rfl | hm
    · exact h1 _ (p.1 x y)
    · exact h2 id sev old new hm x y

/-- The alerts that an evaluation judges, with their flags before and after (R114, R115). -/
def alertList (old new : Hours) : List (Identity × Severity × Bool × Bool) :=
  [(⟨246, .hours, 1⟩, .amber, old.driver1.alerts.prewarn, new.driver1.alerts.prewarn),
    (⟨247, .hours, 1⟩, .red, old.driver1.alerts.cdExceeded, new.driver1.alerts.cdExceeded),
    (⟨248, .hours, 1⟩, .amber, old.driver1.alerts.ddExceeded, new.driver1.alerts.ddExceeded),
    (⟨246, .hours, 2⟩, .amber, old.driver2.alerts.prewarn, new.driver2.alerts.prewarn),
    (⟨247, .hours, 2⟩, .red, old.driver2.alerts.cdExceeded, new.driver2.alerts.cdExceeded),
    (⟨248, .hours, 2⟩, .amber, old.driver2.alerts.ddExceeded, new.driver2.alerts.ddExceeded),
    (⟨249, .hours, 0⟩, .amber, old.undeclared, new.undeclared)]

/-- An evaluation of the hours unit settles its alerts' messages and cause. -/
theorem State.evaluateHours_alertsFollow (s : State) :
    alertsFollow s s.evaluateHours ∧ (s.stack.single → s.evaluateHours.stack.single) := by
  generalize hn : s.hours.evaluated s.tables.rules s.speed.moving = new
  have hours : s.evaluateHours.hours = new := by rw [← hn]; simp [State.evaluateHours]
  have fold : s.evaluateHours = (alertList s.hours new).foldl
      (fun s a => s.alert a.1 a.2.1 a.2.2.1 a.2.2.2) (s.withHours new) := by rw [← hn]; rfl
  have fol : s.stack.single → _ := fun h => alerts_follow (alertList s.hours new) (s := s.withHours new) h
    (by simp [alertList]) (by simp [alertList]) _ fold
  have pend := (alerts_pend (alertList s.hours new) (s.withHours new) _ fold).2
  have msg : ∀ id sev old new', (id, sev, old, new') ∈ alertList s.hours new →
      messageFollows s s.evaluateHours id sev old new' := fun id sev old new' hm cap => (fol cap.2.2.1).2.2 id sev old new' hm
  refine ⟨⟨?_, ?_, ?_⟩, fun h => (fol h).1⟩
  · rintro d a b rfl rfl
    rw [hours]
    cases d
    · exact ⟨msg _ _ _ _ (by simp [alertList, Hours.driver, DriverSlot.number]),
        msg _ _ _ _ (by simp [alertList, Hours.driver, DriverSlot.number]),
        msg _ _ _ _ (by simp [alertList, Hours.driver, DriverSlot.number]),
        fun r => r.elim (fun r => pend ⟨246, .hours, 1⟩ .amber _ _ (by simp [alertList, Hours.driver]) r.1 r.2) fun r =>
          r.elim (fun r => pend ⟨247, .hours, 1⟩ .red _ _ (by simp [alertList, Hours.driver]) r.1 r.2) fun r =>
            pend ⟨248, .hours, 1⟩ .amber _ _ (by simp [alertList, Hours.driver]) r.1 r.2⟩
    · exact ⟨msg _ _ _ _ (by simp [alertList, Hours.driver, DriverSlot.number]),
        msg _ _ _ _ (by simp [alertList, Hours.driver, DriverSlot.number]),
        msg _ _ _ _ (by simp [alertList, Hours.driver, DriverSlot.number]),
        fun r => r.elim (fun r => pend ⟨246, .hours, 2⟩ .amber _ _ (by simp [alertList, Hours.driver]) r.1 r.2) fun r =>
          r.elim (fun r => pend ⟨247, .hours, 2⟩ .red _ _ (by simp [alertList, Hours.driver]) r.1 r.2) fun r =>
            pend ⟨248, .hours, 2⟩ .amber _ _ (by simp [alertList, Hours.driver]) r.1 r.2⟩
  · rw [hours]; exact msg _ _ _ _ (by simp [alertList])
  · rw [hours]; exact pend ⟨249, .hours, 0⟩ .amber _ _ (by simp [alertList])

end Sys2Proof.Machine
end

