-- ==== Sys2Proof/Laws/Report.lean ====
section
/-! SUPPORT. What the link accesses inside a refresh pass can do, and what the writes of a pass leave (R172). -/

namespace Sys2Proof.Machine

/-- What a link access keeps: exchange memory canonical, the report block, the number of the pass, and every unit
outside the exchange. -/
structure Passing (s t : State) : Prop where
  wf : t.xm.wf = true
  others : onlyExchange s t
  block : ∀ a, a < 64 → t.readXm a = s.readXm a
  seq : t.link.refreshSeq = s.link.refreshSeq

/-- Nothing has happened. -/
theorem Passing.rfl' {s : State} (h : s.xm.wf = true) : Passing s s :=
  ⟨h, by simp [onlyExchange_iff], fun _ _ => rfl, rfl⟩

/-- One access after another. -/
theorem Passing.trans {a b c : State} (h : Passing a b) (k : Passing b c) : Passing a c where
  wf := k.wf
  others := by
    have h1 := (onlyExchange_iff a b).1 h.others
    have h2 := (onlyExchange_iff b c).1 k.others
    simp_all [onlyExchange_iff]
  block x hx := (k.block x hx).trans (h.block x hx)
  seq := k.seq.trans h.seq

/-- The link port's own fields. -/
theorem passing_withLink {s : State} (h : s.xm.wf = true) (l : Link)
    (hs : l.refreshSeq = s.link.refreshSeq) : Passing s (s.withLink l) :=
  ⟨h, by simp [onlyExchange_iff], fun _ _ => rfl, hs⟩

/-- A cause raised. -/
theorem passing_raise {s : State} (h : s.xm.wf = true) (c : Cause) : Passing s (s.raise c) :=
  passing_withLink h _ rfl

/-- A word beyond the report block. -/
theorem passing_writeXm {s : State} (h : s.xm.wf = true) (a : Nat) (w : Word) (ha : 64 ≤ a) :
    Passing s (s.writeXm a w) where
  wf := State.writeXm_wf h a w
  others := by simp [onlyExchange_iff]
  block b hb := State.readXm_writeXm_ne h (by omega) w
  seq := rfl

/-- The stopping of strips. -/
theorem passing_of_returned {s t : State} (h : Returned s t) : Passing s t :=
  ⟨h.wf, h.others, fun a ha => h.words a (by omega) (by omega), by rw [h.causes]⟩

/-- The engine's own fields. -/
theorem passing_withEngine {s : State} (h : s.xm.wf = true) (e : Engine) : Passing s (s.withEngine e) :=
  ⟨h, by simp [onlyExchange_iff], fun _ _ => rfl, rfl⟩

/-- HAND OVER. -/
theorem passing_handOver {s : State} (h : s.xm.wf = true) (n : Strip) : Passing s (s.handOver n) := by
  unfold State.handOver
  split
  · split
    · exact passing_withEngine h _
    · exact (passing_withEngine h _).trans (passing_of_returned (stopStrips_returned h))
  · exact passing_raise h _

/-- WITHDRAW. -/
theorem passing_withdraw {s : State} (h : s.xm.wf = true) (n : Strip) : Passing s (s.withdraw n) := by
  unfold State.withdraw
  split
  · have w := passing_writeXm h n.base (headerWord .withdrawn 0) (by rcases n.base_eq with e | e <;> omega)
    exact (w.trans (passing_withEngine w.wf _)).trans (passing_raise (passing_withEngine w.wf _).wf _)
  · exact passing_raise h _

/-- A WDAT write: the report block refuses it (R169). -/
theorem passing_writeWdat {s : State} (h : s.xm.wf = true) (w : Word) : Passing s (s.writeWdat w) := by
  have step : Passing s (if s.refusesWdat then s.raise .badWrite else s.writeXm s.link.addr w) := by
    split
    · exact passing_raise h _
    · rename_i hr
      refine passing_writeXm h _ w ?_
      simp only [State.refusesWdat, State.protectedWord, Bool.or_eq_true, decide_eq_true_eq] at hr
      omega
  exact step.trans (passing_withLink step.wf _ rfl)

/-- Any link access. -/
theorem passing_access {s : State} (h : s.xm.wf = true) (a : LinkAccess) : Passing s (s.access a) := by
  unfold State.access
  split
  · split
    · exact passing_withLink h _ rfl
    · exact Passing.rfl' h
  · cases a with
    | wctlWrite w =>
      simp only [State.takeAccess, State.writeWctl]
      split
      · exact passing_raise h _
      · exact passing_withLink h _ rfl
    | wadrWrite w => exact passing_withLink h _ rfl
    | wdatRead => exact passing_withLink h _ rfl
    | wdatWrite w => exact passing_writeWdat h w
    | causeWrite w => exact passing_withLink h _ rfl
    | stripWrite w =>
      simp only [State.takeAccess, State.writeStrip]
      split
      · exact passing_handOver h _
      · exact passing_withdraw h _
      · exact passing_raise h _

/-- The accesses at one place of a pass. -/
theorem passing_accessesAt (mid : List MidAccess) (place : Nat) {s : State} (h : s.xm.wf = true) :
    Passing s (s.accessesAt mid place) := by
  unfold State.accessesAt
  generalize mid.filter (fun m => m.place == place) = l
  induction l generalizing s with
  | nil => exact Passing.rfl' h
  | cons m l ih => exact (passing_access h m.access).trans (ih (passing_access h m.access).wf)

/-- Without accesses nothing happens at any place. -/
@[simp] theorem State.accessesAt_nil (place : Nat) (s : State) : s.accessesAt [] place = s := rfl

/-- The writes of a pass from a word of the report block on (R172): these words, whatever accesses land between
them, and beside them nothing of the report block, of the number of the pass and of any unit outside the exchange. -/
theorem writePass_spec (mid : List MidAccess) (ws : List Word) (n : Nat) {s : State} (h : s.xm.wf = true)
    (inside : n + ws.length ≤ 64) :
    (State.writePass mid n ws s).xm.wf = true ∧ onlyExchange s (State.writePass mid n ws s) ∧
      (State.writePass mid n ws s).link.refreshSeq = s.link.refreshSeq ∧
      (∀ i w, ws[i]? = some w → (State.writePass mid n ws s).readXm (n + i) = w) ∧
      ∀ a, a < n → (State.writePass mid n ws s).readXm a = s.readXm a := by
  induction ws generalizing n s with
  | nil => exact ⟨h, by simp [State.writePass, onlyExchange_iff], rfl, by simp, fun _ _ => rfl⟩
  | cons w ws ih =>
    simp only [List.length_cons] at inside
    have w0 : (s.writeXm n w).xm.wf = true := State.writeXm_wf h n w
    have p := passing_accessesAt mid (n + 1) w0
    have r := ih (n + 1) p.wf (by omega)
    simp only [State.writePass]
    have o : onlyExchange s (s.writeXm n w) := by simp [onlyExchange_iff]
    refine ⟨r.1, ?_, r.2.2.1.trans p.seq, ?_, ?_⟩
    · have h1 := (onlyExchange_iff _ _).1 o
      have h2 := (onlyExchange_iff _ _).1 p.others
      have h3 := (onlyExchange_iff _ _).1 r.2.1
      simp_all [onlyExchange_iff]
    · intro i v hv
      cases i with
      | zero =>
        simp only [List.getElem?_cons_zero, Option.some.injEq] at hv
        subst hv
        show (State.writePass _ _ _ _).readXm n = w
        rw [r.2.2.2.2 n (by omega), p.block n (by omega), State.readXm_writeXm h (by omega)]
        simp
      | succ i =>
        rw [show n + (i + 1) = n + 1 + i by omega]
        exact r.2.2.2.1 i v (by simpa using hv)
    · intro a ha
      rw [r.2.2.2.2 a (by omega), p.block a (by omega)]
      exact State.readXm_writeXm_ne h (by omega) w

/-- Without accesses a pass writes its words and nothing else. -/
theorem writePass_nil (ws : List Word) (n : Nat) (s : State) : State.writePass [] n ws s = s.writeWords n ws := by
  induction ws generalizing n s with
  | nil => rfl
  | cons w ws ih => exact ih (n + 1) (s.writeXm n w)

end Sys2Proof.Machine
end

