-- ==== Sys2Proof/Laws/Rounds.lean ====
section
/-! SUPPORT. Rounds over the records of a unit: what a round leaves of one record is what that record's own turn
leaves of it, in whatever order the records are taken. -/

namespace Sys2Proof.Machine

/-! ## One element of a vector -/

/-- The element that was put. -/
@[simp] theorem getElem_putAt_self {α : Type} {n : Nat} (v : Vector α n) (i : Fin n) (x : α) :
    (putAt v i x)[i.val]'i.isLt = x := by
  simp [putAt]

/-- Every other element. -/
theorem getElem_putAt_ne {α : Type} {n : Nat} (v : Vector α n) (i j : Fin n) (x : α) (h : j ≠ i) :
    (putAt v i x)[j.val]'j.isLt = v[j.val]'j.isLt := by
  have : i.val ≠ j.val := fun e => h (Fin.ext e.symm)
  simp [putAt, this]

/-- An element after one element was put. -/
theorem getElem_putAt {α : Type} {n : Nat} (v : Vector α n) (i j : Fin n) (x : α) :
    (putAt v i x)[j.val]'j.isLt = if j = i then x else v[j.val]'j.isLt := by
  by_cases h : j = i
  · subst h; simp
  · rw [getElem_putAt_ne v i j x h, if_neg h]

/-- Putting what stands there changes nothing. -/
@[simp] theorem putAt_self {α : Type} {n : Nat} (v : Vector α n) (i : Fin n) : putAt v i (v[i.val]'i.isLt) = v := by
  apply Vector.ext
  intro j hj
  have := getElem_putAt v i ⟨j, hj⟩ (v[i.val]'i.isLt)
  simp only at this
  rw [this]
  split
  · rename_i h; subst h; rfl
  · rfl

/-- Of two elements put at one place the later stands. -/
@[simp] theorem putAt_putAt {α : Type} {n : Nat} (v : Vector α n) (i : Fin n) (x y : α) :
    putAt (putAt v i x) i y = putAt v i y := by
  apply Vector.ext
  intro j hj
  have h1 := getElem_putAt (putAt v i x) i ⟨j, hj⟩ y
  have h2 := getElem_putAt v i ⟨j, hj⟩ x
  have h3 := getElem_putAt v i ⟨j, hj⟩ y
  simp only at h1 h2 h3
  rw [h1, h2, h3]
  split <;> rfl

/-! ## Orders of a round -/

/-- `addNew` holds what either list holds. -/
theorem mem_addNew {α : Type} [DecidableEq α] (seen l : List α) (a : α) : a ∈ addNew seen l ↔ a ∈ seen ∨ a ∈ l := by
  induction l generalizing seen with
  | nil => simp [addNew]
  | cons x l ih =>
    simp only [addNew]
    split
    · rename_i h; rw [ih]; constructor
      · rintro (h1 | h1) <;> simp [h1]
      · rintro (h1 | h1)
        · exact .inl h1
        · rcases List.mem_cons.1 h1 with h2 | h2
          · subst h2; exact .inl h
          · exact .inr h2
    · rw [ih]; simp [or_assoc]

/-- `addNew` keeps a list without repeats. -/
theorem nodup_addNew {α : Type} [DecidableEq α] (seen l : List α) (h : seen.Nodup) : (addNew seen l).Nodup := by
  induction l generalizing seen with
  | nil => exact h
  | cons x l ih =>
    simp only [addNew]
    split
    · exact ih _ h
    · rename_i hx
      apply ih
      rw [List.nodup_append]
      refine ⟨h, by simp, ?_⟩
      intro a ha b hb
      simp only [List.mem_singleton] at hb
      subst hb
      intro e; subst e; exact hx ha

/-- A round takes every element of `all`, and each once. -/
theorem fullOrder_complete {α : Type} [DecidableEq α] (named all : List α) (a : α) (h : a ∈ all) :
    a ∈ fullOrder named all := by
  rw [fullOrder, mem_addNew]; exact .inr h

/-- A round takes no element twice. -/
theorem fullOrder_nodup {α : Type} [DecidableEq α] (named all : List α) : (fullOrder named all).Nodup :=
  nodup_addNew _ _ (nodup_addNew _ _ List.nodup_nil)

/-- Every channel is listed. -/
theorem mem_allChannels (c : Fin 8) : c ∈ allChannels := by revert c; decide
/-- Every lamp is listed. -/
theorem mem_allLamps (n : Fin 40) : n ∈ allLamps := by revert n; decide
/-- Every slot is listed. -/
theorem mem_allSlots (i : Fin 64) : i ∈ allSlots := by revert i; decide
/-- No channel is listed twice. -/
theorem nodup_allChannels : allChannels.Nodup := by decide
/-- No lamp is listed twice. -/
theorem nodup_allLamps : allLamps.Nodup := by decide
/-- No slot is listed twice. -/
theorem nodup_allSlots : allSlots.Nodup := by decide

/-! ## A round, record by record -/

/-- What a round leaves of record `c`, where the turn of a record touches no other record and reads, beside its
own record, only what no turn changes (`key`). -/
theorem foldl_pointwise {σ ι β κ : Type} [DecidableEq ι] (f : σ → ι → σ) (get : σ → ι → β) (key : σ → κ)
    (keeps : ∀ s d, key (f s d) = key s) (apart : ∀ s c d, c ≠ d → get (f s d) c = get s c)
    (own : ∀ s s' c, key s = key s' → get s c = get s' c → get (f s c) c = get (f s' c) c)
    (l : List ι) (hl : l.Nodup) (s : σ) (c : ι) :
    get (l.foldl f s) c = if c ∈ l then get (f s c) c else get s c := by
  induction l generalizing s with
  | nil => simp
  | cons d l ih =>
    rw [List.nodup_cons] at hl
    rw [List.foldl_cons, ih hl.2]
    by_cases hcd : c = d
    · subst hcd; rw [if_neg hl.1]; simp
    · rw [apart s c d hcd]
      by_cases hcl : c ∈ l
      · rw [if_pos hcl, if_pos (by simp [hcl])]
        exact own _ _ c (keeps s d) (apart s c d hcd)
      · rw [if_neg hcl, if_neg (by simp [hcd, hcl])]

end Sys2Proof.Machine
end

