-- ==== Sys2Proof/WellFormed.lean ====
section
/-! DEFINITION. Which commands name things that exist. The operands that a type already bounds (a lamp, a
channel, a slot, a key) need no check here. A command that fails a check still has a meaning in the machine;
the parts of its operands that name nothing are passed over. -/

namespace Sys2Proof

/-- Record places are numbered 0 to 127 (R60). -/
def Instr.placesExist (ps : List Nat) : Bool := ps.all (· < 128)

/-- Places inside an intake scan: two for each of the 64 slots (log 13). -/
def Instr.insideScan (ms : List MidAccess) : Bool := ms.all (·.place < 128)

/-- Places inside a report pass: after at least one and before all of the 64 words (R172). -/
def Instr.insidePass (ms : List MidAccess) : Bool := ms.all fun m => 0 < m.place && m.place < 64

/-- The STRIP write of a HAND OVER row carries any request but WITHDRAW, that of a WITHDRAW row the request
WITHDRAW (codes of 11_formats.md). -/
def Instr.requestsWithdraw (w : Word) : Bool := w.toNat % 4 == 2

/-- A row may name each channel or lamp at most once. -/
def Instr.noRepeats {n : Nat} : List (Fin n) → Bool
  | [] => true
  | x :: xs => !xs.contains x && Instr.noRepeats xs

/-- The command is one that a sender can mean. -/
def Instr.wellFormed : Instr → Bool
  | .powerOnReset ps _ => Instr.placesExist ps
  | .hardReset ps _ => Instr.placesExist ps
  | .handOver w => !Instr.requestsWithdraw w
  | .withdraw w => Instr.requestsWithdraw w
  | .intakeScan ms => Instr.insideScan ms
  | .gaugeUpdate order => Instr.noRepeats order
  | .lampEvaluation order _ => Instr.noRepeats order
  | .shownTimeExpired code _ arg => decide (1 ≤ code ∧ code ≤ 255 ∧ arg ≤ 65535)
  | .reportRefresh ms => Instr.insidePass ms
  | .initialEnd ms => Instr.insidePass ms
  | .resetCauseEnd | .wctlWrite _ | .wadrWrite _ | .wdatRead | .wdatWrite _ | .causeWrite _ => true
  | .registerWriteOther _ _ => true
  | .endOrder | .loadTable | .slotsTableAdoption | .gaugeTableAdoption | .lampTableAdoption => true
  | .panelTableAdoption | .glyphTableAdoption | .rulesTableAdoption | .start | .setAttentionMask => true
  | .copyOut | .copyOutSnapshot | .setTime | .cardIn | .cardOut | .activity | .setKFactor | .setOdometer => true
  | .lockCalibration | .resetTrip | .postMessage | .clearMessage | .ackMessage | .selectPage | .takeKeys => true
  | .testLamps | .sectorEraseDone | .commitVerifyDone _ | .calibrationWriteDone _ | .restoreDone _ => true
  | .speedEdge _ | .speedWindow _ | .movingSet | .slotStale _ | .heartbeatLost | .homingEnd _ => true
  | .holdTimeExpired _ | .overcurrent _ | .shortWaitEnd _ | .bulbCheckOver | .lampTestEnd | .flashEdge => true
  | .singleEnd | .clickEnd | .minuteDue | .stackTick | .panelRefresh | .keyInput _ _ | .acceptedPress _ => true
  | .acceptedRelease _ _ | .longKeyEvent _ _ | .ignInput _ | .ignitionOnEvent | .ignitionOffEvent => true
  | .continuousToneEdge => true

end Sys2Proof
end

