-- ==== Sys2Proof/Tests/Slice0.lean ====
section
/-! SUPPORT. Tests: ill-formed commands, a witness for the hypotheses of every statement with what the command
then does there, and a few worked cases of the spec. -/

namespace Sys2Proof.Tests

open Sys2Proof Sys2Proof.Machine

/- The tests are checked one after another: checked side by side they hold a thread each, and memory with it. -/
set_option Elab.async false

/-! ## WellFormed: each check refuses something -/

theorem test_place_beyond_127_ill_formed : Instr.wellFormed (.powerOnReset [128] false) = false := by decide
theorem test_hard_reset_place_ill_formed : Instr.wellFormed (.hardReset [3, 200] false) = false := by decide
theorem test_hand_over_of_withdraw_ill_formed : Instr.wellFormed (.handOver 0x0012) = false := by decide
theorem test_withdraw_of_hand_over_ill_formed : Instr.wellFormed (.withdraw 0x0011) = false := by decide
theorem test_access_outside_scan_ill_formed :
    Instr.wellFormed (.intakeScan [⟨128, .wdatRead⟩]) = false := by decide
theorem test_channel_twice_ill_formed : Instr.wellFormed (.gaugeUpdate [1, 1]) = false := by decide
theorem test_lamp_twice_ill_formed : Instr.wellFormed (.lampEvaluation [7, 2, 7] []) = false := by decide
theorem test_code_zero_ill_formed : Instr.wellFormed (.shownTimeExpired 0 .link 0) = false := by decide
theorem test_code_256_ill_formed : Instr.wellFormed (.shownTimeExpired 256 .link 0) = false := by decide
theorem test_argument_too_long_ill_formed : Instr.wellFormed (.shownTimeExpired 1 .link 65536) = false := by decide
theorem test_access_before_pass_ill_formed :
    Instr.wellFormed (.reportRefresh [⟨0, .wdatRead⟩]) = false := by decide
theorem test_access_behind_pass_ill_formed :
    Instr.wellFormed (.reportRefresh [⟨64, .wdatRead⟩]) = false := by decide
theorem test_access_outside_first_pass_ill_formed :
    Instr.wellFormed (.initialEnd [⟨0, .wdatRead⟩]) = false ∧
      Instr.wellFormed (.initialEnd [⟨64, .wdatRead⟩]) = false := by decide
theorem test_well_formed_commands :
    Instr.wellFormed (.powerOnReset [0, 127] true) = true ∧ Instr.wellFormed (.handOver 0x0011) = true ∧
      Instr.wellFormed (.withdraw 0x0012) = true ∧ Instr.wellFormed (.intakeScan [⟨127, .wdatRead⟩]) = true ∧
      Instr.wellFormed (.gaugeUpdate [7, 0]) = true ∧ Instr.wellFormed (.lampEvaluation [39, 0] [1, 1]) = true ∧
      Instr.wellFormed (.shownTimeExpired 255 .system 65535) = true ∧
      Instr.wellFormed (.reportRefresh [⟨63, .causeWrite 1⟩]) = true ∧
      Instr.wellFormed (.initialEnd [⟨1, .stripWrite 0x0011⟩]) = true := by decide

/-! ## Helpers -/

/-- The reset state in a mode. -/
def inMode (m : DeviceMode) : State := State.reset.withMode { State.reset.mode with mode := m }

/-- Words from an address on, in canonical form. -/
def words : Nat → List Nat → Memory
  | _, [] => []
  | a, w :: ws => if w = 0 then words (a + 1) ws else (a, BitVec.ofNat 16 w) :: words (a + 1) ws

/-- Strip 1 runs an order that stands at its first position, in a mode; END follows. -/
def strip (m : DeviceMode) (ws : List Nat) : State :=
  ((inMode m).withXm (words 0x101 (ws ++ [0xFFFF]))).withEngine ⟨.running, .free, 1, 0, none⟩

/-- The state after a command. -/
def ask (c : Instr) (s : State) : State :=
  match exec c s with
  | .next t => t
  | .fault _ => s
  | .refused _ => s

/-- The result word of an order with `n` arguments at the first position of strip 1. -/
def result (t : State) (n : Nat) : Word := t.readXm (0x102 + n)

/-- A message is held active with a severity. -/
def kept (t : State) (id : Identity) (sev : Severity) : Bool :=
  (t.stack.find id).any fun e => e.active && e.severity == sev

/-- The strip went on behind the order with `n` arguments. -/
def wentOn (t : State) (n : Nat) : Bool :=
  t.engine.position == n + 3 && t.engine.executed == 1 && t.engine.hold.isNone

/-! ## The queue, resets -/

/-- The state after a step. -/
def stepped (s : State) : State :=
  match step s with
  | .next t => t
  | .fault _ => s
  | .refused _ => s

theorem test_StepRunsFrontCommand :
    (stepped ((inMode .running).withPending [.speedEdge 0, .movingSet])).pending = [.movingSet] ∧
      (stepped ((inMode .running).withPending [.speedEdge 0, .movingSet])).speed.pulses = 1 := by decide +kernel

theorem test_empty_queue_lets_a_millisecond_pass :
    (stepped (inMode .running)).speed.timer = 1000 ∧ (stepped (inMode .running)).panel.stamp = 1 := by decide +kernel

/-- The timers wait at their last value for the event that ends them; the ones that nothing starts stand still. -/
theorem test_time_passes :
    (((inMode .running).withLamps { Lamps.reset with phase := 248 }).elapse 5000).lamps.phase = 249 ∧
      (((inMode .running).withHours { (inMode .running).hours with minuteCount := 59997 }).elapse 5000).hours.minuteCount
        = 59999 ∧
      (((inMode .running).withMode ⟨.running, true, 97, .hard, false, none, 0⟩).elapse 5000).mode.settle = 100 ∧
      (((inMode .running).withMode ⟨.running, false, 97, .hard, false, none, 0⟩).elapse 5000).mode.settle = 97 ∧
      ((inMode .running).setDebouncer .up ⟨true, false, 28, 0, true⟩ |>.elapse 5000).panel.keyUp = ⟨true, false, 30, 0, true⟩ ∧
      ((inMode .running).setDebouncer .ok ⟨true, true, 0, 998, false⟩ |>.elapse 5000).panel.keyOk =
        ⟨true, true, 0, 1000, false⟩ ∧
      (((inMode .running).withChime ⟨.single, 598, false, false⟩).elapse 5000).chime.time = 600 ∧
      (((inMode .running).withChime ⟨.continuous, 498, true, false⟩).elapse 5000).chime.time = 499 ∧
      (((inMode .running).elapse 999).elapse 1).panel.stamp = 1 ∧ ((inMode .running).elapse 999).panel.stamp = 0 ∧
      ((inMode .running).elapse 65536000).panel.stamp = 0 ∧ (State.reset.elapse 5000).panel.stamp = 0 := by
  decide +kernel

theorem test_invariants_reach_every_premise :
    (inMode .running).xm.wf = true ∧ (strip .running [0x10]).xm.wf = true ∧
      (strip .running [0x10]).readXm 0x101 = 0x10 ∧ (strip .running [0x10]).readXm 0x102 = mark := by decide +kernel

/-- A held part with two valid records and a calibration. -/
def heldPart (k : ResetKind) : State :=
  (State.reset.withMode ⟨.initial, false, 0, k, false, some k, 0⟩).withStore
    { Store.blank with
      places := (Store.blank.places.set 3 (.valid 7 1000)).set 4 (.valid 8 1100), sector0 := some ⟨8000, true, 2⟩ }

theorem test_ResetCauseEndReadsStoreAndCalibration :
    (ask .resetCauseEnd (heldPart .powerOn)).speed.odometer = 1100 ∧
      (ask .resetCauseEnd (heldPart .powerOn)).store.nextPlace = 5 ∧
      (ask .resetCauseEnd (heldPart .powerOn)).store.nextSeq = 9 ∧
      (ask .resetCauseEnd (heldPart .powerOn)).speed.k = some 8000 ∧
      (ask .resetCauseEnd (heldPart .powerOn)).mode.held = none ∧
      (ask .resetCauseEnd (heldPart .hard)).speed.odometer = 0 ∧
      (ask .resetCauseEnd (heldPart .hard)).speed.lock = true ∧
      ask .resetCauseEnd (inMode .running) = inMode .running := by decide +kernel

/-- The next place behind a newest record in place 31 is place 32, which begins a sector, blank or not. -/
theorem test_next_place_behind_the_newest :
    (Store.nextAfter { Store.blank with places := Store.blank.places.set 32 (.valid 1 5) } 31 32) ∧
      (ask .resetCauseEnd ((heldPart .hard).withStore { Store.blank with
        places := (Store.blank.places.set 31 (.valid 7 1000)).set 32 (.valid 1 5) })).store.nextPlace = 32 ∧
      (ask .resetCauseEnd ((heldPart .hard).withStore { Store.blank with
        places := (Store.blank.places.set 3 (.valid 7 1000)).set 4 .spoiled })).store.nextPlace = 5 := by
  refine ⟨⟨1, by decide, by decide, rfl, Or.inl rfl, fun i h h' => absurd h' (by omega)⟩, ?_⟩
  decide +kernel

/-- A reset cuts a commit's erase, its write, and a calibration write (R63, R66). -/
theorem test_resets_cut_store_operations :
    (ask (.hardReset [33, 40] false) ((inMode .running).withStore { Store.blank with
        op := some (.commit true none 0 0), nextPlace := 32 })).store.places[33] = .spoiled ∧
      (ask (.hardReset [33, 40] false) ((inMode .running).withStore { Store.blank with
        op := some (.commit true none 0 0), nextPlace := 64 })).store.places[33] = .blank ∧
      (ask (.powerOnReset [] true) ((inMode .running).withStore { Store.blank with
        op := some (.commit false none 5 0), nextPlace := 64 })).store.places[64] = .spoiled ∧
      (ask (.powerOnReset [] true) ((inMode .running).withStore { Store.blank with
        op := some (.calibration .write .setK ⟨8000, false, 0⟩) })).store.sector0 = some ⟨8000, false, 0⟩ ∧
      (ask (.hardReset [] false) ((inMode .running).withStore { Store.blank with
        op := some (.calibration .write .setK ⟨8000, false, 0⟩), sector0 := none })).store.sector0 = none := by
  decide +kernel

/-- The minute count runs on while a HARD reset is held and stands still while a POWER-ON reset is (R155, log 41). -/
theorem test_minute_count_of_a_held_part :
    ((heldPart .hard).elapse 5000).hours.minuteCount = 5 ∧
      ((heldPart .powerOn).elapse 5000).hours.minuteCount = 0 := by decide +kernel

theorem test_resets_and_their_kind :
    (ask (.hardReset [] false) (inMode .running)).mode.kind = .hard ∧
      (ask (.hardReset [] false) State.reset).mode.kind = .powerOn ∧
      (ask (.powerOnReset [] false) (heldPart .hard)).mode.kind = .powerOn ∧
      (ask (.powerOnReset [] false) (heldPart .hard)).mode.held = some .powerOn ∧
      (ask (.hardReset [] false) (heldPart .powerOn)).mode.held = some .powerOn := by decide +kernel

/-- The part 20 ms after the cause of its reset has ended. -/
def leaving : State := State.reset.withMode { State.reset.mode with initialMs := 20 }

theorem test_InitialEndBecomesUnconfigured :
    leaving.mode.mode = .initial ∧ leaving.mode.held = none ∧ leaving.stack.withinCapacity ∧
      leaving.xm.wf = true ∧ ask .initialEnd State.reset = State.reset ∧
      (State.reset.elapse 20000).mode.initialMs = 20 ∧ ((heldPart .hard).elapse 20000).mode.initialMs = 0 ∧
      (ask .initialEnd leaving).mode.mode = .unconfigured ∧ (ask .initialEnd leaving).readXm 0 = 1 ∧
      (ask .initialEnd leaving).readXm 63 = 1 ∧ (ask .initialEnd leaving).readXm 1 = 1 ∧
      (ask .initialEnd leaving).readXm 47 = 2 ∧ (ask .initialEnd leaving).link.refreshSeq = 1 ∧
      kept (ask .initialEnd leaving) msgCalibrationMissing .amber = true ∧
      (ask .initialEnd leaving).panel.image.length = 40 ∧ (ask .initialEnd leaving).attention = true ∧
      pends (ask .initialEnd leaving) .modeChange := by
  unfold Stack.withinCapacity
  refine ⟨?_, ?_, ?_, ?_⟩ <;> decide +kernel

/-- Accesses land inside the first pass: a HAND OVER after word 0, and a read of word 63 before that is written. -/
theorem test_access_inside_first_pass :
    (ask (.initialEnd [⟨1, .stripWrite 0x0011⟩]) leaving).engine.strip1 = .running ∧
      (ask (.initialEnd [⟨1, .stripWrite 0x0011⟩]) leaving).readXm 2 = 0 ∧
      (ask (.initialEnd [⟨1, .stripWrite 0x0011⟩]) leaving).readXm 63 = 1 ∧
      (ask (.initialEnd [⟨40, .wdatRead⟩]) (leaving.withLink { Link.reset with addr := 1 })).link.data = 1 ∧
      (ask (.initialEnd [⟨40, .wdatRead⟩]) (leaving.withLink { Link.reset with addr := 63 })).link.data = 0 := by
  decide +kernel

/-! ## Link and strips -/

/-- The window at an address. -/
def window (space step addr : Nat) : State :=
  (inMode .unconfigured).withLink { Link.reset with space := space, step := step, addr := addr }

theorem test_RegisterWritesTakeTheirFields :
    (ask (.wctlWrite 0x0011) (window 0 0 100)).link = { Link.reset with space := 1, step := 1, addr := 4 } ∧
      (ask (.wctlWrite 0x0002) (window 0 0 100)).link = { (window 0 0 100).link with causes := 0x0011 } ∧
      (ask (.wctlWrite 0x0030) (window 0 0 100)).link = { (window 0 0 100).link with causes := 0x0011 } ∧
      (ask (.wctlWrite 0x0020) (window 0 0 4095)).link.addr = 4095 ∧
      (ask (.wadrWrite 0xFFFF) (window 0 1 0)).link.addr = 4095 ∧
      (ask (.wadrWrite 0x0025) (window 1 1 0)).link.addr = 5 ∧
      (ask (.causeWrite 0x0001) (window 0 0 0)).link.causes = 0 := by decide +kernel

theorem test_WindowReadReturnsWordAndAdvances :
    (ask .wdatRead ((window 0 1 4095).withXm [(4095, 7)])).link = { (window 0 1 0).link with data := 7 } ∧
      (ask .wdatRead (window 1 1 0)).link.data = 0x2440 ∧ (ask .wdatRead (window 1 1 31)).link.addr = 0 ∧
      (ask .wdatRead (window 1 0 4)).link.data = 0 ∧ (ask .wdatRead (window 1 0 26)).link.data = 0 := by
  decide +kernel

/-- The identification space at an address, with a table loaded and a load report. -/
def identified (addr : Nat) : Word :=
  (ask .wdatRead ((window 1 0 addr).withTables { Tables.reset with
    dir := { Tables.reset.dir with glyph := ⟨true, 224, 0x1234⟩ }, report := ⟨5, 3, 4, 9⟩ })).link.data

theorem test_identification_words :
    identified 1 = 1 ∧ identified 3 = 0 ∧ identified 16 = 1 ∧ identified 17 = 224 ∧ identified 18 = 0x1234 ∧
      identified 22 = 5 ∧ identified 23 = 3 ∧ identified 24 = 4 ∧ identified 25 = 9 ∧ identified 31 = 0 := by
  decide +kernel

theorem test_WindowWriteStoresOrIsRefused :
    (ask (.wdatWrite 5) (window 0 1 0x40)).readXm 0x40 = 5 ∧ (ask (.wdatWrite 5) (window 0 1 0x40)).link.addr = 0x41 ∧
      (ask (.wdatWrite 5) (window 0 1 0x3F)).xm = [] ∧
      (ask (.wdatWrite 5) (window 0 1 0x3F)).link.causes = 0x0011 ∧
      (ask (.wdatWrite 5) (window 1 1 5)).link.causes = 0x0011 ∧
      (ask (.wdatWrite 5) ((window 0 0 0x2FF).withEngine ⟨.running, .free, 1, 0, none⟩)).link.causes = 0x0011 ∧
      (ask (.wdatWrite 5) ((window 0 0 0x300).withEngine ⟨.running, .free, 1, 0, none⟩)).readXm 0x300 = 5 ∧
      (ask (.wdatWrite 5) ((window 0 0 0x4FF).withEngine ⟨.running, .queued, 1, 0, none⟩)).link.causes = 0x0011 := by
  decide +kernel

theorem test_IgnoredLinkTransactionsChangeNothing :
    State.reset.mode.mode = .initial ∧ ask (.wdatWrite 5) State.reset = State.reset ∧
      ask (.registerWriteOther 9 5) (window 0 1 7) = window 0 1 7 := by decide +kernel

theorem test_HandOverStartsQueuesOrRefuses :
    (ask (.handOver 0x0011) (inMode .running)).engine.strip1 = .running ∧
      (ask (.handOver 0x0021) (strip .running [0x10])).engine.strip2 = .queued ∧
      (ask (.handOver 0x0011) (strip .running [0x10])).link.causes = 0x0009 ∧
      (ask (.handOver 0x0031) (inMode .running)).link.causes = 0x0009 ∧
      (ask (.handOver 0x0013) (inMode .running)).link.causes = 0x0009 := by decide +kernel

/-- RESET TRIP at the end of strip 2 with the words behind it, strip 2 RUNNING at a position. -/
def tripAt (p : Nat) (behind : List Nat) : State :=
  ((inMode .running).withXm (words (0x300 + p) ([0x33, 0, 0xFFFF] ++ behind))).withEngine ⟨.free, .running, p, 7, none⟩

theorem test_FaultyOrderReturnsStrip :
    due (tripAt 20 [0x99]) .two .resetTrip ∧ (ask .resetTrip (tripAt 20 [0x99])).readXm 0x300 = 0x3017 ∧
      (ask .resetTrip (tripAt 20 [0x33, 0, 5])).readXm 0x300 = 0x2017 ∧
      due (tripAt 509 []) .two .resetTrip ∧ (ask .resetTrip (tripAt 509 [])).readXm 0x300 = 0x4008 ∧
      (ask .resetTrip (tripAt 507 [0x33])).readXm 0x300 = 0x4008 ∧
      (ask .resetTrip (tripAt 507 [0x33])).link.causes = 0x0005 ∧
      (ask .resetTrip (tripAt 506 [0x10, 0xFFFF])).engine = ⟨.free, .running, 509, 8, none⟩ ∧
      (ask (.handOver 0x0021) ((inMode .running).withXm (words 0x301 [0x99]))).readXm 0x300 = 0x3001 := by
  decide +kernel

theorem test_faulty_first_order_returns_strip :
    (ask (.handOver 0x0011) ((inMode .running).withXm (words 0x101 [0x99]))).readXm 0x100 = 0x3001 ∧
      (ask (.handOver 0x0011) ((inMode .running).withXm (words 0x101 [0x33, 0, 5]))).readXm 0x100 = 0x2001 ∧
      (ask (.handOver 0x0011) ((inMode .running).withXm (words 0x101 [0x33, 0, 5]))).link.causes = 0x0003 ∧
      (ask (.handOver 0x0011) ((inMode .running).withXm (words 0x101 [0x33, 0, 5]))).engine.strip1 = .free := by
  decide +kernel

theorem test_WithdrawFreesQueuedStrip :
    (ask (.withdraw 0x0022) ((strip .running [0x10]).withEngine ⟨.running, .queued, 1, 0, none⟩)).readXm 0x300 = 0x5000 ∧
      (ask (.withdraw 0x0012) (strip .running [0x10])).link.causes = 0x0009 ∧
      (ask (.withdraw 0x0002) (strip .running [0x10])).link.causes = 0x0009 ∧
      (ask (.withdraw 0x0032) (strip .running [0x10])).link.causes = 0x0009 := by decide +kernel

/-- Strip 1 stands at END after three orders, strip 2 free or queued. -/
def atEnd (other : StripState) : State := (inMode .running).withEngine ⟨.running, other, 5, 3, none⟩

theorem test_EndReturnsStripWithCount :
    (atEnd .free).engine.running = some .one ∧ (atEnd .free).stripWord .one 5 = 0 ∧
      (ask .endOrder (atEnd .free)).readXm 0x100 = 0x1003 ∧ (ask .endOrder (atEnd .free)).link.causes = 0x0003 ∧
      (ask .endOrder (atEnd .queued)).engine = ⟨.free, .running, 1, 0, none⟩ ∧
      (ask .endOrder ((atEnd .queued).withXm (words 0x301 [0x10, 0xFFFF]))).engine = ⟨.free, .running, 1, 0, none⟩ := by
  decide +kernel

theorem test_first_words_go_on :
    (atEnd .queued).runsAt .two 1 ∧ ((inMode .running).withXm (words 0x301 [0x10, 0xFFFF])).runsAt .two 1 ∧
      (ask (.handOver 0x0021) ((inMode .running).withXm (words 0x301 [0x10, 0xFFFF]))).engine =
        ⟨.free, .running, 1, 0, none⟩ := by
  refine ⟨⟨by decide, Or.inl (by decide +kernel)⟩,
    ⟨by decide, Or.inr ⟨.start, by decide +kernel, by decide, by decide +kernel⟩⟩, ?_⟩
  decide +kernel

/-! ## Orders that end at once -/

theorem test_SetAttentionMaskTakesMaskOrIsRefused :
    due (strip .running [0x11, 0x3FFF]) .one .setAttentionMask ∧ due (strip .running [0x11, 0x4000]) .one .setAttentionMask ∧
      (ask .setAttentionMask (strip .running [0x11, 0x3FFE])).link.mask = 0x3FFE ∧
      (ask .setAttentionMask (strip .running [0x11, 0x3FFE])).attention = false ∧
      result (ask .setAttentionMask (strip .running [0x11, 0x4000])) 1 = 0x0200 ∧
      wentOn (ask .setAttentionMask (strip .running [0x11, 0x4000])) 1 = true := by decide +kernel

/-- A part with trips and a calibration, one edge before a unit. -/
def driven (s : State) : State :=
  s.withSpeed { s.speed with k := some 2000, acc := 1900, tripA := 9999999, tripB := 5, odometer := 70 }

theorem test_ResetTripClearsTheChosenTrip :
    due (driven (strip .running [0x33, 0])) .one .resetTrip ∧ due (driven (strip .running [0x33, 1])) .one .resetTrip ∧
      due (driven (strip .running [0x33, 2])) .one .resetTrip ∧
      (ask .resetTrip (driven (strip .running [0x33, 0]))).speed.tripA = 0 ∧
      (ask .resetTrip (driven (strip .running [0x33, 1]))).speed.tripB = 0 ∧
      result (ask .resetTrip (driven (strip .running [0x33, 2]))) 1 = 0x0200 ∧
      ((driven (inMode .running)).elapse 0).speed.tooSoon = false ∧
      (ask (.speedEdge 0) (ask .resetTrip (driven (strip .running [0x33, 1])))).speed.tripB = 1 := by decide +kernel

/-- Two entries in the key queue. -/
def keysWaiting (s : State) : State := s.withPanel { s.panel with queue := [⟨.down, true, 300⟩, ⟨.ok, false, 301⟩] }

theorem test_SelectPageAndTakeKeysAct :
    due (strip .running [0x50, 0]) .one .selectPage ∧ due (strip .running [0x50, 1]) .one .selectPage ∧
      result (ask .selectPage (strip .running [0x50, 0])) 1 = 0 ∧
      result (ask .selectPage (strip .running [0x50, 1])) 1 = 0x0200 ∧
      due (keysWaiting (strip .running [0x51, 0x500, 1])) .one .takeKeys ∧
      result (ask .takeKeys (keysWaiting (strip .running [0x51, 0x500, 1]))) 2 = 1 ∧
      (ask .takeKeys (keysWaiting (strip .running [0x51, 0x500, 1]))).readXm 0x500 = 0x12 ∧
      (ask .takeKeys (keysWaiting (strip .running [0x51, 0x500, 1]))).panel.queue.length = 1 ∧
      result (ask .takeKeys (keysWaiting (strip .running [0x51, 0xFE0, 16]))) 2 = 2 ∧
      result (ask .takeKeys (keysWaiting (strip .running [0x51, 0xFE1, 16]))) 2 = 0x0200 ∧
      result (ask .takeKeys (keysWaiting (strip .running [0x51, 0x500, 17]))) 2 = 0x0200 ∧
      result (ask .takeKeys (keysWaiting (strip .running [0x51, 0x4FF, 1]))) 2 = 0x0200 := by decide +kernel

/-! ## Tables for the tests -/

/-- A watcher that sets at 100 and releases at 50, with lamp 3. -/
def watcherAt100 : WatcherEntry := ⟨true, 100, 50, some 3, none, true⟩

/-- A channel entry: breakpoints (0, 0), (1000, 1000). -/
def channelEntry (enabled : Bool) (src : Source) : GaugeEntry :=
  ⟨enabled, src, 1000, [⟨0, 0⟩, ⟨1000, 1000⟩], 128, 40, 2, 100, 300, true, watcherAt100, watcherAt100⟩

/-- A GAUGE table: channel 0 reads slot 1, channel 1 the speed. -/
def gaugeTable : GaugeTable :=
  ((Vector.replicate 8 (channelEntry false .speed)).set 0 (channelEntry true (.slot 1))).set 1 (channelEntry true .speed)

/-- A lamp entry with a link source. -/
def lampEntryOf (used legal check : Bool) (link : Option LinkSource) (msg : Option (Nat × Severity)) : LampEntry :=
  ⟨used, .red, legal, check, true, link, .flashSlow, .on, .single, msg⟩

/-- A LAMP table: lamp 0 reads slot 2, lamp 1 is the fault tell-tale, the others are not used. -/
def lampTable : LampTable :=
  ⟨((Vector.replicate 40 (lampEntryOf false false false none none)).set 0
    (lampEntryOf true true true (some ⟨2, 0⟩) (some (9, .info)))).set 1 (lampEntryOf true false false none none), 1⟩

/-- A SLOTS table: slot 1 UNSIGNED, slot 2 LAMP_WORD, 100 ms each; the data-fault lamp is lamp 5. -/
def slotsTable : SlotsTable :=
  ⟨((Vector.replicate 64 ⟨.unused, 10⟩).set 1 ⟨.unsigned, 10⟩).set 2 ⟨.lampWord, 10⟩, 20, some 5⟩

/-- A RULES table. -/
def rulesTable : RulesTable := ⟨270, 15, 30, 45, 540, 660, 15, true, 500, 60, some 10, some 11, some 12⟩

/-- A PANEL table: a start page and a page with a trip and the index. -/
def panelTable : PanelTable :=
  ⟨[⟨List.replicate 40 0x41, .dist, false, none, []⟩, ⟨List.replicate 40 0x42, .dist, true, some .b, []⟩], some 0, true,
    0x23, [], []⟩

/-- All six tables in use. -/
def tabled (s : State) : State :=
  s.withTables { s.tables with
    gauge := some gaugeTable, lamp := some lampTable, slots := some slotsTable, panel := some panelTable,
    rules := some rulesTable }

/-- The slots as the SLOTS table types them, slot 1 GOOD with a value, slot 2 GOOD with lamp 0 demanded ON. -/
def fed (value : Word) (s : State) : State :=
  s.withIntake { s.intake with slots :=
    (s.intake.slots.set 1 ⟨.unsigned, 100, .good, 5, value, 0⟩).set 2 ⟨.lampWord, 100, .good, 5, 0x0001, 0⟩ }

/-- Channel 0 in a state at a position. -/
def pointing (st : ChannelState) (p : Nat) (s : State) : State :=
  s.setChannel 0 { Channel.reset with state := st, p := p, f := 16 * p, t := p, g := p, armed := true }

/-- Lamp 0 with a record. -/
def lamp0 (r : LampRec) (s : State) : State := s.setLamp 0 r

/-- The ignition state of a mode. -/
def ignited (on : Bool) (s : State) : State := s.withMode { s.mode with ignition := on }

theorem test_StartEntersStartingOrDormantOrIsRefused :
    due (tabled (strip .unconfigured [0x10])) .one .start ∧ due (strip .unconfigured [0x10]) .one .start ∧
      result (ask .start (strip .running [0x10])) 0 = 0x0500 ∧
      result (ask .start (strip .unconfigured [0x10])) 0 = 0x0306 ∧
      (ask .start (tabled (strip .unconfigured [0x10]))).mode.mode = .dormant ∧
      (ask .start (ignited true (tabled (strip .unconfigured [0x10])))).mode.mode = .starting ∧
      (ask .start (ignited true (tabled (strip .unconfigured [0x10])))).gauges[0].state = .homing ∧
      (ask .start (ignited true (tabled (strip .unconfigured [0x10])))).gauges[0].homing = 1060 ∧
      (ask .start (ignited true (tabled (strip .unconfigured [0x10])))).gauges[0].after = .sweep ∧
      (ask .start (ignited true (tabled (strip .unconfigured [0x10])))).gauges[2].state = .unhomed ∧
      (ask .start (ignited true (tabled (strip .unconfigured [0x10])))).lamps.bulbTimer = 3000 := by decide +kernel

/-! ## Driver hours -/

/-- The clock stands at a minute; driver slot 1 has an activity open, slot 2 a withdrawn card or an activity. -/
def crewed (minute : Nat) (a1 a2 : Option OpenActivity) (w2 : Option Nat) (s : State) : State :=
  s.withHours { s.hours with
    clockSet := true, clock := minute
    driver1 := { s.hours.driver1 with card := some 77, activity := a1 }
    driver2 := { s.hours.driver2 with card := some 88, activity := a2, withdrawal := w2 } }

/-- The minute is about to fall due. -/
def dueMinute (s : State) : State := s.withHours { s.hours with minuteCount := 59999 }

/-- Driver 1 drives since minute 100 at minute 300. -/
def driving (s : State) : State := crewed 300 (some ⟨.drive, 100⟩) none (some 200) (tabled s)

theorem test_ClockIsSetAndSteps :
    due (driving (strip .running [0x20, 0, 400])) .one .setTime ∧ due (driving (strip .running [0x20, 0, 199])) .one .setTime ∧
      (ask .setTime (driving (strip .running [0x20, 0, 400]))).hours.clock = 400 ∧
      (ask .setTime (driving (strip .running [0x20, 0, 400]))).hours.driver1.alerts.cdExceeded = true ∧
      result (ask .setTime (driving (strip .running [0x20, 0, 199]))) 2 = 0x0D00 ∧
      result (ask .setTime (driving (strip .running [0x20, 0, 200]))) 2 = 0 ∧
      (ask .minuteDue (dueMinute (driving (inMode .running)))).hours.clock = 301 ∧
      (ask .minuteDue (driving (inMode .running))).hours.clock = 300 ∧
      (ask .minuteDue (dueMinute (crewed 354 (some ⟨.drive, 100⟩) none none (tabled (inMode .running))))).hours.driver1.alerts.prewarn
        = true ∧
      pends (ask .minuteDue (dueMinute (crewed 354 (some ⟨.drive, 100⟩) none none (tabled (inMode .running))))) .hoursAlert ∧
      kept (ask .minuteDue (dueMinute (crewed 354 (some ⟨.drive, 100⟩) none none (tabled (inMode .running)))))
        (msgBreakDue 1) .amber = true ∧
      kept (ask .minuteDue (dueMinute (crewed 369 (some ⟨.drive, 100⟩) none none (tabled (inMode .running)))))
        (msgDrivingLimit 1) .red = true ∧
      (ask .minuteDue (dueMinute (driving State.reset))).hours.clock = 301 ∧
      (ask .minuteDue (dueMinute State.reset)).hours = State.reset.hours ∧
      (ask .minuteDue (dueMinute (crewed max32 none none none (inMode .running)))).hours.clock = max32 := by decide +kernel

theorem test_CardInOpensUnknownOrIsRefused :
    due (driving (strip .running [0x21, 2, 0, 88, 0, 260])) .one .cardIn ∧
      result (ask .cardIn (strip .running [0x21, 1, 0, 5, 0, 10])) 5 = 0x0800 ∧
      result (ask .cardIn (driving (strip .running [0x21, 3, 0, 5, 0, 10]))) 5 = 0x0200 ∧
      result (ask .cardIn (driving (strip .running [0x21, 1, 0, 5, 0, 310]))) 5 = 0x0A00 ∧
      result (ask .cardIn (driving (strip .running [0x21, 2, 0, 77, 0, 310]))) 5 = 0x0B00 ∧
      result (ask .cardIn (driving (strip .running [0x21, 2, 0, 88, 0, 199]))) 5 = 0x0C00 ∧
      result (ask .cardIn (driving (strip .running [0x21, 2, 0, 88, 0, 260]))) 5 = 0 ∧
      (ask .cardIn (driving (strip .running [0x21, 2, 0, 88, 0, 260]))).hours.driver2.history = [⟨.rest, 200, 60⟩] ∧
      (ask .cardIn (driving (strip .running [0x21, 2, 0, 99, 0, 310]))).hours.driver2.history = [] ∧
      (ask .cardIn (driving (strip .running [0x21, 2, 0, 99, 0, 310]))).hours.clock = 310 := by decide +kernel

theorem test_CardOutClosesActivityOrIsRefused :
    due (driving (strip .running [0x22, 1, 0, 290])) .one .cardOut ∧
      result (ask .cardOut (strip .running [0x22, 1, 0, 290])) 3 = 0x0800 ∧
      result (ask .cardOut (driving (strip .running [0x22, 0, 0, 290]))) 3 = 0x0200 ∧
      result (ask .cardOut (driving (strip .running [0x22, 2, 0, 290]))) 3 = 0x0900 ∧
      result (ask .cardOut (driving (strip .running [0x22, 1, 0, 99]))) 3 = 0x0C00 ∧
      (ask .cardOut (driving (strip .running [0x22, 1, 0, 290]))).hours.driver1.cd = 190 ∧
      (ask .cardOut (driving (strip .running [0x22, 1, 0, 290]))).hours.driver1.withdrawal = some 290 ∧
      (ask .cardOut (driving (strip .running [0x22, 1, 0, 100]))).hours.driver1.history = [] := by decide +kernel

/-- Both driver slots hold a card, slot 1 drives since 100 and slot 2 rests since 120. -/
def crew (s : State) : State := crewed 300 (some ⟨.drive, 100⟩) (some ⟨.rest, 120⟩) none (tabled s)

theorem test_ActivityChangesSwapsOrIsRefused :
    due (crew (strip .running [0x23, 1, 3, 0, 300])) .one .activity ∧
      result (ask .activity (strip .running [0x23, 1, 3, 0, 300])) 4 = 0x0800 ∧
      result (ask .activity (crew (strip .running [0x23, 1, 4, 0, 300]))) 4 = 0x0200 ∧
      result (ask .activity (driving (strip .running [0x23, 2, 3, 0, 300]))) 4 = 0x0900 ∧
      result (ask .activity (crew (strip .running [0x23, 1, 3, 0, 99]))) 4 = 0x0C00 ∧
      result (ask .activity (crew (strip .running [0x23, 1, 0, 0, 300]))) 4 = 0 ∧
      (ask .activity (crew (strip .running [0x23, 1, 3, 0, 300]))).hours.driver1.activity = some ⟨.rest, 300⟩ ∧
      (ask .activity (crew (strip .running [0x23, 1, 3, 0, 300]))).hours.driver1.dd = 200 ∧
      result (ask .activity (crew (strip .running [0x23, 2, 0, 0, 300]))) 4 = 0x0100 ∧
      (ask .activity (crew (strip .running [0x23, 2, 0, 0, 300]))).hours.driver1.activity = some ⟨.available, 300⟩ ∧
      (ask .activity (crew (strip .running [0x23, 2, 0, 0, 300]))).hours.driver2.history = [⟨.rest, 120, 180⟩] ∧
      result (ask .activity (crewed 300 (some ⟨.drive, 200⟩) (some ⟨.rest, 120⟩) none (strip .running [0x23, 2, 0, 0, 199]))) 4 =
        0x0C00 := by decide +kernel

/-- A closed REST of exactly BREAK_FULL, of SPLIT_FIRST, and the second part of a split break (R109). -/
theorem test_closed_rest_boundaries :
    (Driver.rested { Driver.reset with cd := 9, dd := 9 } (some rulesTable) 45).cd = 0 ∧
      (Driver.rested { Driver.reset with cd := 9, dd := 9 } (some rulesTable) 15).firstTaken = true ∧
      (Driver.rested { Driver.reset with cd := 9, dd := 9, firstTaken := true } (some rulesTable) 30).cd = 0 ∧
      (Driver.rested { Driver.reset with cd := 9, dd := 9, firstTaken := true } (some rulesTable) 29).firstTaken = true ∧
      (Driver.rested { Driver.reset with cd := 9, dd := 9 } (some rulesTable) 660).dd = 0 := by decide +kernel

/-! ## Messages -/

/-- An entry. -/
def entry (code : Nat) (o : Origin) (sev : Severity) (st : EntryState) (active : Bool) (n shown : Nat) : Entry :=
  ⟨⟨code, o, 0⟩, sev, st, active, n, shown⟩

/-- A stack of these entries. -/
def stacked (es : List Entry) (s : State) : State := s.withStack ⟨es, es.length, []⟩

/-- `n` active AMBER entries of LINK from code 1 on. -/
def ambers (n : Nat) : List Entry := (List.range n).map fun i => entry (i + 1) .link .amber .new true (i + 1) 0

theorem test_PostMessageAddsRenewsOrUpdates :
    due (strip .running [0x40, 20, 1, 0]) .one .postMessage ∧
      result (ask .postMessage (strip .running [0x40, 240, 1, 0])) 3 = 0x0200 ∧
      result (ask .postMessage (strip .running [0x40, 20, 3, 0])) 3 = 0x0200 ∧
      result (ask .postMessage (stacked (ambers 11) (strip .running [0x40, 20, 1, 0]))) 3 = 1 ∧
      (ask .postMessage (strip .running [0x40, 20, 0, 0])).chime.playing = .continuous ∧
      result (ask .postMessage (stacked (ambers 3) (strip .running [0x40, 2, 1, 0]))) 3 = 4 ∧
      result (ask .postMessage (stacked (ambers 3) (strip .running [0x40, 2, 0, 0]))) 3 = 3 ∧
      result (ask .postMessage (stacked [entry 2 .link .red .shown false 1 0] (strip .running [0x40, 2, 1, 0]))) 3 = 2 ∧
      (ask .postMessage (stacked [entry 2 .link .red .shown false 1 0] (strip .running [0x40, 2, 1, 0]))).stack.entries =
        [entry 2 .link .amber .new true 2 0] ∧
      (ask .postMessage ((strip .running [0x40, 20, 1, 0]).withStack ⟨ambers 2, max32, []⟩)).stack.counter = 3 := by
  decide +kernel

/-- A renewal at the counter's end gives the entry its old number back, and sets MESSAGE_CHANGE (R134). -/
theorem test_renewal_at_the_end_of_the_counter :
    ((strip .running [0x40, 2, 0, 0]).withStack ⟨[entry 2 .link .red .shown false 2 0], max32, []⟩).stack.withinCapacity ∧
      (ask .postMessage ((strip .running [0x40, 2, 0, 0]).withStack
        ⟨[entry 2 .link .red .shown false 2 0], max32, []⟩)).stack = ⟨[entry 2 .link .red .new true 2 0], 2, []⟩ ∧
      pends (ask .postMessage ((strip .running [0x40, 2, 0, 0]).withStack
        ⟨[entry 2 .link .red .shown false 2 0], max32, []⟩)) .messageChange := by
  unfold Stack.withinCapacity
  refine ⟨?_, ?_, ?_⟩ <;> decide +kernel

/-- Messages of units wait while an acknowledged entry is cleared: with room for both the RED one comes first, with
one free place it takes that place (R125). -/
theorem test_retry_of_the_pending_list :
    (⟨entry 20 .link .info .acked true 16 0 :: (ambers 15).map fun e => { e with severity := .red }, 16,
        [(⟨245, .gauge, 1⟩, .amber), (⟨240, .system, 0⟩, .red)]⟩ : Stack).withinCapacity ∧
      (ask .clearMessage ((strip .running [0x41, 20, 0]).withStack
        ⟨entry 20 .link .info .acked true 16 0 :: (ambers 15).map fun e => { e with severity := .red }, 16,
          [(⟨245, .gauge, 1⟩, .amber), (⟨240, .system, 0⟩, .red)]⟩)).stack =
        ⟨((ambers 15).map fun e => { e with severity := .red }) ++ [⟨⟨240, .system, 0⟩, .red, .new, true, 17, 0⟩], 17,
          [(⟨245, .gauge, 1⟩, .amber)]⟩ ∧
      (ask .clearMessage ((strip .running [0x41, 20, 0]).withStack
        ⟨[entry 20 .link .info .acked true 1 0], 1, [(⟨245, .gauge, 1⟩, .amber), (⟨240, .system, 0⟩, .red)]⟩)).stack =
        ⟨[⟨⟨240, .system, 0⟩, .red, .new, true, 2, 0⟩, ⟨⟨245, .gauge, 1⟩, .amber, .new, true, 3, 0⟩], 3, []⟩ ∧
      (ask .clearMessage ((strip .running [0x41, 20, 0]).withStack
        ⟨[entry 20 .link .info .acked true 1 0], 1, [(⟨245, .gauge, 1⟩, .amber), (⟨240, .system, 0⟩, .red)]⟩)).chime.playing =
        .continuous := by
  unfold Stack.withinCapacity
  refine ⟨?_, ?_, ?_, ?_⟩ <;> decide +kernel

theorem test_PostMessageEvictsOrStackFull :
    due (stacked (ambers 12) (strip .running [0x40, 20, 1, 0])) .one .postMessage ∧
      (stacked (ambers 12) (inMode .running)).stack.nonRedCount = 12 ∧
      result (ask .postMessage (stacked (ambers 12) (strip .running [0x40, 20, 1, 0]))) 3 = 0x0E00 ∧
      result (ask .postMessage (stacked (ambers 11 ++ [entry 12 .link .info .acked true 12 0])
        (strip .running [0x40, 20, 1, 0]))) 3 = 1 ∧
      ((ask .postMessage (stacked (ambers 11 ++ [entry 50 .gauge .info .acked true 12 0])
        (strip .running [0x40, 20, 1, 0]))).stack.waiting = [(⟨50, .gauge, 0⟩, .info)]) ∧
      ((ask .postMessage (stacked (entry 60 .link .amber .shown false 30 0 :: ambers 11)
        (strip .running [0x40, 20, 1, 0]))).stack.find ⟨60, .link, 0⟩) = none := by decide +kernel

/-- A held RED entry, code 30, finds no place as an AMBER one: STACK_FULL; with an acknowledged INFO entry of a unit to
evict it is lowered, or renewed where it is inactive, and the evicted message waits on. -/
theorem test_held_red_entry_needs_room :
    (stacked (ambers 12 ++ [entry 30 .link .red .new true 13 0]) (inMode .running)).stack.withinCapacity ∧
      result (ask .postMessage (stacked (ambers 12 ++ [entry 30 .link .red .new true 13 0])
        (strip .running [0x40, 30, 1, 0]))) 3 = 0x0E00 ∧
      result (ask .postMessage (stacked (ambers 11 ++ [entry 50 .gauge .info .acked true 12 0, entry 30 .link .red .new true 13 0])
        (strip .running [0x40, 30, 1, 0]))) 3 = 3 ∧
      (ask .postMessage (stacked (ambers 11 ++ [entry 50 .gauge .info .acked true 12 0, entry 30 .link .red .new true 13 0])
        (strip .running [0x40, 30, 1, 0]))).stack =
          ⟨ambers 11 ++ [entry 30 .link .amber .new true 13 0], 13, [(⟨50, .gauge, 0⟩, .info)]⟩ ∧
      result (ask .postMessage (stacked (ambers 11 ++ [entry 50 .gauge .info .acked true 12 0, entry 30 .link .red .shown false 13 0])
        (strip .running [0x40, 30, 1, 0]))) 3 = 2 ∧
      (ask .postMessage (stacked (ambers 11 ++ [entry 50 .gauge .info .acked true 12 0, entry 30 .link .red .shown false 13 0])
        (strip .running [0x40, 30, 1, 0]))).stack =
          ⟨ambers 11 ++ [entry 30 .link .amber .new true 14 0], 14, [(⟨50, .gauge, 0⟩, .info)]⟩ := by
  unfold Stack.withinCapacity
  refine ⟨?_, ?_⟩ <;> decide +kernel

/-- Sixteen active RED entries of LINK leave no room for a seventeenth. -/
theorem test_red_post_finds_stack_full :
    result (ask .postMessage (stacked ((ambers 16).map fun e => { e with severity := .red })
      (strip .running [0x40, 20, 0, 0]))) 3 = 0x0E00 ∧
    ((ask .postMessage (stacked (((ambers 16).map fun e => { e with severity := .red }).set 4
      (entry 5 .link .amber .new true 5 0)) (strip .running [0x40, 20, 0, 0]))).stack.find ⟨5, .link, 0⟩) = none := by
  decide +kernel

theorem test_ClearAndAckMessageAct :
    due (stacked (ambers 3) (strip .running [0x41, 2, 0])) .one .clearMessage ∧
      result (ask .clearMessage (strip .running [0x41, 240, 0])) 2 = 0x0200 ∧
      result (ask .clearMessage (stacked (ambers 3) (strip .running [0x41, 9, 0]))) 2 = 2 ∧
      result (ask .clearMessage (stacked (ambers 3) (strip .running [0x41, 2, 0]))) 2 = 1 ∧
      ((ask .clearMessage (stacked (ambers 3) (strip .running [0x41, 2, 0]))).stack.find ⟨2, .link, 0⟩) = none ∧
      ((ask .clearMessage (stacked [entry 2 .link .red .new true 1 0] (strip .running [0x41, 2, 0]))).stack.find
        ⟨2, .link, 0⟩) = some (entry 2 .link .red .new false 1 0) ∧
      ((ask .clearMessage (stacked [entry 2 .link .info .shown true 1 5000] (strip .running [0x41, 2, 0]))).stack.find
        ⟨2, .link, 0⟩) = none ∧
      due (stacked (ambers 3) (strip .running [0x42, 2, 0, 0])) .one .ackMessage ∧
      result (ask .ackMessage (stacked (ambers 3) (strip .running [0x42, 2, 6, 0]))) 3 = 0x0200 ∧
      result (ask .ackMessage (stacked (ambers 3) (strip .running [0x42, 9, 0, 0]))) 3 = 0x0200 ∧
      ((ask .ackMessage (stacked (ambers 3) (strip .running [0x42, 2, 0, 0]))).stack.find ⟨2, .link, 0⟩) =
        some (entry 2 .link .amber .acked true 2 0) ∧
      ((ask .ackMessage (stacked [entry 2 .link .red .new false 1 0] (strip .running [0x42, 2, 0, 0]))).stack.find
        ⟨2, .link, 0⟩) = none ∧
      (ask .ackMessage ((stacked (ambers 3) (strip .running [0x42, 2, 0, 0])).withChime ⟨.continuous, 40, true, true⟩)).chime =
        ⟨.single, 0, false, false⟩ := by decide +kernel

theorem test_ShownTimeStepsAndExpires :
    (ask .stackTick (stacked [entry 2 .link .info .shown false 1 4900] (inMode .running))).stack.entries = [] ∧
      (ask .stackTick (stacked [entry 2 .link .info .shown false 1 4800] (inMode .running))).stack.entries =
        [entry 2 .link .info .shown false 1 4900] ∧
      (stacked [entry 2 .link .info .shown false 1 4900] (inMode .running)).stack.find ⟨2, .link, 0⟩ =
        some (entry 2 .link .info .shown false 1 4900) ∧
      (ask (.shownTimeExpired 2 .link 0) (stacked [entry 2 .link .info .shown false 1 4900] (inMode .running))).stack.entries = [] ∧
      (ask (.shownTimeExpired 2 .link 0) (stacked [entry 2 .link .info .shown true 1 4900] (inMode .running))).stack.entries =
        [entry 2 .link .info .shown true 1 5000] := by decide +kernel

/-! ## Calibration and the odometer store -/

/-- A calibration in the working copy. -/
def calibrated (k : Option Nat) (lock : Bool) (s : State) : State :=
  s.withSpeed { s.speed with k := k, lock := lock, count := 4, odometerLost := false }

/-- A store with an operation in flight. -/
def busyStore (op : StoreOp) (s : State) : State :=
  s.withStore { s.store with op := some op, nextPlace := 30, nextSeq := 31, base := 500 }

theorem test_CalibrationOrdersHoldOrAreRefused :
    due (strip .running [0x30, 8000]) .one .setKFactor ∧ due (strip .running [0x32]) .one .lockCalibration ∧
      due (strip .running [0x31, 1, 2]) .one .setOdometer ∧
      (ask .setKFactor (strip .running [0x30, 2000])).engine.hold = some .store ∧
      (ask .setKFactor (strip .running [0x30, 25000])).store.op = some (.calibration .erase .setK ⟨25000, false, 0⟩) ∧
      result (ask .setKFactor (strip .running [0x30, 1999])) 1 = 0x0200 ∧
      result (ask .setKFactor (strip .running [0x30, 25001])) 1 = 0x0200 ∧
      result (ask .setKFactor (calibrated (some 8000) true (strip .running [0x30, 8000]))) 1 = 0x0600 ∧
      (ask .setKFactor (busyStore (.commit true none 0 0) (strip .running [0x30, 8000]))).store.waiting =
        some (.calibration .setK ⟨8000, false, 0⟩) ∧
      result (ask .lockCalibration (strip .running [0x32])) 0 = 0x0200 ∧
      result (ask .lockCalibration (calibrated (some 8000) true (strip .running [0x32]))) 0 = 0 ∧
      (ask .lockCalibration (calibrated (some 8000) false (strip .running [0x32]))).store.op =
        some (.calibration .erase .lock ⟨8000, true, 4⟩) ∧
      result (ask .setOdometer (calibrated (some 8000) true (strip .running [0x31, 1, 2]))) 2 = 0x0600 ∧
      (ask .setOdometer (strip .running [0x31, 1, 2])).store.op = some (.commit true (some 65538) 0 0) ∧
      result (ask .setOdometer ((strip .running [0x31, 1, 2]).withStore { Store.blank with failed := true })) 2 = 0x0F02 := by
  decide +kernel

theorem test_SectorEraseDoneBeginsTheWrite :
    (ask .sectorEraseDone (busyStore (.commit true none 0 0) (driven (inMode .running)))).store.op =
        some (.commit false none 70 0) ∧
      (ask .sectorEraseDone (busyStore (.commit true (some 9) 0 3) (inMode .running))).store.base = 9 ∧
      (ask .sectorEraseDone (busyStore (.calibration .erase .lock ⟨8000, true, 4⟩) (inMode .running))).store.op =
        some (.calibration .write .lock ⟨8000, true, 4⟩) ∧
      (ask .sectorEraseDone (busyStore (.calibration .restoreErase .lock ⟨8000, true, 4⟩) (inMode .running))).store.op =
        some (.calibration .restoreWrite .lock ⟨8000, true, 4⟩) := by decide +kernel

/-- A strip held by SET ODOMETER or another order of the store, with an operation in flight. -/
def held (ws : List Nat) (op : StoreOp) : State :=
  (busyStore op (strip .running ws)).withEngine ⟨.running, .free, 1, 0, some .store⟩

theorem test_CommitVerifyDoneEndsRetriesOrFails :
    (busyStore (.commit false none 520 0) (inMode .running)).store.nextPlace < 128 ∧
      (ask (.commitVerifyDone true) (busyStore (.commit false none 520 0) (inMode .running))).store.places[30]? =
        some (.valid 31 520) ∧
      (ask (.commitVerifyDone true) (busyStore (.commit false none 520 0) (inMode .running))).store.op = none ∧
      (ask (.commitVerifyDone false) (busyStore (.commit false none 520 0) (inMode .running))).store.failures = 1 ∧
      (ask (.commitVerifyDone false) (busyStore (.commit false none 520 0) (inMode .running))).store.op =
        some (.commit false none 0 0) ∧
      (ask (.commitVerifyDone false) ((inMode .running).withStore
        { Store.blank with op := some (.commit false none 5 0), failures := 2 })).store.failed = true ∧
      kept (ask (.commitVerifyDone false) ((inMode .running).withStore
        { Store.blank with op := some (.commit false none 5 0), failures := 2 })) msgStoreFault .amber = true ∧
      (ask (.commitVerifyDone true) ((inMode .running).withStore
        { Store.blank with op := some (.commit false none 5 0), nextSeq := max32 })).store.failed = true ∧
      awaits (held [0x31, 0, 9] (.commit false (some 9) 9 3)) .one .store .setOdometer ∧
      (ask (.commitVerifyDone true) (held [0x31, 0, 9] (.commit false (some 9) 9 3))).speed.odometer = 12 ∧
      (ask (.commitVerifyDone true) (held [0x31, 0, 9] (.commit false (some 9) 9 3))).speed.count = 1 ∧
      result (ask (.commitVerifyDone true) (held [0x31, 0, 9] (.commit false (some 9) 9 3))) 2 = 0 ∧
      (ask (.commitVerifyDone true) (calibrated (some 8000) false (held [0x31, 0, 9] (.commit false (some 9) 9 3)))).store.op =
        some (.calibration .erase .setOdometer ⟨8000, false, 5⟩) := by decide +kernel

/-- A SET ODOMETER commit that fails for the third time, one that waits behind a commit, and one that waits while the
store becomes FAILED. -/
theorem test_set_odometer_fails_or_waits :
    awaits ((held [0x31, 0, 9] (.commit false (some 9) 9 3)).withStore
        { Store.blank with op := some (.commit false (some 9) 9 3), failures := 2 }) .one .store .setOdometer ∧
      result (ask (.commitVerifyDone false) ((held [0x31, 0, 9] (.commit false (some 9) 9 3)).withStore
        { Store.blank with op := some (.commit false (some 9) 9 3), failures := 2 })) 2 = 0x0F02 ∧
      (ask (.commitVerifyDone true) ((held [0x31, 0, 9] (.commit false none 5 0)).withStore
        { Store.blank with op := some (.commit false none 5 0), nextPlace := 30, waiting := some (.commit 9) })).store.op =
        some (.commit false (some 9) 9 0) ∧
      (ask (.commitVerifyDone true) ((held [0x31, 0, 9] (.commit false none 5 0)).withStore
        { Store.blank with op := some (.commit false none 5 0), nextPlace := 31, waiting := some (.commit 9) })).store.op =
        some (.commit true (some 9) 0 0) ∧
      result (ask (.commitVerifyDone true) ((held [0x31, 0, 9] (.commit false none 5 0)).withStore
        { Store.blank with op := some (.commit false none 5 0), nextSeq := max32, waiting := some (.commit 9) })) 2 = 0x0F02 ∧
      (ask (.commitVerifyDone true) ((held [0x31, 0, 9] (.commit false none 5 0)).withStore
        { Store.blank with op := some (.commit false none 5 0), nextSeq := max32, waiting := some (.commit 9) })).store.op =
        none := by decide +kernel

/-- The store has the last sequence number, or a failure that is its third: SET ODOMETER's commit succeeds and the store
is FAILED (log 22), and a calibration write that waits starts in a store that has become FAILED. -/
theorem test_last_commits :
    awaits ((held [0x31, 0, 9] (.commit false (some 9) 9 3)).withStore
        { Store.blank with op := some (.commit false (some 9) 9 3), nextSeq := max32 }) .one .store .setOdometer ∧
      result (ask (.commitVerifyDone true) ((held [0x31, 0, 9] (.commit false (some 9) 9 3)).withStore
        { Store.blank with op := some (.commit false (some 9) 9 3), nextSeq := max32 })) 2 = 0 ∧
      (ask (.commitVerifyDone true) ((held [0x31, 0, 9] (.commit false (some 9) 9 3)).withStore
        { Store.blank with op := some (.commit false (some 9) 9 3), nextSeq := max32 })).store.failed = true ∧
      (ask (.commitVerifyDone false) ((inMode .running).withStore { Store.blank with
        op := some (.commit false none 5 0), failures := 2, waiting := some (.calibration .lock ⟨8000, true, 4⟩) })).store.op =
          some (.calibration .erase .lock ⟨8000, true, 4⟩) ∧
      (ask (.restoreDone false) ((calibrated (some 8000) false
        (held [0x32] (.calibration .restoreWrite .lock ⟨8000, true, 4⟩))).withStore { Store.blank with
          op := some (.calibration .restoreWrite .lock ⟨8000, true, 4⟩), nextPlace := 5, pending := true })).store =
            { Store.blank with op := some (.commit false none 0 0), nextPlace := 5 } := by decide +kernel

theorem test_CalibrationWriteDoneCompletesItsOrder :
    awaits (held [0x30, 8000] (.calibration .write .setK ⟨8000, false, 0⟩)) .one .store .setKFactor ∧
      (held [0x30, 8000] (.calibration .write .setK ⟨8000, false, 0⟩)).store.waiting = none ∧
      (ask (.calibrationWriteDone true) ((held [0x30, 8000] (.calibration .write .setK ⟨8000, false, 0⟩)).withSpeed
        { Speed.reset with pulses := 250 })).speed.odometer = 3 ∧
      (ask (.calibrationWriteDone true) ((held [0x30, 8000] (.calibration .write .setK ⟨8000, false, 0⟩)).withSpeed
        { Speed.reset with pulses := 250 })).speed.acc = 1000 ∧
      (ask (.calibrationWriteDone true) (calibrated (some 8000) false
        (held [0x32] (.calibration .write .lock ⟨8000, true, 4⟩)))).speed.lock = true ∧
      result (ask (.calibrationWriteDone true) (calibrated (some 8000) false
        (held [0x32] (.calibration .write .lock ⟨8000, true, 4⟩)))) 0 = 0 ∧
      (ask (.calibrationWriteDone false) (calibrated (some 8000) false
        (held [0x32] (.calibration .write .lock ⟨8000, true, 4⟩)))).store.op =
          some (.calibration .restoreErase .lock ⟨8000, true, 4⟩) ∧
      result (ask (.calibrationWriteDone false) (held [0x30, 8000] (.calibration .write .setK ⟨8000, false, 0⟩))) 1 = 0x0F01 := by
  decide +kernel

/-- Every channel is PARKED. -/
def rested (s : State) : State := s.withGauges (Vector.replicate 8 { Channel.reset with state := .parked })

/-- The reset part, in PARKING with its channels parked. -/
def resting : State := rested (inMode .parking)

/-- A part in PARKING with its channels parked. -/
def parkedPart (s : State) : State := (rested s).withMode (inMode .parking).mode

/-- The end of the store's last operation brings DORMANT where every channel is parked (R163). -/
theorem test_store_completions_bring_dormant :
    (ask (.commitVerifyDone true) (busyStore (.commit false none 520 0) resting)).mode.mode = .dormant ∧
      pends (ask (.commitVerifyDone true) (busyStore (.commit false none 520 0) resting)) .modeChange ∧
      (ask (.commitVerifyDone true) (busyStore (.commit false none 520 0)
        (pointing .parking 9 resting))).mode.mode = .parking ∧
      (ask (.commitVerifyDone false) (busyStore (.commit false none 520 0) resting)).mode.mode = .parking ∧
      (ask (.commitVerifyDone true) (resting.withStore
        { Store.blank with op := some (.commit false none 520 0), pending := true })).mode.mode = .parking ∧
      (ask (.commitVerifyDone false) (resting.withStore
        { Store.blank with op := some (.commit false none 5 0), failures := 2 })).mode.mode = .dormant ∧
      (ask (.calibrationWriteDone true) (parkedPart (calibrated (some 8000) false
        (held [0x32] (.calibration .write .lock ⟨8000, true, 4⟩))))).mode.mode = .dormant ∧
      (ask (.calibrationWriteDone false) (parkedPart (held [0x30, 8000] (.calibration .write .setK ⟨8000, false, 0⟩)))).mode.mode = .dormant ∧
      (ask (.restoreDone false) (parkedPart (calibrated (some 8000) false
        (held [0x32] (.calibration .restoreWrite .lock ⟨8000, true, 4⟩))))).mode.mode =
          .dormant := by decide +kernel

theorem test_RestoreDoneEndsWithStoreFault :
    awaits (calibrated (some 8000) false (held [0x32] (.calibration .restoreWrite .lock ⟨8000, true, 4⟩))) .one .store
        .lockCalibration ∧
      (ask (.restoreDone true) (calibrated (some 8000) false
        (held [0x32] (.calibration .restoreWrite .lock ⟨8000, true, 4⟩)))).store.sector0 = some ⟨8000, false, 4⟩ ∧
      result (ask (.restoreDone false) (calibrated (some 8000) false
        (held [0x32] (.calibration .restoreWrite .lock ⟨8000, true, 4⟩)))) 0 = 0x0F01 := by decide +kernel

/-! ## Tables, copies, the report block -/

/-- LOAD TABLE of an image at 0x500 in strip 1. -/
def loading (kind len : Nat) (img : List Nat) : State :=
  (strip .running [0x12, kind, 0x500, len]).withXm (words 0x101 [0x12, kind, 0x500, len, 0xFFFF] ++ words 0x500 img)

/-- An image of a body with its tag, its version, its length and the sum that brings it to zero. -/
def imageOf (tag : Nat) (body : List Nat) : List Nat :=
  let ws := [tag, 1, body.length] ++ body
  ws ++ [(65536 - ws.sum % 65536) % 65536]

/-- A RULES body. -/
def rulesBody : List Nat := [270, 15, 30, 45, 540, 660, 15, 1, 500, 60, 10, 11, 255]

theorem test_LoadTableHoldsOrIsRefused :
    due (loading 6 17 (imageOf 0x5255 rulesBody)) .one .loadTable ∧
      (ask .loadTable (loading 6 17 (imageOf 0x5255 rulesBody))).engine.hold = some (.table .rules) ∧
      result (ask .loadTable (loading 0 17 (imageOf 0x5255 rulesBody))) 3 = 0x0200 ∧
      result (ask .loadTable (loading 7 17 (imageOf 0x5255 rulesBody))) 3 = 0x0200 ∧
      result (ask .loadTable (loading 5 17 (imageOf 0x5255 rulesBody))) 3 = 0x0301 ∧
      result (ask .loadTable (loading 6 17 (0x5255 :: 2 :: (imageOf 0x5255 rulesBody).drop 2))) 3 = 0x0302 ∧
      result (ask .loadTable (loading 6 18 (imageOf 0x5255 rulesBody))) 3 = 0x0303 ∧
      result (ask .loadTable (loading 6 17 ((imageOf 0x5255 rulesBody).set 5 31))) 3 = 0x0304 ∧
      result (ask .loadTable (loading 6 17 (imageOf 0x5255 (rulesBody.set 1 30)))) 3 = 0x0305 ∧
      (ask .loadTable (loading 6 17 (imageOf 0x5255 (rulesBody.set 1 30)))).tables.report = ⟨6, 3, 5, 32⟩ ∧
      result (ask .loadTable (loading 6 16 (imageOf 0x5255 (rulesBody.take 12)))) 3 = 0x0305 := by decide +kernel

/-- A SLOTS body: heartbeat timeout 160 ms, no data-fault lamp, slot 1 as given. -/
def slotsBody (slot1 : Nat) : List Nat := [0x1000, slot1, 0xF000, 0xF000] ++ List.replicate 60 0

/-- A channel's 44 words: travel 1000, two breakpoints, both watchers ABOVE. -/
def channelWords : List Nat :=
  [64, 1000, 2, 128, 40, 2, 10, 0, 0, 0, 1000, 1000] ++ List.replicate 20 0 ++ [1, 100, 50, 255, 0, 0, 1, 100, 50, 255, 0, 0]

/-- A GAUGE body with no channel enabled and the first channel's entry as given. -/
def gaugeBody (first : List Nat) : List Nat := [44, 0, 0, 0] ++ first ++ (List.replicate 7 channelWords).flatten

/-- A LAMP body: lamp 0 is used, RED and the fault tell-tale; lamp 1 as given. -/
def lampBody (lamp1 : List Nat) : List Nat := [1, 0, 0, 0, 0, 0] ++ lamp1 ++ List.replicate 228 0

/-- A PANEL body of one page with two NUMBER fields: columns 0 to 4, and column 2 with a width. -/
def panelBody (width : Nat) : List Nat :=
  [1, 255, 0, 0x20, 0, 0] ++ List.replicate 20 0x2020 ++ [0x0202, 0x0500, 0x1060, 0, 0, 0, 4 + 256 * width, 0x1060, 0, 0, 0] ++
    List.replicate 2757 0

/-- The content failure of a body of numbers. -/
def failing (k : TableKind) (body : List Nat) : Option Nat :=
  (inMode .running).contentFailure k (body.map fun n => BitVec.ofNat 16 n)

/-- A GLYPH body that fits and one whose last row is too wide. -/
theorem test_glyph_rows :
    failing .glyph (List.replicate 224 31) = none ∧
      failing .glyph ((List.replicate 224 31).set 223 32) = some (16 * 223) := by decide +kernel

theorem test_content_checks_report_the_first_failing_field :
    failing .slots (slotsBody 0x0205) = none ∧ failing .slots (slotsBody 0x0204) = some 16 ∧
      failing .slots (slotsBody 0x0805) = some 25 ∧ failing .slots ((slotsBody 0).set 0 0) = some 12 ∧
      failing .gauge (gaugeBody channelWords) = none ∧ failing .gauge (gaugeBody (channelWords.set 10 0)) = some (16 * 14) ∧
      failing .gauge (gaugeBody (channelWords.set 11 1001)) = some (16 * 15) ∧
      failing .gauge (gaugeBody (channelWords.set 34 100)) = some (16 * 38) ∧
      failing .lamp (lampBody [0, 0, 0, 0, 0, 0]) = none ∧ failing .lamp ((lampBody [0, 0, 0, 0, 0, 0]).set 0 0) = some 8 ∧
      failing .lamp (lampBody [1, 2, 0, 0, 2, 0]) = some (16 * 10) ∧ failing .lamp (lampBody [1, 2, 0, 0, 1]) = some 0xFFFF ∧
      failing .panel (panelBody 0) = some (16 * 32 + 8) ∧ failing .panel (panelBody 1) = some (16 * 32 + 1) := by
  decide +kernel

/-- A strip held by LOAD TABLE with an incoming table. -/
def adopting (m : DeviceMode) (k : TableKind) (b : TableBody) : State :=
  let s := (strip m [0x12, k.code, 0x500, 17]).withEngine ⟨.running, .free, 1, 0, some (.table k)⟩
  s.withTables { s.tables with incoming := some ⟨b, 13, 0x1234⟩ }

theorem test_PanelGlyphRulesAdoptionsInstall :
    awaits (adopting .running .panel (.panel panelTable)) .one (.table .panel) .loadTable ∧
      awaits (adopting .running .glyph (.glyph [])) .one (.table .glyph) .loadTable ∧
      awaits (adopting .running .rules (.rules rulesTable)) .one (.table .rules) .loadTable ∧
      (ask .panelTableAdoption (adopting .running .panel (.panel panelTable))).tables.panel = some panelTable ∧
      (ask .glyphTableAdoption (adopting .running .glyph (.glyph []))).tables.dir.glyph = ⟨true, 13, 0x1234⟩ ∧
      (ask .rulesTableAdoption (driving (adopting .running .rules (.rules rulesTable)))).tables.report = ⟨6, 0, 0, 0⟩ ∧
      (ask .rulesTableAdoption (crewed 300 (some ⟨.drive, 100⟩) none none
        (adopting .running .rules (.rules rulesTable)))).hours.driver1.live = some ⟨200, 200, 70, 340, 45⟩ ∧
      result (ask .rulesTableAdoption (adopting .running .rules (.rules rulesTable))) 3 = 0 := by decide +kernel

theorem test_SlotsAdoptionRetypesSlots :
    awaits (adopting .running .slots (.slots slotsTable)) .one (.table .slots) .loadTable ∧
      (ask .slotsTableAdoption (adopting .running .slots (.slots slotsTable))).intake.slots[1] =
        ⟨.unsigned, 100, .never, 0, 0, 0⟩ ∧
      (ask .slotsTableAdoption (adopting .running .slots (.slots slotsTable))).intake.slots[0].timeout = 200 ∧
      (ask .slotsTableAdoption (fed 7 (adopting .running .slots (.slots slotsTable)))).intake.slots[1].accepted = 7 ∧
      wentOn (ask .slotsTableAdoption (adopting .running .slots (.slots slotsTable))) 3 = true := by decide +kernel

theorem test_GaugeAdoptionRejudgesChannels :
    awaits (adopting .running .gauge (.gauge gaugeTable)) .one (.table .gauge) .loadTable ∧
      (ask .gaugeTableAdoption (adopting .running .gauge (.gauge gaugeTable))).gauges[0].state = .homing ∧
      (ask .gaugeTableAdoption (adopting .running .gauge (.gauge gaugeTable))).gauges[0].armed = true ∧
      (ask .gaugeTableAdoption (adopting .dormant .gauge (.gauge gaugeTable))).gauges[0].state = .unhomed ∧
      (ask .gaugeTableAdoption (adopting .parking .gauge (.gauge gaugeTable))).gauges[0].after = .park ∧
      (ask .gaugeTableAdoption (adopting .running .gauge (.gauge gaugeTable))).gauges[3].state = .idle ∧
      result (ask .gaugeTableAdoption (pointing .homing 0 (adopting .running .gauge (.gauge gaugeTable)))) 3 = 0x0400 ∧
      result (ask .gaugeTableAdoption (pointing .tracking 1001 (adopting .running .gauge (.gauge gaugeTable)))) 3 = 0x0400 := by
  decide +kernel

theorem test_LampAdoptionKeepsOrClearsRecords :
    awaits (adopting .running .lamp (.lamp lampTable)) .one (.table .lamp) .loadTable ∧
      (ask .lampTableAdoption ((adopting .running .lamp (.lamp lampTable)).setLamp 7
        { LampRec.reset with fault := .open, openCount := 2, held := .on })).lamps.recs[7] =
          { LampRec.reset with held := .on } ∧
      (ask .lampTableAdoption ((adopting .running .lamp (.lamp lampTable)).setLamp 0
        { LampRec.reset with fault := .open, riseActive := true, held := .on })).lamps.recs[0] = LampRec.reset ∧
      result (ask .lampTableAdoption (adopting .running .lamp (.lamp lampTable))) 3 = 0 := by decide +kernel

/-- The LAMP table with lamp 0 without a message and of another legality. -/
def lampsRevised (legal : Bool) : LampTable :=
  { lampTable with entries := lampTable.entries.set 0 (lampEntryOf true legal true (some ⟨2, 0⟩) none) }

/-- A LAMP table is adopted over `lampTable`, or over one in which lamp 0 is not legal, lamp 0 having a record and its
message on rise, code 9, standing in the stack. -/
def revising (old new : LampTable) (r : LampRec) (es : List Entry) : State :=
  lamp0 r (stacked es (let s := adopting .running .lamp (.lamp new)
    s.withTables { s.tables with lamp := some old }))

/-- The message on rise of the old table ends; LAMP FAULT ends with the lamp's legality, and is posted where legality
comes: RED where the fault tell-tale is faulty, with a SINGLE that waits behind the CONTINUOUS of a RED message. -/
theorem test_lamp_adoption_and_messages :
    awaits (revising lampTable (lampsRevised true) { LampRec.reset with riseActive := true } [entry 9 .lamp .info .new true 1 0])
        .one (.table .lamp) .loadTable ∧
      (ask .lampTableAdoption (revising lampTable (lampsRevised true) { LampRec.reset with riseActive := true }
        [entry 9 .lamp .info .new true 1 0])).stack.entries = [] ∧
      (ask .lampTableAdoption (revising lampTable (lampsRevised true) { LampRec.reset with fault := .open }
        [entry 241 .lamp .amber .new true 1 0])).stack.entries = [entry 241 .lamp .amber .new true 1 0] ∧
      (ask .lampTableAdoption (revising lampTable (lampsRevised false) { LampRec.reset with fault := .open }
        [entry 241 .lamp .amber .new true 1 0])).stack.entries = [] ∧
      kept (ask .lampTableAdoption (revising (lampsRevised false) lampTable { LampRec.reset with fault := .open } []))
        (msgLampFault 0) .amber = true ∧
      (ask .lampTableAdoption ((revising (lampsRevised false) lampTable { LampRec.reset with fault := .open } []).withLamps
        { (revising (lampsRevised false) lampTable { LampRec.reset with fault := .open } []).lamps with
          escalated := true })).chime = ⟨.continuous, 0, true, true⟩ := by decide +kernel

/-- A strip held by COPY OUT. -/
def copying (k : CopyKind) (ws : List Nat) : State :=
  (fed 7 (tabled (strip .running ws))).withEngine ⟨.running, .free, 1, 0, some (.copy k 0x600)⟩

theorem test_CopyOutHoldsAndSnapshotWrites :
    due (strip .running [0x13, 5, 0, 0x600]) .one .copyOut ∧
      (ask .copyOut (strip .running [0x13, 5, 0, 0xFC0])).engine.hold = some (.copy .slots 0xFC0) ∧
      (ask .copyOut (strip .running [0x13, 1, 2, 0x500])).engine.hold = some (.copy .driver2 0x500) ∧
      result (ask .copyOut (strip .running [0x13, 5, 0, 0xFC1])) 3 = 0x0200 ∧
      result (ask .copyOut (strip .running [0x13, 1, 3, 0x500])) 3 = 0x0200 ∧
      result (ask .copyOut (strip .running [0x13, 6, 0, 0x500])) 3 = 0x0200 ∧
      result (ask .copyOut (strip .running [0x13, 5, 0, 0x4FF])) 3 = 0x0200 ∧
      awaits (copying .slots [0x13, 5, 0, 0x600]) .one (.copy .slots 0x600) .copyOut ∧
      (ask .copyOutSnapshot (copying .slots [0x13, 5, 0, 0x600])).readXm 0x601 = 0x0012 ∧
      result (ask .copyOutSnapshot (copying .slots [0x13, 5, 0, 0x600])) 3 = 0 ∧
      (ask .copyOutSnapshot (copying .messages [0x13, 2, 0, 0x600])).readXm 0x606 = 0x0700 ∧
      ((copying .driver1 []).record .driver1).length = 120 ∧ ((copying .driver1 []).record .messages).length = 96 ∧
      ((copying .driver1 []).record .gauges).length = 64 ∧ ((copying .driver1 []).record .lamps).length = 80 := by
  decide +kernel

theorem test_ReportRefreshWritesBlock :
    (ask (.reportRefresh []) (driven (ignited true (pointing .tracking 345 (strip .running [0x10]))))).readXm 25 = 345 ∧
      (ask (.reportRefresh []) (driven (ignited true (strip .running [0x10])))).readXm 1 = 0x0013 ∧
      (ask (.reportRefresh []) (driven (ignited true (strip .running [0x10])))).readXm 5 = 70 ∧
      (ask (.reportRefresh [⟨5, .causeWrite 1⟩, ⟨5, .wdatWrite 9⟩]) (strip .running [0x10])).readXm 0 = 1 ∧
      (ask (.reportRefresh [⟨5, .causeWrite 1⟩, ⟨5, .wdatWrite 9⟩]) (strip .running [0x10])).link.causes = 0x0010 ∧
      (ask (.reportRefresh []) (strip .running [0x10])).readXm 0x101 = 0x10 ∧
      (ask (.reportRefresh [⟨1, .stripWrite 0x0011⟩]) (inMode .running)).engine.strip1 = .running ∧
      (ask (.reportRefresh [⟨1, .stripWrite 0x0011⟩]) (inMode .running)).readXm 2 = 0 ∧
      (ask (.reportRefresh [⟨1, .stripWrite 0x0011⟩]) (inMode .running)).readXm 63 = 1 ∧
      (ask (.reportRefresh [⟨40, .wdatRead⟩]) ((driven (inMode .running)).withLink { Link.reset with addr := 5 })).link.data = 70 ∧
      (ask (.reportRefresh [⟨40, .wdatRead⟩]) ((driven (inMode .running)).withLink { Link.reset with addr := 63 })).link.data = 0 ∧
      ask (.reportRefresh []) State.reset = State.reset := by decide +kernel

/-- A word of the report block. -/
def reported (s : State) (a : Nat) : Word := (ask (.reportRefresh []) s).readXm a

theorem test_report_words :
    reported (inMode .limp) 1 = 0x0004 ∧ reported (inMode .dormant) 1 = 0x0006 ∧
      reported (driving (inMode .running)) 11 = 300 ∧ reported (driving (inMode .running)) 12 = 1 ∧
      reported (driving (inMode .running)) 13 = 1 ∧ reported (driving (inMode .running)) 14 = 0 ∧
      reported (driving (inMode .running)) 15 = 0xFFFF ∧ reported (driving (inMode .running)) 20 = 7 ∧
      reported (pointing .failed 5 (inMode .running)) 33 = 0x1116 ∧
      reported ((inMode .running).setLamp 9 { LampRec.reset with shown := .flashFast }) 36 = 0x000C ∧
      reported ((inMode .running).setLamp 9 { LampRec.reset with shown := .on, fault := .latchedOff }) 36 = 0 ∧
      reported ((inMode .running).setLamp 17 { LampRec.reset with fault := .open }) 41 = 2 ∧
      reported (fed 7 (tabled (inMode .running))) 43 = 0xFFF9 ∧
      reported (stacked [entry 2 .gauge .amber .shown true 1 0] (inMode .running)) 48 = 0x0102 ∧
      reported (stacked [entry 2 .gauge .amber .acked true 1 0] (inMode .running)) 48 = 0x0700 ∧
      reported (keysWaiting (inMode .running)) 50 = 2 := by decide +kernel

/-- A word of a record. -/
def recorded (s : State) (k : CopyKind) (i : Nat) : Word := (s.record k).getD i 0

theorem test_record_words :
    recorded (driving (inMode .running)) .driver1 2 = 77 ∧ recorded (driving (inMode .running)) .driver1 3 = 1 ∧
      recorded (driving (inMode .running)) .driver2 3 = 3 ∧ recorded (driving (inMode .running)) .driver2 11 = 200 ∧
      recorded (driving (inMode .running)) .driver1 6 = 100 ∧ recorded (driving (inMode .running)) .driver1 24 = 7 ∧
      recorded (ask .cardOut (driving (strip .running [0x22, 1, 0, 290]))) .driver1 24 = BitVec.ofNat 16 (8 * 190) ∧
      recorded (stacked [entry 2 .gauge .amber .shown true 7 4900, entry 3 .link .info .new false 6 0] (inMode .running))
        .messages 0 = 0x2003 ∧
      recorded (stacked [entry 2 .gauge .amber .shown true 7 4900, entry 3 .link .info .new false 6 0] (inMode .running))
        .messages 6 = 0x1102 ∧
      recorded (stacked [entry 2 .gauge .amber .shown true 7 4900, entry 3 .link .info .new false 6 0] (inMode .running))
        .messages 8 = 0x0011 ∧
      recorded (stacked [entry 2 .gauge .amber .shown true 7 4900, entry 3 .link .info .new false 6 0] (inMode .running))
        .messages 11 = 49 ∧
      recorded (inMode .running) .messages 90 = 0x0700 ∧
      recorded ((pointing .holding 9 (inMode .running)).setChannel 2 { Channel.reset with
        state := .holding, x := -3, hold := 70, alarm1 := true }) .gauges 16 = 0x0205 ∧
      recorded ((inMode .running).setChannel 2 { Channel.reset with x := -3, hold := 70 }) .gauges 17 = 0xFFFD ∧
      recorded ((inMode .running).setChannel 2 { Channel.reset with x := -3, hold := 70 }) .gauges 22 = 7 ∧
      recorded ((inMode .running).setLamp 3 { LampRec.reset with shown := .on, operating := .flashSlow, fault := .open })
        .lamps 6 = 0x0149 ∧
      recorded (inMode .running) .slots 0 = 0x0004 := by decide +kernel

theorem test_AttentionFollowsPendingAndMask :
    (inMode .running).attention = true ∧ ((inMode .running).withLink { Link.reset with mask := 0x3FFE }).attention = false := by
  decide +kernel

/-! ## Speed -/

/-- The last edge stamped at 0, the timer at a value. -/
def edged (timer : Nat) (s : State) : State :=
  s.withSpeed { s.speed with timer := BitVec.ofNat 32 timer, lastStamp := some 0, standstill := false }

theorem test_SpeedEdgeIsTimedAndCounted :
    (ask (.speedEdge 49) (edged 0 (inMode .running))).speed.pulses = 0 ∧
      (ask (.speedEdge 49) (edged 0 (inMode .running))).speed.timer = 49 ∧
      (ask (.speedEdge 50) (edged 0 (inMode .running))).speed.pulses = 1 ∧
      (ask (.speedEdge 50) (edged 0 (inMode .running))).speed.periods = 1 ∧
      (ask (.speedEdge 50) (edged 0 (inMode .running))).speed.periodSum = 50 ∧
      (ask (.speedEdge 50) (inMode .running)).speed.periods = 0 ∧
      (ask (.speedEdge 50) State.reset).speed.lastStamp = none ∧
      (ask (.speedEdge 200) (edged 0xFFFFFFC0 (inMode .running))).speed.lastStamp = some 136 ∧
      (ask (.speedEdge 100) (driven (inMode .running))).speed.odometer = 71 ∧
      (ask (.speedEdge 100) (driven (inMode .running))).speed.acc = 0 ∧
      (ask (.speedEdge 100) (driven (inMode .running))).speed.tripA = 0 ∧
      (ask (.speedEdge 100) (driven (inMode .running))).speed.tripB = 6 ∧
      (ask (.speedEdge 100) (driven (inMode .running))).store.op = none ∧
      (ask (.speedEdge 100) ((driven (inMode .running)).withSpeed
        { (driven (inMode .running)).speed with acc := 1899 })).speed.acc = 1999 ∧
      (ask (.speedEdge 100) ((driven (inMode .running)).withSpeed
        { (driven (inMode .running)).speed with odometer := 99 })).store.busy = true ∧
      (ask (.speedEdge 100) ((driven (inMode .running)).withSpeed
        { (driven (inMode .running)).speed with odometer := max32 })).speed.odometer = max32 := by decide +kernel

/-- A window with a number of periods of a summed length, K 8000, an earlier speed. -/
def windowed (n sum v : Nat) (s : State) : State :=
  s.withSpeed { s.speed with
    k := some 8000, periods := n, periodSum := sum, lastStamp := some 0, standstill := false, v := v }

theorem test_SpeedWindowComputesSpeedAndMoving :
    (ask (.speedWindow 0) (windowed 10 90000 0 (inMode .running))).speed.v = 5000 ∧
      (ask (.speedWindow 0) (windowed 10 600 0 (inMode .running))).speed.v = 25000 ∧
      (ask (.speedWindow 0) (edged 0 (inMode .running))).speed.v = 0 ∧
      (ask (.speedWindow 100000) (windowed 0 0 5000 (inMode .running))).speed.v = 450 ∧
      (ask (.speedWindow 100000) (windowed 0 0 300 (inMode .running))).speed.v = 300 ∧
      (ask (.speedWindow 1999999) (windowed 0 0 300 (inMode .running))).speed.standstill = false ∧
      (ask (.speedWindow 2000000) (windowed 0 0 300 (inMode .running))).speed.standstill = true ∧
      (ask (.speedWindow 2000000) (windowed 0 0 300 (inMode .running))).speed.v = 0 ∧
      (ask (.speedWindow 0) (windowed 10 90000 0 (inMode .running))).speed.movingTimer = 100 ∧
      (ask (.speedWindow 0) (windowed 1 90000 0 (inMode .running))).speed.v = 500 ∧
      (ask (.speedWindow 0) (windowed 1 90001 0 (inMode .running))).speed.movingTimer = 0 ∧
      (ask (.speedWindow 0) ((windowed 10 90000 0 (inMode .running)).withSpeed
        { (windowed 10 90000 0 (inMode .running)).speed with movingTimer := 59900 })).hours.undeclared = true ∧
      (ask (.speedWindow 0) ((windowed 10 90000 0 (inMode .running)).withSpeed
        { (windowed 10 90000 0 (inMode .running)).speed with movingTimer := 59899 })).speed.moving = false := by
  decide +kernel

theorem test_speed_watcher_follows_window :
    (inMode .running |> tabled).enabledEntry 1 = some (channelEntry true .speed) ∧
      (ask (.speedWindow 0) (pointing .tracking 0 (windowed 10 90000 0 (tabled (inMode .running))))).gauges[1].alarm0 = false ∧
      (ask (.speedWindow 0) ((windowed 10 90000 0 (tabled (inMode .running))).setChannel 1
        { Channel.reset with state := .tracking, armed := true })).gauges[1].alarm0 = true ∧
      (ask (.speedWindow 0) ((windowed 1 9000000 0 (tabled (inMode .running))).setChannel 1
        { Channel.reset with state := .tracking, armed := true, alarm0 := true })).gauges[1].alarm0 = false := by
  decide +kernel

/-- Without a calibration the speed is 0 and the standstill flag is kept as with one (R55). -/
theorem test_standstill_without_calibration :
    (ask (.speedWindow 1999999) (edged 0 (inMode .running))).speed.standstill = false ∧
      (ask (.speedWindow 2000000) (edged 0 (inMode .running))).speed.standstill = true ∧
      (ask (.speedWindow 0) (edged 0 (inMode .running))).speed.standstill = false ∧
      (ask (.speedWindow 0) (inMode .running)).speed.standstill = true ∧
      (ask (.speedWindow 2000000) ((edged 0 (inMode .running)).withSpeed
        { (edged 0 (inMode .running)).speed with periods := 1, periodSum := 90 })).speed.standstill = false := by
  decide +kernel

theorem test_MovingSet :
    (ask .movingSet ((windowed 0 0 500 (inMode .running)).withSpeed
      { (windowed 0 0 500 (inMode .running)).speed with movingTimer := 59900 })).speed.moving = true ∧
    kept (ask .movingSet ((windowed 0 0 500 (inMode .running)).withSpeed
      { (windowed 0 0 500 (inMode .running)).speed with movingTimer := 59900 })) msgUndeclared .amber = true := by decide +kernel

/-! ## Intake -/

/-- Slot 1's words, and slot 1 with an age. -/
def offered (tag value age : Nat) (s : State) : State :=
  (s.withXm (words 0x42 [value, tag])).withIntake { s.intake with
    slots := s.intake.slots.set 1 ⟨.unsigned, 100, .good, 5, 7, age⟩ }

/-- The heartbeat's state and the tag of slot 0. -/
def beating (lost : Bool) (age restore tag : Nat) (s : State) : State :=
  (s.withXm (words 0x41 [tag])).withIntake { s.intake with heartbeat := ⟨lost, age, restore⟩ }

theorem test_IntakeScanAcceptsOrAgesSlots :
    (ask (.intakeScan []) (offered 0x0006 9 20 (inMode .running))).intake.slots[1] = ⟨.unsigned, 100, .good, 6, 9, 0⟩ ∧
      (ask (.intakeScan []) (offered 0x0206 9 20 (inMode .running))).intake.slots[1] =
        ⟨.unsigned, 100, .notAvailable, 6, 7, 0⟩ ∧
      (ask (.intakeScan []) (offered 0x0106 9 20 (inMode .running))).intake.slots[1] = ⟨.unsigned, 100, .error, 6, 7, 0⟩ ∧
      (ask (.intakeScan []) (offered 0x0306 9 20 (inMode .running))).intake.slots[1] = ⟨.unsigned, 100, .error, 6, 7, 0⟩ ∧
      (ask (.intakeScan []) (offered 0x0005 9 80 (inMode .running))).intake.slots[1] = ⟨.unsigned, 100, .good, 5, 7, 90⟩ ∧
      (ask (.intakeScan []) (offered 0x0005 9 90 (inMode .running))).intake.slots[1] = ⟨.unsigned, 100, .stale, 5, 7, 100⟩ ∧
      pends (ask (.intakeScan []) (offered 0x0005 9 90 (inMode .running))) .slotStale ∧
      (ask (.intakeScan []) (beating false 490 0 0 (inMode .running))).mode.mode = .limp ∧
      pends (ask (.intakeScan []) (beating false 490 0 0 (inMode .running))) .modeChange ∧
      (ask (.intakeScan []) (beating false 480 0 0 (inMode .running))).intake.heartbeat = ⟨false, 490, 0⟩ ∧
      (ask (.intakeScan []) (beating true 500 0 1 (inMode .limp))).intake.heartbeat = ⟨true, 0, 1⟩ ∧
      (ask (.intakeScan []) (beating true 20 1 1 (inMode .limp))).mode.mode = .running ∧
      (ask (.intakeScan []) (beating false 20 0 1 (inMode .running))).intake.heartbeat = ⟨false, 0, 0⟩ ∧
      (ask (.intakeScan []) (offered 0x0106 9 20 (tabled (inMode .running)))).intake.dataFault = true ∧
      (tabled (inMode .running)).referenced 1 = true ∧ (tabled (inMode .running)).referenced 40 = false := by
  decide +kernel

/-- A GAUGE table whose channel 0 reads slot 1 with watcher 1 BELOW, at 8 and released at 12, with message 7. -/
def lowTable : GaugeTable :=
  gaugeTable.set 0 { channelEntry true (.slot 1) with watcher1 := ⟨false, 8, 12, none, some (7, .red), false⟩ }

/-- The channel and slot of such a watcher, with its present state. -/
def lowWatch (alarm : Bool) (s : State) : State :=
  ((tabled s).withTables { (tabled s).tables with gauge := some lowTable }).setChannel 0
    { Channel.reset with state := .tracking, armed := true, alarm1 := alarm }

/-- A scan that loses the heartbeat in RUNNING sets LINK_LIMP and posts LINK FAULT, one that restores it in LIMP ends it,
and a loss in another mode sets nothing (R161). -/
theorem test_scan_enters_and_leaves_limp :
    pends (ask (.intakeScan []) (beating false 490 0 0 (inMode .running))) .linkLimp ∧
      kept (ask (.intakeScan []) (beating false 490 0 0 (inMode .running))) msgLinkFault .red = true ∧
      (ask (.intakeScan []) (stacked [entry 240 .system .red .acked true 1 0]
        (beating true 20 1 1 (inMode .limp)))).stack.entries = [] ∧
      (ask (.intakeScan []) (beating true 20 1 1 (inMode .limp))).link.causes = 0x0021 ∧
      (ask (.intakeScan []) (beating false 490 0 0 (inMode .dormant))).link.causes = 0x0001 := by decide +kernel

theorem test_slot_watchers_follow_the_scan :
    (offered 0x0006 9 20 (lowWatch false (inMode .running))).validReading 1 = some 9 ∧
      (ask (.intakeScan []) (offered 0x0006 9 20 (lowWatch false (inMode .running)))).gauges[0].alarm1 = false ∧
      (ask (.intakeScan []) (offered 0x0006 8 20 (lowWatch false (inMode .running)))).gauges[0].alarm1 = true ∧
      kept (ask (.intakeScan []) (offered 0x0006 8 20 (lowWatch false (inMode .running)))) ⟨7, .gauge, 1⟩ .red = true ∧
      (ask (.intakeScan []) (offered 0x0006 11 20 (lowWatch true (inMode .running)))).gauges[0].alarm1 = true ∧
      (ask (.intakeScan []) (offered 0x0006 12 20 (lowWatch true (inMode .running)))).gauges[0].alarm1 = false ∧
      (ask (.slotStale 1) (offered 0x0005 9 90 (lowWatch false (inMode .running)))).gauges[0].alarm0 = true ∧
      (ask (.slotStale 1) (offered 0x0005 9 90 (lowWatch false (inMode .running)))).gauges[0].alarm1 = false := by
  decide +kernel

theorem test_torn_reading_is_discarded :
    ((offered 0x0006 9 20 (inMode .running)).withLink { Link.reset with addr := 0x43 }).xm.wf = true ∧
      (ask (.intakeScan [⟨2, .wdatWrite 0x0007⟩])
        ((offered 0x0006 9 20 (inMode .running)).withLink { Link.reset with addr := 0x43 })).intake.slots[1] =
          ⟨.unsigned, 100, .good, 5, 7, 30⟩ ∧
      (ask (.intakeScan [⟨2, .wdatWrite 0x0007⟩])
        ((offered 0x0006 9 20 (inMode .running)).withLink { Link.reset with addr := 0x43 })).readXm 0x43 = 7 := by
  decide +kernel

theorem test_SlotsGoStaleAndHeartbeatIsLost :
    (ask (.slotStale 1) (offered 0 9 90 (inMode .running))).intake.slots[1] = ⟨.unsigned, 100, .stale, 5, 7, 100⟩ ∧
      (ask (.slotStale 1) (offered 0 9 89 (inMode .running))).intake.slots[1] = ⟨.unsigned, 100, .good, 5, 7, 89⟩ ∧
      (ask (.slotStale 1) (pointing .tracking 9 (tabled (offered 0 9 90 (inMode .running))))).gauges[0].state = .holding ∧
      (ask .heartbeatLost (beating false 490 0 0 (inMode .running))).mode.mode = .limp ∧
      kept (ask .heartbeatLost (beating false 490 0 0 (inMode .running))) msgLinkFault .red = true ∧
      (ask .heartbeatLost (beating false 490 0 0 (inMode .dormant))).mode.mode = .dormant ∧
      (ask .heartbeatLost (beating false 490 0 0 (inMode .dormant))).intake.heartbeat = ⟨true, 500, 0⟩ := by decide +kernel

/-- SLOT_STALE of a referenced slot demands the data-fault lamp at once (log 53). -/
theorem test_slot_stale_evaluates_the_data_fault :
    (ask (.slotStale 1) (offered 0 9 90 (tabled (inMode .running)))).intake.dataFault = true ∧
      (ask (.slotStale 1) (offered 0 9 90 (inMode .running))).intake.dataFault = false := by decide +kernel

/-! ## Gauges -/

theorem test_CurveQuantiseAndSlewStagesCompute :
    curve false 5 [⟨10, 100⟩, ⟨20, 105⟩] = 100 ∧ curve false 11 [⟨10, 100⟩, ⟨20, 105⟩] = 101 ∧
      curve false 13 [⟨10, 100⟩, ⟨20, 105⟩] = 102 ∧ curve false 13 [⟨10, 105⟩, ⟨20, 100⟩] = 104 ∧
      curve false 20 [⟨10, 100⟩, ⟨20, 105⟩] = 105 ∧ curve true (-1) [⟨0xFFFE, 0⟩, ⟨0, 9⟩] = 5 ∧
      quantise 167 4000 = 10 ∧ quantise 168 4000 = 11 ∧ quantise 65520 4000 = 4000 ∧
      slewStep 10 12 2 5 = 10 ∧ slewStep 10 13 2 2 = 12 ∧ slewStep 10 13 2 5 = 13 ∧ slewStep 10 0 2 4 = 6 := by
  decide +kernel

theorem test_DampingMovesFilteredTargetTowardTarget :
    damp 0 10 128 = 80 ∧ damp 159 10 128 = 160 ∧ damp 161 10 128 = 160 ∧ damp 160 10 128 = 160 ∧ damp 0 4095 256 = 65520 ∧
      damp 0 1 1 = 1 ∧ Nat.repeat (fun g => damp g 1 1) 16 0 = 16 ∧
      (tabled (inMode .running)).enabledEntry 0 = some (channelEntry true (.slot 1)) ∧
      (ask (.gaugeUpdate []) (pointing .tracking 100 (fed 200 (tabled (inMode .running))))).gauges[0].f = 2400 := by
  decide +kernel

theorem test_GaugeUpdateMovesEachChannelByItsState :
    (ask (.gaugeUpdate [1, 0]) (pointing .tracking 100 (fed 200 (tabled (inMode .running))))).gauges[0].p = 140 ∧
      (ask (.gaugeUpdate []) (pointing .holding 100 (fed 200 (tabled (inMode .running))))).gauges[0].hold = 10 ∧
      (ask (.gaugeUpdate []) ((fed 200 (tabled (inMode .running))).setChannel 0
        { Channel.reset with state := .holding, hold := 90 })).gauges[0].state = .failed ∧
      kept (ask (.gaugeUpdate []) ((fed 200 (tabled (inMode .running))).setChannel 0
        { Channel.reset with state := .holding, hold := 90 })) (msgInputFault 0) .amber = true ∧
      (ask (.gaugeUpdate []) (pointing .failed 100 (fed 200 (tabled (inMode .running))))).gauges[0].t = 300 ∧
      (ask (.gaugeUpdate []) (pointing .sweeping 980 (fed 200 (tabled (inMode .running))))).gauges[0].phase = .return ∧
      (ask (.gaugeUpdate []) ((fed 200 (tabled (inMode .running))).setChannel 0
        { Channel.reset with state := .sweeping, phase := .return, p := 20 })).gauges[0].state = .tracking ∧
      (ask (.gaugeUpdate []) (pointing .parking 100 (fed 200 (tabled (inMode .parking))))).gauges[0].p = 60 ∧
      (ask (.gaugeUpdate []) (pointing .parking 40 (fed 200 (tabled (inMode .parking))))).gauges[0].state = .parked ∧
      (ask (.gaugeUpdate []) (pointing .parked 0 (fed 200 (tabled (inMode .parking))))).gauges[0].state = .parked ∧
      (ask (.gaugeUpdate []) (pointing .parking 40 (rested (fed 200 (tabled (inMode .parking)))))).mode.mode = .dormant ∧
      (ask (.gaugeUpdate []) ((tabled (inMode .running)).setChannel 0
        { Channel.reset with state := .homing, homing := 60 })).gauges[0].homing = 36 ∧
      (ask (.gaugeUpdate []) ((tabled (inMode .running)).setChannel 0
        { Channel.reset with state := .homing, homing := 24, after := .park })).gauges[0].state = .parked := by
  decide +kernel

theorem test_HomingEndsAndHoldTimeExpires :
    (ask (.homingEnd 0) ((tabled (inMode .running)).setChannel 0
        { Channel.reset with state := .homing, homing := 24, after := .sweep })).gauges[0].state = .sweeping ∧
      (ask (.homingEnd 0) ((tabled (inMode .running)).setChannel 0
        { Channel.reset with state := .homing, homing := 25, after := .sweep })).gauges[0].state = .homing ∧
      (ask (.homingEnd 0) ((tabled (inMode .running)).setChannel 0
        { Channel.reset with state := .homing, homing := 24 })).gauges[0].state = .failed ∧
      (ask (.holdTimeExpired 0) ((tabled (inMode .running)).setChannel 0
        { Channel.reset with state := .holding, hold := 90 })).gauges[0].state = .failed ∧
      (ask (.holdTimeExpired 0) ((tabled (inMode .running)).setChannel 0
        { Channel.reset with state := .holding, hold := 89 })).gauges[0].state = .holding := by decide +kernel

/-! ## Lamps and chime -/

theorem test_LampEvaluationFormsDemandsAndOutputs :
    (ask (.lampEvaluation [] []) (fed 7 (tabled (inMode .running)))).lamps.recs[0].operating = .on ∧
      (ask (.lampEvaluation [] []) (fed 7 (tabled (inMode .running)))).lamps.recs[0].lit = true ∧
      (ask (.lampEvaluation [3, 0] []) (fed 7 (tabled (inMode .running)))).lamps.recs[0].riseActive = true ∧
      (ask (.lampEvaluation [] []) (tabled (inMode .running))).lamps.recs[0].operating = .flashSlow ∧
      (ask (.lampEvaluation [] []) (tabled (inMode .limp))).lamps.recs[0].operating = .on ∧
      (ask (.lampEvaluation [] []) (tabled (inMode .unconfigured))).lamps.recs[0].shown = .on ∧
      (ask (.lampEvaluation [] []) ((tabled (inMode .running)).withStore { Store.blank with failed := true })).lamps.recs[1].operating
        ≠ .off ∧
      (tabled (inMode .running)).isTellTale 1 = true ∧ (tabled (inMode .running)).isTellTale 0 = false ∧
      (ask (.lampEvaluation [] [0]) (lamp0 { LampRec.reset with openCount := 4 } (fed 7 (tabled (inMode .running))))).lamps.recs[0].fault
        = .open ∧
      pends (ask (.lampEvaluation [] [0]) (lamp0 { LampRec.reset with openCount := 4 } (fed 7 (tabled (inMode .running))))) .lampFault ∧
      (ask (.lampEvaluation [] []) (lamp0 { LampRec.reset with fault := .open, goodCount := 4 }
        (fed 7 (tabled (inMode .running))))).lamps.recs[0].fault = .none ∧
      (ask (.lampEvaluation [] []) (lamp0 { LampRec.reset with fault := .shortWait, wait := 960 }
        (fed 7 (tabled (inMode .running))))).lamps.recs[0].lit = false ∧
      (ask (.lampEvaluation [] []) (lamp0 { LampRec.reset with fault := .shortWait, wait := 980 }
        (fed 7 (tabled (inMode .running))))).lamps.recs[0].lit = true ∧
      (ask (.lampEvaluation [] []) ((inMode .starting).withLamps { Lamps.reset with bulbTimer := 20 })).mode.mode = .running ∧
      (ask (.lampEvaluation [] []) ((inMode .starting).withLamps { Lamps.reset with bulbTimer := 21 })).mode.mode = .starting := by
  decide +kernel

/-- A rise of lamp 0 sounds its SINGLE and posts its message; its OPEN posts LAMP FAULT, RED with a SINGLE where the
fault tell-tale, lamp 1, is faulty; and a faulty legal lamp demands the tell-tale. -/
theorem test_rises_and_lamp_faults :
    (ask (.lampEvaluation [] []) (fed 7 (tabled (inMode .running)))).chime.playing = .single ∧
      kept (ask (.lampEvaluation [] []) (fed 7 (tabled (inMode .running)))) ⟨9, .lamp, 0⟩ .info = true ∧
      (ask (.lampEvaluation [] []) (fed 7 (tabled (inMode .dormant)))).stack.entries = [] ∧
      kept (ask (.lampEvaluation [] [0]) (lamp0 { LampRec.reset with openCount := 4 } (fed 7 (tabled (inMode .running)))))
        (msgLampFault 0) .amber = true ∧
      (ask (.lampEvaluation [] [0]) (lamp0 { LampRec.reset with openCount := 4 } (fed 7 (tabled (inMode .running))))).lamps.recs[1].operating
        = .on ∧
      (ask (.lampEvaluation [1, 0] [0]) (lamp0 { LampRec.reset with openCount := 4 } (fed 7 (tabled (inMode .running))))).lamps.recs[1].operating
        = .off ∧
      kept (ask (.lampEvaluation [] [0]) ((lamp0 { LampRec.reset with openCount := 4 } (fed 7 (tabled (inMode .running)))).setLamp 1
        { LampRec.reset with fault := .latchedOff })) (msgLampFault 0) .red = true ∧
      kept (ask (.lampEvaluation [1] [0]) ((lamp0 { LampRec.reset with openCount := 4 } (fed 7 (tabled (inMode .running)))).setLamp 1
        { LampRec.reset with fault := .latchedOff })) (msgLampFault 0) .red = true := by decide +kernel

/-- Lamp 0 driven ON in RUNNING with a record, after an evaluation whose sample finds an open load or not. -/
def sampledLamp (r : LampRec) (isOpen : Bool) : LampRec :=
  (ask (.lampEvaluation [] (if isOpen then [0] else [])) (lamp0 r (fed 7 (tabled (inMode .running))))).lamps.recs[0]

/-- A lamp's four counts. -/
def counts (r : LampRec) : List Nat := [r.openCount, r.goodCount, r.shortCount, r.cleanCount]

/-- The four counts of a lamp through its samples (R84, R86), and of a dark lamp. -/
theorem test_sample_counts :
    counts (sampledLamp { LampRec.reset with openCount := 3, shortCount := 2, cleanCount := 3 } false) = [0, 0, 2, 4] ∧
      counts (sampledLamp { LampRec.reset with shortCount := 2, cleanCount := 4 } true) = [1, 0, 0, 5] ∧
      counts (sampledLamp { LampRec.reset with cleanCount := 5 } true) = [1, 0, 0, 5] ∧
      counts (sampledLamp { LampRec.reset with openCount := 4, goodCount := 3 } true) = [0, 0, 0, 1] ∧
      counts (sampledLamp { LampRec.reset with fault := .open, goodCount := 3 } true) = [0, 0, 0, 1] ∧
      counts (sampledLamp { LampRec.reset with fault := .open, goodCount := 4 } false) = [0, 0, 0, 1] ∧
      counts (sampledLamp { LampRec.reset with fault := .latchedOff, openCount := 2, goodCount := 1, shortCount := 3 } false) =
        [2, 1, 3, 0] := by decide +kernel

/-- LATCHED_OFF ends at the entry into STARTING, and with it LAMP FAULT, without a cause (R86, R89). -/
theorem test_latched_lamp_restarts :
    (ask .ignitionOnEvent ((lamp0 { LampRec.reset with fault := .latchedOff, shortCount := 3, previous := .on }
        (stacked [entry 241 .lamp .amber .acked true 1 0] (tabled (inMode .dormant)))).withMode
          ⟨.dormant, false, 100, .hard, true, none, 0⟩)).lamps.recs[0] = LampRec.reset ∧
      (ask .ignitionOnEvent ((lamp0 { LampRec.reset with fault := .latchedOff, shortCount := 3 }
        (stacked [entry 241 .lamp .amber .acked true 1 0] (tabled (inMode .dormant)))).withMode
          ⟨.dormant, false, 100, .hard, true, none, 0⟩)).stack.entries = [] ∧
      bit (ask .ignitionOnEvent ((lamp0 { LampRec.reset with fault := .latchedOff, shortCount := 3 }
        (tabled (inMode .dormant))).withMode ⟨.dormant, false, 100, .hard, true, none, 0⟩)).link.causes 8 = false := by
  decide +kernel

theorem test_OvercurrentWaitsOrLatches :
    (ask (.overcurrent 0) (lamp0 { LampRec.reset with lit := true } (tabled (inMode .running)))).lamps.recs[0].fault = .shortWait ∧
      (ask (.overcurrent 0) (lamp0 { LampRec.reset with lit := true, shortCount := 2 } (tabled (inMode .running)))).lamps.recs[0].fault
        = .latchedOff ∧
      kept (ask (.overcurrent 0) (lamp0 { LampRec.reset with lit := true, shortCount := 2 } (tabled (inMode .running))))
        (msgLampFault 0) .amber = true ∧
      kept (ask (.overcurrent 0) ((lamp0 { LampRec.reset with lit := true, fault := .open } (tabled (inMode .running))).withStack
        ⟨[⟨msgLampFault 0, .amber, .shown, true, 1, 0⟩], 1, []⟩)) (msgLampFault 0) .amber = false ∧
      (tabled (inMode .running)).legal 0 = true ∧
      (ask (.shortWaitEnd 0) (lamp0 { LampRec.reset with fault := .shortWait, wait := 980, shown := .on } (inMode .running))).lamps.recs[0]
        = { LampRec.reset with shown := .on, lit := true } ∧
      (ask (.shortWaitEnd 0) (lamp0 { LampRec.reset with fault := .shortWait, wait := 979 } (inMode .running))).lamps.recs[0].fault
        = .shortWait := by decide +kernel

/-- STARTING with a bulb check that ends; a settling channel or none. -/
def checking (s : State) : State := s.withLamps { Lamps.reset with bulbTimer := 20 }

theorem test_LampTimersAndTestAct :
    due (strip .running [0x60, 100]) .one .testLamps ∧
      (ask .testLamps (strip .running [0x60, 100])).lamps.testTimer = 10000 ∧
      (ask .testLamps (strip .limp [0x60, 1])).lamps.testTimer = 100 ∧
      result (ask .testLamps (strip .running [0x60, 0])) 1 = 0x0200 ∧
      result (ask .testLamps (strip .running [0x60, 101])) 1 = 0x0200 ∧
      result (ask .testLamps (strip .dormant [0x60, 1])) 1 = 0x0500 ∧
      (ask .lampTestEnd ((inMode .running).withLamps { Lamps.reset with testTimer := 20 })).lamps.testTimer = 0 ∧
      (ask .lampTestEnd ((inMode .running).withLamps { Lamps.reset with testTimer := 21 })).lamps.testTimer = 21 ∧
      (checking (inMode .starting)).settling = false ∧
      (ask .bulbCheckOver (checking (inMode .starting))).mode.mode = .running ∧
      (pointing .sweeping 9 (tabled (checking (inMode .starting)))).settling = true ∧
      (ask .bulbCheckOver (pointing .sweeping 9 (tabled (checking (inMode .starting))))).mode.mode = .starting ∧
      (ask .flashEdge (lamp0 { LampRec.reset with shown := .flashSlow, lit := true }
        ((inMode .running).withLamps { Lamps.reset with phase := 499 }))).lamps.recs[0].lit = false ∧
      (ask .flashEdge (lamp0 { LampRec.reset with shown := .flashFast }
        ((inMode .running).withLamps { Lamps.reset with phase := 499 }))).lamps.recs[0].lit = true ∧
      (ask .flashEdge ((inMode .running).withLamps { Lamps.reset with phase := 498 })).lamps.phase = 498 ∧
      (ask .flashEdge ((inMode .running).withLamps { Lamps.reset with phase := 999 })).lamps.phase = 0 := by decide +kernel

theorem test_ChimeSoundsEndAndRepeat :
    (ask .singleEnd ((inMode .running).withChime ⟨.single, 600, false, true⟩)).chime = ⟨.single, 0, false, false⟩ ∧
      (ask .singleEnd ((inMode .running).withChime ⟨.single, 600, false, false⟩)).chime = ⟨.silent, 0, false, false⟩ ∧
      (ask .singleEnd ((inMode .running).withChime ⟨.single, 599, false, false⟩)).chime = ⟨.single, 599, false, false⟩ ∧
      (ask .clickEnd ((inMode .running).withChime ⟨.click, 20, false, false⟩)).chime = ⟨.silent, 0, false, false⟩ ∧
      (ask .clickEnd ((inMode .running).withChime ⟨.click, 19, false, false⟩)).chime = ⟨.click, 19, false, false⟩ ∧
      (ask .continuousToneEdge ((inMode .running).withChime ⟨.continuous, 499, true, false⟩)).chime.tone = false ∧
      (ask .continuousToneEdge ((inMode .running).withChime ⟨.continuous, 498, true, false⟩)).chime.tone = true ∧
      (ask .continuousToneEdge ((inMode .running).withChime ⟨.continuous, 999, true, false⟩)).chime.tone = true := by
  decide +kernel

/-! ## Panel, keys, ignition -/

theorem test_PanelRefreshShowsViewAndReports :
    (ask .panelRefresh (inMode .unconfigured)).panel.view = .text ∧
      ((ask .panelRefresh (inMode .unconfigured)).panel.image.take 11) = "CLUSTER NOT".toList.map Char.toNat ∧
      ((ask .panelRefresh (inMode .starting)).panel.image.take 7) = "ISJEDRA".toList.map Char.toNat ∧
      (ask .panelRefresh (tabled (inMode .starting))).panel.image = List.replicate 40 0x41 ∧
      (ask .panelRefresh (inMode .dormant)).panel.backlight = false ∧
      (ask .panelRefresh (inMode .running)).panel.view = .page ∧
      ((ask .panelRefresh (inMode .running)).panel.image.take 16) = "PANEL NOT LOADED".toList.map Char.toNat ∧
      (ask .panelRefresh (stacked [entry 2 .link .amber .new true 1 0] (inMode .running))).panel.displayed = some ⟨2, .link, 0⟩ ∧
      (ask .panelRefresh (stacked [entry 2 .link .amber .new true 1 0] (inMode .running))).stack.entries =
        [entry 2 .link .amber .shown true 1 0] ∧
      (ask .panelRefresh (stacked [entry 2 .link .amber .acked true 1 0] (inMode .limp))).panel.view = .page ∧
      (ask .panelRefresh (stacked [entry 2 .link .amber .new true 1 0, entry 3 .link .red .new true 2 0]
        (inMode .running))).panel.displayed = some ⟨3, .link, 0⟩ := by decide +kernel

/-- A page with the speed in six cells and the trip of item 3 in five. -/
def fieldPage : Page :=
  ⟨List.replicate 40 0x2E, .dist, false, none,
    [⟨⟨0, 0, 6, .number 2⟩, none, 0, false, 1, 0⟩, ⟨⟨0, 8, 5, .number 2⟩, none, 1, false, 1, 2⟩]⟩

/-- 85.24 km/h and a trip of 0.05 on a page (R146's worked formatting). -/
theorem test_page_fields_are_rendered :
    ((ask .panelRefresh ((windowed 0 0 8524 (driven (inMode .running))).withTables
      { Tables.reset with panel := some { panelTable with pages := [fieldPage] } })).panel.image.take 14) =
        " 85.24.. 0.05.".toList.map Char.toNat := by decide +kernel

/-- The page passes the table's checks, and NUMBER, DURATION, CLOCK and dashes are formatted as the spec has it. -/
theorem test_fields_are_formatted :
    fieldPage.text.length = 40 ∧ (∀ f ∈ fieldPage.fields, f.place.fits) ∧
      renderNumber 6 2 (-5) = codes " -0.05" ∧ renderNumber 3 0 (-999) = codes "999" ∧ renderNumber 4 0 0 = codes "   0" ∧
      renderDuration 5 125 = codes " 2:05" ∧ renderDuration 4 600 = codes "9:59" ∧ renderDuration 4 (-1) = codes "----" ∧
      renderClock 6 1501 = codes " 01:01" ∧ renderBar 4 0x23 10 5 = codes "##  " ∧
      panelTable.placeField (codes "ABCDEFGH") ⟨0, 2, 3, .number 0⟩ none = codes "AB---FGH" := by
  refine ⟨rfl, ?_, ?_⟩
  · simp [fieldPage, FieldPlace.fits]
  · decide +kernel

theorem test_built_in_message_text :
    (ask .panelRefresh (stacked [entry 2 .gauge .amber .new true 1 0] (inMode .running))).panel.image =
      codes "MESSAGE 002         GAUGE 0             " ∧
    (ask .panelRefresh (stacked [entry 2 .gauge .amber .new true 1 0] ((inMode .running).withTables
      { Tables.reset with panel := some { panelTable with
        texts := [⟨2, List.replicate 40 0x41, some ⟨1, 0, 3, .number 0⟩⟩] } }))).panel.image =
      codes "AAAAAAAAAAAAAAAAAAAA  0AAAAAAAAAAAAAAAAA" := by decide +kernel

/-- The items of the field spaces, and those beyond a space's size. -/
theorem test_items_of_the_spaces :
    (driven (inMode .running)).spaceItem .dist 0 = some 0 ∧ (inMode .running).spaceItem .dist 0 = none ∧
      (driven (inMode .running)).spaceItem .dist 4 = some 2000 ∧ (driven (inMode .running)).spaceItem .dist 8 = none ∧
      (pointing .tracking 345 (inMode .running)).spaceItem .gauge 1 = some 345 ∧
      (pointing .failed 345 (inMode .running)).spaceItem .gauge 0 = none ∧
      (fed 9 (tabled (inMode .running))).spaceItem .slot 1 = some 9 ∧
      (inMode .running).spaceItem .slot 1 = none ∧
      (driving (inMode .running)).spaceItem .driver1 1 = some 77 ∧ (driving (inMode .running)).spaceItem .driver1 4 = some 200 ∧
      (driving (inMode .running)).spaceItem .driver2 2 = none ∧ (driving (inMode .running)).spaceItem .driver1 16 = none ∧
      (driving (inMode .running)).spaceItem .clock 2 = some 0 ∧ (inMode .running).spaceItem .clock 0 = none := by
  decide +kernel

/-- A key's debouncer in the PAGE view. -/
def keyAt (k : Key) (d : Debouncer) (s : State) : State := (s.withPanel { s.panel with view := .page }).setDebouncer k d

theorem test_KeysDebounceAndAct :
    (ask (.keyInput .ok true) (inMode .running)).panel.keyOk.input = true ∧
      (ask (.acceptedPress .up) (keyAt .up ⟨true, false, 30, 0, true⟩ (inMode .running))).panel.keyUp = ⟨true, true, 0, 0, false⟩ ∧
      (ask (.acceptedRelease .up 0) (keyAt .up ⟨false, true, 30, 500, true⟩ (inMode .running))).panel.queue = [] ∧
      (ask (.acceptedRelease .up 0) (keyAt .up ⟨false, true, 30, 500, false⟩ (tabled (inMode .running)))).panel.queue =
        [⟨.up, false, 0⟩] ∧
      (ask (.acceptedPress .up) (keyAt .up ⟨true, false, 29, 0, true⟩ (inMode .running))).panel.keyUp.level = false ∧
      (ask (.acceptedRelease .up 0) (keyAt .up ⟨false, true, 29, 500, false⟩ (tabled (inMode .running)))).panel.queue = [] ∧
      (ask (.acceptedRelease .up 1000) (keyAt .up ⟨false, true, 29, 500, false⟩ (tabled (inMode .running)))).panel.queue =
        [⟨.up, false, 1⟩] ∧
      (ask (.longKeyEvent .ok 0) (keyAt .ok ⟨true, true, 0, 999, false⟩ (inMode .running))).panel.queue = [] ∧
      (ask (.longKeyEvent .ok 1000) (keyAt .ok ⟨true, true, 0, 999, false⟩ (inMode .running))).panel.queue =
        [⟨.ok, true, 1⟩] ∧
      (ask (.acceptedRelease .up 0) (keyAt .up ⟨false, true, 30, 500, false⟩ (tabled (inMode .running)))).panel.selected = 1 ∧
      (ask (.acceptedRelease .down 0) (keyAt .down ⟨false, true, 30, 500, false⟩ (inMode .running))).panel.selected = 0 ∧
      (ask (.longKeyEvent .ok 0) (keyAt .ok ⟨true, true, 0, 1000, false⟩ (driven ((tabled (inMode .running)).withPanel
        { (inMode .running).panel with selected := 1 })))).speed.tripB = 0 ∧
      (ask (.acceptedRelease .ok 0) (keyAt .ok ⟨false, true, 30, 500, false⟩ ((tabled (inMode .running)).withPanel
        { (inMode .running).panel with selected := 1 }))).panel.indexMode = true ∧
      (ask (.acceptedRelease .ok 0) (((stacked [entry 2 .link .amber .shown true 1 0] (inMode .running)).withPanel
        { (inMode .running).panel with view := .message, displayed := some ⟨2, .link, 0⟩ }).setDebouncer .ok
          ⟨false, true, 30, 500, false⟩)).stack.entries = [entry 2 .link .amber .acked true 1 0] := by decide +kernel

/-- OK SHORT with an entry displayed, which is the view-top or not; the PANEL table enables the click. -/
def okShort (es : List Entry) (displayed : Nat) : State :=
  ask (.acceptedRelease .ok 0) ((stacked es ((tabled (inMode .running)).withPanel
    { (inMode .running).panel with view := .message, displayed := some ⟨displayed, .link, 0⟩, index := 3 })).setDebouncer .ok
      ⟨false, true, 30, 500, false⟩)

/-- A key event acts on the displayed entry only while it is the view-top and SHOWN (R130), clicks (R150), and keeps the
page index where it turns no page (R151). -/
theorem test_key_events_click_and_spare_messages :
    (okShort [entry 2 .link .amber .shown true 1 0] 2).stack.entries = [entry 2 .link .amber .acked true 1 0] ∧
      (okShort [entry 2 .link .amber .shown true 1 0] 2).chime.playing = .click ∧
      (okShort [entry 2 .link .amber .shown true 1 0, entry 3 .link .red .new true 2 0] 2).stack.entries =
        [entry 2 .link .amber .shown true 1 0, entry 3 .link .red .new true 2 0] ∧
      (okShort [entry 2 .link .amber .new true 1 0] 2).stack.entries = [entry 2 .link .amber .new true 1 0] ∧
      (okShort [entry 2 .link .amber .new true 1 0] 2).panel.index = 3 ∧
      (ask (.acceptedRelease .back 0) (keyAt .back ⟨false, true, 30, 500, false⟩ ((tabled (inMode .running)).withPanel
        { (inMode .running).panel with selected := 1, index := 4, indexMode := true }))).panel.index = 4 ∧
      (ask (.acceptedRelease .down 0) (keyAt .down ⟨false, true, 30, 500, false⟩ ((tabled (inMode .running)).withPanel
        { (inMode .running).panel with selected := 1, index := 4 }))).panel.index = 0 ∧
      (ask (.acceptedRelease .down 0) (keyAt .down ⟨false, true, 30, 500, false⟩ (inMode .running))).chime.playing =
        .silent := by decide +kernel

/-- The ignition input has been at a level, the other one than the ignition state's, for a time. -/
def switched (on : Bool) (ms : Nat) (s : State) : State :=
  s.withMode { s.mode with ignInput := on, ignition := !on, settle := ms }

theorem test_IgnitionMovesTheMode :
    (ask (.ignInput true) State.reset).mode.ignInput = true ∧
      (ask .ignitionOnEvent (switched true 100 (inMode .unconfigured))).mode.mode = .unconfigured ∧
      (ask .ignitionOnEvent (switched true 100 (inMode .unconfigured))).mode.ignition = true ∧
      (ask .ignitionOnEvent (switched true 99 (inMode .unconfigured))).mode.ignition = false ∧
      (ask .ignitionOnEvent (switched true 100 (pointing .parking 50 (tabled (inMode .parking))))).gauges[0].state = .failed ∧
      (ask .ignitionOnEvent (switched true 100 (pointing .parked 0 (tabled (inMode .dormant))))).gauges[0].state = .sweeping ∧
      (ask .ignitionOnEvent (switched true 100 (inMode .dormant))).mode.mode = .starting ∧
      (ask .ignitionOffEvent (switched false 100 (inMode .unconfigured))).mode.mode = .unconfigured ∧
      (ask .ignitionOffEvent (switched false 99 (inMode .running))).mode.mode = .running ∧
      (ask .ignitionOffEvent (switched false 100 (pointing .tracking 50 (tabled (inMode .running))))).gauges[0].state = .parking ∧
      (ask .ignitionOffEvent (switched false 100 (pointing .homing 0 (tabled (inMode .limp))))).gauges[0].after = .park ∧
      (ask .ignitionOffEvent (switched false 100 (inMode .running))).mode.mode = .parking ∧
      (ask .ignitionOffEvent (switched false 100 (inMode .running))).store.busy = true ∧
      (ask .ignitionOffEvent (switched false 100
        ((rested (inMode .starting)).withStore { Store.blank with failed := true }))).mode.mode = .dormant := by
  decide +kernel

/-! ## The invariants hold, and fail to hold, somewhere -/

theorem test_invariants_are_met_and_missed :
    Engine.legal ⟨.running, .queued, 5, 3, none⟩ ∧ ¬Engine.legal ⟨.free, .queued, 1, 0, none⟩ ∧
      Stack.withinCapacity ⟨ambers 12, 12, []⟩ ∧ ¬Stack.withinCapacity ⟨ambers 13, 13, []⟩ ∧
      ¬Stack.withinCapacity ⟨ambers 3, 2, []⟩ ∧ (tabled (inMode .running)).stack.withinCapacity ∧
      (stacked [entry 2 .link .red .shown false 1 0] (inMode .running)).stack.withinCapacity ∧
      (driving (inMode .running)).hours.oneDrives ∧
      ¬(crewed 300 (some ⟨.drive, 100⟩) (some ⟨.drive, 100⟩) none State.reset).hours.oneDrives ∧
      (ignited true (inMode .running)).mode.ignitionFits ∧ ¬(inMode .running).mode.ignitionFits ∧
      Memory.wf [(1, 5), (4095, 1)] = true ∧ Memory.wf [(5, 5), (1, 1)] = false ∧ Memory.wf [(5, 0)] = false ∧
      Memory.wf [(4096, 1)] = false := by
  unfold Engine.legal Stack.withinCapacity Hours.oneDrives ModeControl.ignitionFits
  refine ⟨?_, ?_, ?_, ?_, ?_, ?_, ?_, ?_, ?_, ?_, ?_, ?_, ?_, ?_, ?_⟩ <;> first | decide +kernel | (show _ = _; rfl) | (intro h; cases h)

end Sys2Proof.Tests
end

section
/-! SUPPORT. Causes that an event raises, and what the stack's events do to them (R134, R182). -/

namespace Sys2Proof.Machine

/-- From `s` to `t` the link port differs in its causes alone: none has been withdrawn, and of those that are not
listed none has been raised. -/
structure Raises (listed : List Cause) (s t : State) : Prop where
  link : t.link = { s.link with causes := t.link.causes }
  pends : ∀ c, pends s c → pends t c
  others : ∀ c, c ∉ listed → bit t.link.causes c.place = bit s.link.causes c.place

/-- A link port that stays raises nothing. -/
theorem Raises.of_link {listed : List Cause} {s t : State} (h : t.link = s.link) : Raises listed s t :=
  ⟨by rw [h], fun _ hc => by unfold Machine.pends; rwa [h], fun _ _ => by rw [h]⟩

theorem Raises.refl (listed : List Cause) (s : State) : Raises listed s s := .of_link rfl

theorem Raises.trans {listed : List Cause} {a b c : State} (h : Raises listed a b) (k : Raises listed b c) :
    Raises listed a c :=
  ⟨by rw [k.link, h.link], fun x hx => k.pends x (h.pends x hx), fun x hx => (k.others x hx).trans (h.others x hx)⟩

theorem Raises.mono {listed more : List Cause} {s t : State} (h : Raises listed s t) (le : listed ⊆ more) :
    Raises more s t :=
  ⟨h.link, h.pends, fun c hc => h.others c fun m => hc (le m)⟩

/-- Two causes have two places. -/
theorem Cause.place_inj {c d : Cause} (h : c.place = d.place) : c = d := by
  cases c <;> cases d <;> simp_all [Cause.place]

theorem raises_raise {listed : List Cause} (s : State) {c : Cause} (h : c ∈ listed) : Raises listed s (s.raise c) where
  link := rfl
  pends d hd := pends_raise_of s d c hd
  others d hd := by
    have ne : d.place ≠ c.place := fun e => hd (Cause.place_inj e ▸ h)
    rw [State.raise_link, bit_raise, decide_eq_false ne, Bool.or_false]

theorem raises_setMode {listed : List Cause} (s : State) (m : DeviceMode) (h : Cause.modeChange ∈ listed) :
    Raises listed s (s.setMode m) := by
  have put : Raises listed s (s.withMode { s.mode with mode := m }) := .of_link rfl
  exact put.trans (raises_raise _ h)

/-- An event of the stack raises MESSAGE_CHANGE at most. -/
theorem raises_takeStack {listed : List Cause} (s : State) (r : Stack × List Severity)
    (h : Cause.messageChange ∈ listed) : Raises listed s (s.takeStack r) := by
  by_cases changed : (s.stack.changed r.1 || !r.2.isEmpty) = true
  · have link : (s.takeStack r).link = (s.raise .messageChange).link := if_pos changed
    exact (raises_raise s h).trans (.of_link link)
  · exact .of_link (if_neg changed)

end Sys2Proof.Machine
end

section
/-! SUPPORT. One channel's turn in an event of the gauge unit: what it leaves of the other channels, of the causes and
of the messages that are not its own (R40, R48 to R51). -/

namespace Sys2Proof.Machine

/-- A message of channel `c`: its input fault (R51), or one that a watcher of the channel may name (R50). -/
def ownMessage (c : Fin 8) (id : Identity) : Prop :=
  id = msgInputFault c ∨ ∃ code w, id = ⟨code, .gauge, watcherNumber c w⟩

/-- The statements' number of a watcher is the model's. -/
theorem watcherIndex_eq (c : Fin 8) (w : Watcher) : watcherIndex c w = watcherNumber c w := by
  cases w <;> rfl

/-- The two watchers of the eight channels have sixteen numbers. -/
theorem watcherNumber_inj {c d : Fin 8} {w v : Watcher} (h : watcherNumber c w = watcherNumber d v) :
    c = d ∧ w = v := by
  cases w <;> cases v <;> simp only [watcherNumber] at h
  · exact ⟨Fin.ext (by omega), rfl⟩
  · omega
  · omega
  · exact ⟨Fin.ext (by omega), rfl⟩

/-- A message of a unit other than the gauge unit is no channel's own. -/
theorem not_ownMessage_of_origin {c : Fin 8} {id : Identity} (h : id.origin ≠ .gauge) : ¬ownMessage c id := by
  rintro (rfl | ⟨code, w, rfl⟩) <;> exact h rfl

/-- A watcher's message, whose code lies below the part's own codes (R35), is not another channel's own. -/
theorem not_ownMessage_of_ne {c d : Fin 8} (ne : c ≠ d) {code : Nat} (hcode : code < 240) (w : Watcher) :
    ¬ownMessage d ⟨code, .gauge, watcherNumber c w⟩ := by
  rintro (h | ⟨code', v, h⟩)
  · have : code = 245 := congrArg Identity.code h
    omega
  · exact ne (watcherNumber_inj (congrArg Identity.arg h)).1

/-- What the turn of channel `c` leaves alone. -/
structure TurnOf (c : Fin 8) (s t : State) : Prop where
  tables : t.tables = s.tables
  intake : t.intake = s.intake
  others : ∀ d, d ≠ c → t.gauges[d] = s.gauges[d]
  raises : Raises [.messageChange] s t
  single : s.stack.single → t.stack.single
  spares : s.stack.single → ∀ id, ¬ownMessage c id → Stack.Spares s.stack t.stack id

theorem TurnOf.refl (c : Fin 8) (s : State) : TurnOf c s s :=
  ⟨rfl, rfl, fun _ _ => rfl, .refl _ s, id, fun _ _ _ => .refl _ _⟩

theorem TurnOf.trans {c : Fin 8} {a b d : State} (h : TurnOf c a b) (k : TurnOf c b d) : TurnOf c a d where
  tables := k.tables.trans h.tables
  intake := k.intake.trans h.intake
  others x hx := (k.others x hx).trans (h.others x hx)
  raises := h.raises.trans k.raises
  single x := k.single (h.single x)
  spares x id hid := (h.spares x id hid).trans (k.spares (h.single x) id hid)

/-- A channel's record replaced. -/
theorem turnOf_setChannel (s : State) (c : Fin 8) (ch : Channel) : TurnOf c s (s.setChannel c ch) :=
  ⟨rfl, rfl, fun d ne => getElem_putAt_ne s.gauges c d ch ne, .of_link rfl, id, fun _ _ _ => .refl _ _⟩

/-- A post of a channel's own message. -/
theorem turnOf_post (s : State) {c : Fin 8} {id : Identity} (own : ownMessage c id) (sev : Severity) :
    TurnOf c s (s.post id sev) := by
  have unit : id.origin ≠ .link := by
    obtain rfl | ⟨code, w, rfl⟩ := own <;> simp [msgInputFault]
  exact ⟨rfl, rfl, fun _ _ => rfl, raises_takeStack s _ (by simp), fun h => (State.post_spec h id sev unit).1,
    fun h other ho => (State.post_spec h id sev unit).2.2 other fun e => ho (e ▸ own)⟩

/-- A clear of a channel's own message. -/
theorem turnOf_clear (s : State) {c : Fin 8} {id : Identity} (own : ownMessage c id) : TurnOf c s (s.clear id) :=
  ⟨rfl, rfl, fun _ _ => rfl, raises_takeStack s _ (by simp), fun h => (State.clear_spec h id).1,
    fun h other ho => (State.clear_spec h id).2.2 other fun e => ho (e ▸ own)⟩

theorem turnOf_faultMessage (s : State) (c : Fin 8) (old new : ChannelState) :
    TurnOf c s (s.faultMessage c old new) := by
  unfold State.faultMessage
  split
  · exact turnOf_post s (.inl rfl) .amber
  · split
    · exact turnOf_clear s (.inl rfl)
    · exact .refl c s

theorem turnOf_enterWith (s : State) (c : Fin 8) (ch : Channel) (st : ChannelState) :
    TurnOf c s (s.enterWith c ch st) :=
  (turnOf_setChannel s c _).trans (turnOf_faultMessage _ c _ st)

theorem turnOf_watcherMessage (s : State) (c : Fin 8) (w : Watcher) (e : WatcherEntry) (old new : Bool) :
    TurnOf c s (s.watcherMessage c w e old new) := by
  unfold State.watcherMessage
  split
  · exact .refl c s
  · rename_i code sev _
    split
    · exact turnOf_post s (.inr ⟨code, w, rfl⟩) sev
    · split
      · exact turnOf_clear s (.inr ⟨code, w, rfl⟩)
      · exact .refl c s

theorem turnOf_setAlarm (s : State) (c : Fin 8) (e : GaugeEntry) (w : Watcher) (b : Bool) :
    TurnOf c s (s.setAlarm c e w b) :=
  (turnOf_setChannel s c _).trans (turnOf_watcherMessage _ c w _ _ b)

end Sys2Proof.Machine
end

section
/-! SUPPORT. Both watchers of a channel take a state: a judged input and a fail state are two cases of it (R48 to
R50). -/

namespace Sys2Proof.Machine

/-- Both watchers of channel `c` take a state, watcher 0 first. -/
def State.setAlarms (s : State) (c : Fin 8) (e : GaugeEntry) (alarm : Watcher → Bool) : State :=
  (s.setAlarm c e .zero (alarm .zero)).setAlarm c e .one (alarm .one)

/-- The channel's record after one of its watchers has taken a state. -/
theorem setAlarm_channel (s : State) (c : Fin 8) (e : GaugeEntry) (w : Watcher) (b : Bool) :
    (s.setAlarm c e w b).gauges[c] = s.gauges[c].withAlarm w b := by
  simp [State.setAlarm]

@[simp] theorem withAlarm_alarm (ch : Channel) (w : Watcher) : ch.withAlarm w (ch.alarm w) = ch := by
  cases w <;> rfl

@[simp] theorem alarm_withAlarm (ch : Channel) (w v : Watcher) (b : Bool) :
    (ch.withAlarm w b).alarm v = if v = w then b else ch.alarm v := by
  cases w <;> cases v <;> rfl

/-- A watcher that takes the state it has changes nothing. -/
theorem setAlarm_same (s : State) (c : Fin 8) (e : GaugeEntry) (w : Watcher) :
    s.setAlarm c e w (s.gauges[c].alarm w) = s := by
  have record : s.setChannel c (s.gauges[c].withAlarm w (s.gauges[c].alarm w)) = s := by
    rw [withAlarm_alarm]
    simp [State.setChannel]
  unfold State.setAlarm State.watcherMessage
  rw [record]
  cases (e.watcher w).message <;> cases s.gauges[c].alarm w <;> rfl

/-- The message of a watcher that takes a state follows it, and only its own (R50). -/
theorem setAlarm_follows (s : State) (h : s.stack.single) (c : Fin 8) (e : GaugeEntry) (w : Watcher) (b : Bool) :
    (∀ code sev, (e.watcher w).message = some (code, sev) →
      Follows s (s.setAlarm c e w b) ⟨code, .gauge, watcherNumber c w⟩ sev (s.gauges[c].alarm w) b) ∧
    ∀ v code, v ≠ w → Stack.Spares s.stack (s.setAlarm c e w b).stack ⟨code, .gauge, watcherNumber c v⟩ := by
  have other : ∀ (v : Watcher) (code code' : Nat), v ≠ w →
      (⟨code, .gauge, watcherNumber c v⟩ : Identity) ≠ ⟨code', .gauge, watcherNumber c w⟩ := fun v _ _ ne he =>
    ne (watcherNumber_inj (congrArg Identity.arg he)).2
  unfold State.setAlarm State.watcherMessage
  generalize hs : s.setChannel c (s.gauges[c].withAlarm w b) = u
  have hu : u.stack = s.stack := hs ▸ rfl
  have single : u.stack.single := hu ▸ h
  cases (e.watcher w).message with
  | none => exact ⟨by simp, fun v code _ => hu ▸ .refl _ _⟩
  | some m =>
    obtain ⟨code, sev⟩ := m
    have unit : (⟨code, .gauge, watcherNumber c w⟩ : Identity).origin ≠ .link := by simp
    obtain ⟨p1, p2, p3⟩ := State.post_spec single ⟨code, .gauge, watcherNumber c w⟩ sev unit
    obtain ⟨c1, c2, c3⟩ := State.clear_spec single ⟨code, .gauge, watcherNumber c w⟩
    rw [hu] at p3 c3
    suffices step : Follows s _ ⟨code, .gauge, watcherNumber c w⟩ sev (s.gauges[c].alarm w) b from
      ⟨fun code' sev' he => by cases he; exact step, fun v code' ne => step.spares _ (other v code' code ne)⟩
    cases s.gauges[c].alarm w <;> cases b
    · exact ⟨single, by simp, by simp, fun _ _ => hu ▸ .refl _ _⟩
    · exact ⟨p1, fun _ _ => p2, by simp, p3⟩
    · exact ⟨c1, by simp, fun _ _ => c2, c3⟩
    · exact ⟨single, by simp, by simp, fun _ _ => hu ▸ .refl _ _⟩

/-- The messages of both watchers of channel `c` have followed their states, in a stack that holds no identity twice. -/
def WatcherMessages (s t : State) (c : Fin 8) (e : GaugeEntry) : Prop :=
  s.stack.single → ∀ w code sev, (e.watcher w).message = some (code, sev) → code < 240 →
    (s.gauges[c].alarm w = false → t.gauges[c].alarm w = true →
      t.stack.keeps ⟨code, .gauge, watcherNumber c w⟩ sev) ∧
    (s.gauges[c].alarm w = true → t.gauges[c].alarm w = false →
      t.stack.dropped ⟨code, .gauge, watcherNumber c w⟩)

/-- What both watchers' turn leaves of their channel. -/
theorem setAlarms_channel (s : State) (c : Fin 8) (e : GaugeEntry) (alarm : Watcher → Bool) :
    (s.setAlarms c e alarm).gauges[c] = { s.gauges[c] with alarm0 := alarm .zero, alarm1 := alarm .one } := by
  rw [State.setAlarms, setAlarm_channel, setAlarm_channel]
  rfl

theorem setAlarms_alarm (s : State) (c : Fin 8) (e : GaugeEntry) (alarm : Watcher → Bool) (w : Watcher) :
    (s.setAlarms c e alarm).gauges[c].alarm w = alarm w := by
  rw [setAlarms_channel]
  cases w <;> rfl

theorem turnOf_setAlarms (s : State) (c : Fin 8) (e : GaugeEntry) (alarm : Watcher → Bool) :
    TurnOf c s (s.setAlarms c e alarm) :=
  (turnOf_setAlarm s c e .zero _).trans (turnOf_setAlarm _ c e .one _)

theorem setAlarms_messages (s : State) (c : Fin 8) (e : GaugeEntry) (alarm : Watcher → Bool) :
    WatcherMessages s (s.setAlarms c e alarm) c e := by
  intro h w code sev hm _
  rw [setAlarms_alarm]
  obtain ⟨own0, spare1⟩ := setAlarm_follows s h c e .zero (alarm .zero)
  have h0 := (turnOf_setAlarm s c e .zero (alarm .zero)).single h
  obtain ⟨own1, spare0⟩ := setAlarm_follows _ h0 c e .one (alarm .one)
  cases w with
  | zero =>
    have follows := own0 code sev hm
    have spares := spare0 .zero code (by decide)
    exact ⟨fun x y => spares.keeps sev (by simp) (follows.rises x y), fun x y => spares.dropped (follows.falls x y)⟩
  | one =>
    have follows := own1 code sev hm
    rw [setAlarm_channel, alarm_withAlarm, if_neg (by decide)] at follows
    exact ⟨follows.rises, follows.falls⟩

/-- What a source shows is a matter of the intake and the speed unit. -/
theorem sourceSigned_congr {s t : State} (src : Source) (hi : t.intake = s.intake) :
    t.sourceSigned src = s.sourceSigned src := by
  cases src with
  | slot i => simp only [State.sourceSigned, State.slotRec, hi]
  | speed => rfl

theorem sourceInput_congr {s t : State} (src : Source) (hi : t.intake = s.intake) (hv : t.speed = s.speed) :
    t.sourceInput src = s.sourceInput src := by
  cases src with
  | slot i => simp only [State.sourceInput, State.sourceSigned, State.slotRec, hi]
  | speed => simp only [State.sourceInput, hv]

/-- Armed watchers judge an input (R48). -/
theorem evaluateWatchers_eq (s : State) (c : Fin 8) (e : GaugeEntry) (x : Int) (h : s.gauges[c].armed = true) :
    s.evaluateWatchers c e x =
      s.setAlarms c e fun w => (e.watcher w).judge (s.sourceSigned e.source) (s.gauges[c].alarm w) x := by
  have signed : ∀ b, (s.setAlarm c e .zero b).sourceSigned e.source = s.sourceSigned e.source := fun b =>
    sourceSigned_congr e.source (State.setAlarm_intake ..)
  have alarm : ∀ b, (s.setAlarm c e .zero b).gauges[c].alarm .one = s.gauges[c].alarm .one := by
    intro b
    rw [setAlarm_channel, alarm_withAlarm, if_neg (by decide)]
  rw [State.evaluateWatchers, if_pos h]
  unfold State.evaluateWatcher
  rw [signed, alarm]
  rfl

/-- The fail state of a watcher, as a state that it takes (R49). -/
theorem failWatcher_eq (s : State) (c : Fin 8) (e : GaugeEntry) (w : Watcher) :
    s.failWatcher c e w = s.setAlarm c e w (s.gauges[c].alarm w || (e.watcher w).alarmOnFail) := by
  unfold State.failWatcher
  split <;> rename_i h
  · rw [h, Bool.or_true]
  · rw [Bool.eq_false_iff.2 h, Bool.or_false, setAlarm_same]

/-- The fail states of armed watchers (R49). -/
theorem failWatchers_eq (s : State) (c : Fin 8) (e : GaugeEntry) (h : s.gauges[c].armed = true) :
    s.failWatchers c e = s.setAlarms c e fun w => s.gauges[c].alarm w || (e.watcher w).alarmOnFail := by
  rw [State.failWatchers, if_pos h, failWatcher_eq, failWatcher_eq, setAlarm_channel, alarm_withAlarm,
    if_neg (by decide)]
  rfl

/-- The judgement of a watcher is the one that the statements give (R48). -/
theorem judge_judges (w : WatcherEntry) (signed alarm : Bool) (x : Int) :
    watcherJudges w signed alarm x (w.judge signed alarm x) := by
  unfold watcherJudges WatcherEntry.judge
  cases w.above <;> cases alarm <;> simp

end Sys2Proof.Machine
end

section
/-! SUPPORT. A channel and its source: what one channel's record and messages become at a change of the source's
condition or at an accepted reading (R40, R48 to R51). -/

namespace Sys2Proof.Machine

/-- Channel `c` and its watchers' messages are as they were. -/
structure ChannelKept (c : Fin 8) (s t : State) : Prop where
  channel : t.gauges[c] = s.gauges[c]
  single : s.stack.single → t.stack.single
  spares : s.stack.single → ∀ w code, code < 240 → Stack.Spares s.stack t.stack ⟨code, .gauge, watcherNumber c w⟩

theorem ChannelKept.refl (c : Fin 8) (s : State) : ChannelKept c s s := ⟨rfl, id, fun _ _ _ _ => .refl _ _⟩

theorem ChannelKept.trans {c : Fin 8} {a b d : State} (h : ChannelKept c a b) (k : ChannelKept c b d) :
    ChannelKept c a d :=
  ⟨k.channel.trans h.channel, fun x => k.single (h.single x),
    fun x w code hc => (h.spares x w code hc).trans (k.spares (h.single x) w code hc)⟩

/-- An operation that touches neither the gauge unit nor the stack. -/
theorem ChannelKept.of_eq {c : Fin 8} {s t : State} (hg : t.gauges = s.gauges) (hk : t.stack = s.stack) :
    ChannelKept c s t :=
  ⟨by rw [hg], fun h => hk ▸ h, fun _ _ _ _ => hk ▸ .refl _ _⟩

/-- Another channel's turn. -/
theorem TurnOf.kept {c d : Fin 8} {s t : State} (h : TurnOf d s t) (ne : c ≠ d) : ChannelKept c s t :=
  ⟨h.others c ne, h.single, fun x w _ hc => h.spares x _ (not_ownMessage_of_ne ne hc w)⟩

/-- Channel `c` with the entry `e` has followed its source from one condition to another, and its watchers have
followed the reading that was accepted, if any, and the condition. -/
structure ChannelTurn (c : Fin 8) (e : GaugeEntry) (signed : Bool) (old new : Condition) (reading : Option Int)
    (s t : State) : Prop where
  moved : old ≠ new → followed s.gauges[c] t.gauges[c] e new
  stayed : old = new →
    t.gauges[c] = { s.gauges[c] with alarm0 := t.gauges[c].alarm0, alarm1 := t.gauges[c].alarm1 }
  watchers : ∀ w, watcherFollows (e.watcher w) signed s.gauges[c].armed reading (old = .good ∧ new ≠ .good)
    (s.gauges[c].alarm w) (t.gauges[c].alarm w)
  single : s.stack.single → t.stack.single
  messages : WatcherMessages s t c e

section
variable {c : Fin 8} {e : GaugeEntry} {signed : Bool} {old new : Condition} {reading : Option Int} {s t u : State}

/-- Where nothing has happened to a channel, it has followed a source that stays. -/
theorem ChannelKept.turn (h : ChannelKept c s t) (e : GaugeEntry) (signed : Bool) (cond : Condition) :
    ChannelTurn c e signed cond cond none s t where
  moved ne := absurd rfl ne
  stayed _ := by rw [h.channel]
  watchers w := by
    rw [h.channel]
    exact ⟨fun _ => rfl, fun _ => ⟨fun _ hx => (nomatch hx), fun _ left => absurd left.1 left.2, fun _ _ => rfl⟩⟩
  single := h.single
  messages _ w _ _ _ _ := by
    rw [h.channel]
    exact ⟨fun off on => absurd (off.symm.trans on) (by decide), fun on off => absurd (on.symm.trans off) (by decide)⟩

/-- What happened before to other channels does not matter. -/
theorem ChannelTurn.after_kept (h : ChannelTurn c e signed old new reading s t) (k : ChannelKept c u s) :
    ChannelTurn c e signed old new reading u t where
  moved := k.channel ▸ h.moved
  stayed := k.channel ▸ h.stayed
  watchers := k.channel ▸ h.watchers
  single x := h.single (k.single x)
  messages x := by
    rw [← k.channel]
    exact h.messages (k.single x)

/-- Nor does what happens to other channels later. -/
theorem ChannelTurn.before_kept (h : ChannelTurn c e signed old new reading s t) (k : ChannelKept c t u) :
    ChannelTurn c e signed old new reading s u where
  moved := k.channel ▸ h.moved
  stayed := k.channel ▸ h.stayed
  watchers := k.channel ▸ h.watchers
  single x := k.single (h.single x)
  messages x w code sev hm hc := by
    rw [k.channel]
    have spares := k.spares (h.single x) w code hc
    have follows := h.messages x w code sev hm hc
    exact ⟨fun off on => spares.keeps sev (by simp) (follows.1 off on), fun on off => spares.dropped (follows.2 on off)⟩

/-- The statements' form of what both watchers do. -/
theorem ChannelTurn.watchersFollow (h : ChannelTurn c e signed old new reading s t) :
    watchersFollow s t c e signed reading (old = .good ∧ new ≠ .good) := by
  intro w
  refine ⟨h.watchers w, fun code sev hm hc cap => ?_⟩
  rw [watcherIndex_eq]
  exact h.messages cap.2.2.1 w code sev hm hc

end

/-! ## The channel's state (R40) -/

theorem enterWith_channel (s : State) (c : Fin 8) (ch : Channel) (st : ChannelState) :
    (s.enterWith c ch st).gauges[c] = ch.enter st := by
  simp [State.enterWith]

/-- A channel that follows its source either stays or enters a needle state, with its hold timer as it is or at 0. -/
theorem follow_cases (s : State) (c : Fin 8) (e : GaugeEntry) (cond : Condition) :
    (s.follow c e cond = s ∧ followed s.gauges[c] s.gauges[c] e cond) ∨
    ∃ hold st, s.follow c e cond = s.enterWith c { s.gauges[c] with hold := hold } st ∧
      (st = .tracking ∨ st = .holding ∨ st = .failed) ∧
      followed s.gauges[c] { s.gauges[c] with hold := hold, state := st } e cond := by
  unfold State.follow State.enterState followed
  generalize s.gauges[c] = ch
  obtain ⟨_, _, _, _, _, state, _, _, _, hold, _, _, _, _⟩ := ch
  cases state with
  | tracking =>
    cases cond with
    | good => exact .inl ⟨rfl, rfl, rfl, rfl⟩
    | stale =>
      by_cases none : e.holdTime = 0
      · exact .inr ⟨hold, .failed, if_pos none, by simp, rfl, by simp [none]⟩
      · exact .inr ⟨0, .holding, if_neg none, by simp, rfl, by simp [Nat.pos_of_ne_zero none]⟩
    | error | notAvailable | never => exact .inr ⟨hold, .failed, rfl, by simp, rfl, rfl, rfl⟩
  | holding =>
    cases cond with
    | good => exact .inr ⟨hold, .tracking, rfl, by simp, rfl, rfl, rfl⟩
    | stale => exact .inl ⟨rfl, rfl, rfl, rfl⟩
    | error | notAvailable | never => exact .inr ⟨hold, .failed, rfl, by simp, rfl, rfl, rfl⟩
  | failed =>
    cases cond with
    | good => exact .inr ⟨hold, .tracking, rfl, by simp, rfl, rfl, rfl⟩
    | stale | error | notAvailable | never => exact .inl ⟨rfl, rfl, rfl, rfl⟩
  | idle | unhomed | homing | sweeping | parking | parked => exact .inl ⟨rfl, rfl, rfl, rfl⟩

theorem turnOf_follow (s : State) (c : Fin 8) (e : GaugeEntry) (cond : Condition) :
    TurnOf c s (s.follow c e cond) := by
  obtain ⟨same, _⟩ | ⟨hold, st, enters, _⟩ := follow_cases s c e cond
  · rw [same]; exact .refl c s
  · rw [enters]; exact turnOf_enterWith s c _ st

theorem follow_followed (s : State) (c : Fin 8) (e : GaugeEntry) (cond : Condition) :
    followed s.gauges[c] (s.follow c e cond).gauges[c] e cond := by
  obtain ⟨same, h⟩ | ⟨hold, st, enters, needle, h⟩ := follow_cases s c e cond
  · rwa [same]
  · have record : Channel.enter { s.gauges[c] with hold := hold } st =
        { s.gauges[c] with hold := hold, state := st } := by
      obtain rfl | rfl | rfl := needle <;> rfl
    rwa [enters, enterWith_channel, record]

/-- The watchers' messages are no input faults (R136): following a source spares them. -/
theorem follow_spares (s : State) (h : s.stack.single) (c : Fin 8) (e : GaugeEntry) (cond : Condition) (w : Watcher)
    (code : Nat) (hcode : code < 240) :
    Stack.Spares s.stack (s.follow c e cond).stack ⟨code, .gauge, watcherNumber c w⟩ := by
  have ne : (⟨code, .gauge, watcherNumber c w⟩ : Identity) ≠ msgInputFault c := fun he => by
    have : code = 245 := congrArg Identity.code he
    omega
  obtain ⟨same, _⟩ | ⟨hold, st, enters, _⟩ := follow_cases s c e cond
  · rw [same]; exact .refl _ _
  · rw [enters, State.enterWith, State.faultMessage]
    generalize hu : s.setChannel c (Channel.enter { s.gauges[c] with hold := hold } st) = u
    have hk : s.stack = u.stack := hu ▸ rfl
    rw [hk] at h ⊢
    split
    · exact (State.post_spec h _ .amber (by simp [msgInputFault])).2.2 _ ne
    · split
      · exact (State.clear_spec h _).2.2 _ ne
      · exact .refl _ _

/-- Following a source moves no watcher. -/
theorem follow_watchers (s : State) (c : Fin 8) (e : GaugeEntry) (cond : Condition) :
    (s.follow c e cond).gauges[c].armed = s.gauges[c].armed ∧
      ∀ w, (s.follow c e cond).gauges[c].alarm w = s.gauges[c].alarm w := by
  obtain ⟨same, _⟩ | ⟨hold, st, enters, _⟩ := follow_cases s c e cond
  · rw [same]; exact ⟨rfl, fun _ => rfl⟩
  · rw [enters, enterWith_channel]; exact ⟨rfl, fun w => by cases w <;> rfl⟩

/-- What `followed` says holds whatever the watchers do. -/
theorem followed_alarms {ch ch' : Channel} {e : GaugeEntry} {new : Condition} (h : followed ch ch' e new)
    (a b : Bool) : followed ch { ch' with alarm0 := a, alarm1 := b } e new := by
  obtain ⟨record, state⟩ := h
  exact ⟨by rw [record], state⟩

/-! ## The event of a source at one channel -/

/-- A channel whose source is not the event's stays. -/
theorem sourceEvent_of_ne {src : Source} {s : State} {c : Fin 8} (h : ∀ e, s.enabledEntry c = some e → e.source ≠ src)
    (old new : Condition) (reading : Bool) : State.sourceEvent src old new reading s c = s := by
  unfold State.sourceEvent
  split
  · rfl
  · rename_i e he
    exact if_neg (h e he)

/-- What the watchers meet once the channel has followed the condition. -/
def State.watchEvent (s : State) (c : Fin 8) (e : GaugeEntry) (old new : Condition) (reading : Bool) : State :=
  if reading then s.evaluateWatchers c e (s.sourceInput e.source)
  else if old = .good ∧ new ≠ .good then s.failWatchers c e
  else s

theorem sourceEvent_eq {s : State} {c : Fin 8} {e : GaugeEntry} (he : s.enabledEntry c = some e)
    (old new : Condition) (reading : Bool) : State.sourceEvent e.source old new reading s c =
      (if old = new then s else s.follow c e new).watchEvent c e old new reading := by
  unfold State.sourceEvent
  rw [he]
  exact if_pos rfl

/-- The watchers' part of an event: both take a state, which for each is what `watcherFollows` says. -/
theorem watchEvent_cases (s : State) (c : Fin 8) (e : GaugeEntry) (old new : Condition) (reading : Bool)
    {signed : Bool} (hs : reading = true → signed = s.sourceSigned e.source) :
    ∃ alarm, s.watchEvent c e old new reading = s.setAlarms c e alarm ∧
      ∀ w, watcherFollows (e.watcher w) signed s.gauges[c].armed
        (if reading then some (s.sourceInput e.source) else none) (old = .good ∧ new ≠ .good)
        (s.gauges[c].alarm w) (alarm w) := by
  have stays : s.setAlarms c e s.gauges[c].alarm = s := by
    rw [State.setAlarms, setAlarm_same, setAlarm_same]
  by_cases armed : s.gauges[c].armed = true
  · cases reading with
    | true =>
      refine ⟨_, evaluateWatchers_eq s c e _ armed, fun w => ⟨fun off => absurd (off.symm.trans armed) (by decide),
        fun _ => ⟨?_, by simp⟩⟩⟩
      rintro x ⟨⟩
      rw [hs rfl]
      exact judge_judges _ _ _ _
    | false =>
      by_cases left : old = .good ∧ new ≠ .good
      · exact ⟨_, (if_pos left).trans (failWatchers_eq s c e armed),
          fun w => ⟨fun off => absurd (off.symm.trans armed) (by decide), fun _ => by simp [left]⟩⟩
      · exact ⟨s.gauges[c].alarm, (if_neg left).trans stays.symm, fun w => by simp [watcherFollows, left]⟩
  · refine ⟨s.gauges[c].alarm, ?_, fun w => ⟨fun _ => rfl, fun on => absurd on armed⟩⟩
    unfold State.watchEvent State.evaluateWatchers State.failWatchers
    simp only [if_neg armed, ite_self, stays]

theorem turnOf_sourceEvent (src : Source) (old new : Condition) (reading : Bool) (s : State) (c : Fin 8) :
    TurnOf c s (State.sourceEvent src old new reading s c) := by
  by_cases h : ∃ e, s.enabledEntry c = some e ∧ e.source = src
  · obtain ⟨e, he, rfl⟩ := h
    rw [sourceEvent_eq he]
    have first : TurnOf c s (if old = new then s else s.follow c e new) := by
      split
      · exact .refl c s
      · exact turnOf_follow s c e new
    obtain ⟨alarm, watch, _⟩ := watchEvent_cases _ c e old new reading fun _ => rfl
    rw [watch]
    exact first.trans (turnOf_setAlarms _ c e alarm)
  · rw [sourceEvent_of_ne fun e he hsrc => h ⟨e, he, hsrc⟩]
    exact .refl c s

/-- A channel's turn at an event of its source. -/
theorem sourceEvent_turn {s : State} {c : Fin 8} {e : GaugeEntry} (he : s.enabledEntry c = some e)
    (old new : Condition) (reading : Bool) {signed : Bool} (hs : reading = true → signed = s.sourceSigned e.source) :
    ChannelTurn c e signed old new (if reading then some (s.sourceInput e.source) else none) s
      (State.sourceEvent e.source old new reading s c) := by
  have all := turnOf_sourceEvent e.source old new reading s c
  rw [sourceEvent_eq he] at all ⊢
  by_cases same : old = new
  · rw [if_pos same] at all ⊢
    obtain ⟨alarm, watch, follows⟩ := watchEvent_cases s c e old new reading hs
    rw [watch] at all ⊢
    exact ⟨fun ne => absurd same ne, fun _ => by rw [setAlarms_channel],
      fun w => by rw [setAlarms_alarm]; exact follows w, all.single, setAlarms_messages s c e alarm⟩
  · rw [if_neg same] at all ⊢
    have first := turnOf_follow s c e new
    have moved := follow_followed s c e new
    obtain ⟨armed, alarms⟩ := follow_watchers s c e new
    have spares := fun h => follow_spares s h c e new
    have input : (s.follow c e new).sourceInput e.source = s.sourceInput e.source :=
      sourceInput_congr e.source first.intake (by rw [State.follow_speed])
    have sign := sourceSigned_congr e.source first.intake
    generalize s.follow c e new = u at all first armed alarms moved spares input sign ⊢
    obtain ⟨alarm, watch, follows⟩ := watchEvent_cases u c e old new reading (sign ▸ hs)
    rw [input, armed] at follows
    rw [watch] at all ⊢
    refine ⟨fun _ => ?_, fun eq => absurd eq same, fun w => ?_, all.single, fun h w code sev hm hc => ?_⟩
    · rw [setAlarms_channel]
      exact followed_alarms moved _ _
    · rw [setAlarms_alarm, ← alarms]
      exact follows w
    · rw [← alarms]
      exact setAlarms_messages u c e alarm (first.single h) w code sev hm hc

end Sys2Proof.Machine
end

section
/-! SUPPORT. Folds: what a fold does at one of its places, and what it leaves alone. -/

namespace Sys2Proof.Machine

/-- What each step relates, reflexively and transitively, the fold relates. -/
theorem foldl_relates {σ ι : Type} {f : σ → ι → σ} {R : σ → σ → Prop} (refl : ∀ s, R s s)
    (trans : ∀ {a b c}, R a b → R b c → R a c) (l : List ι) (step : ∀ s, ∀ b ∈ l, R s (f s b)) (s : σ) :
    R s (l.foldl f s) := by
  induction l generalizing s with
  | nil => exact refl s
  | cons b l ih =>
    exact trans (step s b List.mem_cons_self) (ih (fun s x hx => step s x (List.mem_cons_of_mem b hx)) (f s b))

/-- The step at `a` stands between two folds over other places. -/
theorem foldl_reaches {σ ι : Type} {f : σ → ι → σ} {R : σ → σ → Prop} (refl : ∀ s, R s s)
    (trans : ∀ {a b c}, R a b → R b c → R a c) {a : ι} (apart : ∀ s b, b ≠ a → R s (f s b)) {l : List ι}
    (nodup : l.Nodup) (mem : a ∈ l) (s : σ) : ∃ u, R s u ∧ R (f u a) (l.foldl f s) := by
  obtain ⟨l₁, l₂, rfl⟩ := List.append_of_mem mem
  obtain ⟨fresh, _⟩ := List.nodup_cons.1 (List.nodup_middle.1 nodup)
  have others : ∀ b ∈ l₁ ++ l₂, b ≠ a := fun b hb e => fresh (e ▸ hb)
  refine ⟨l₁.foldl f s, ?_, ?_⟩
  · exact foldl_relates refl trans l₁ (fun s b hb => apart s b (others b (List.mem_append_left _ hb))) s
  · rw [List.foldl_append, List.foldl_cons]
    exact foldl_relates refl trans l₂ (fun s b hb => apart s b (others b (List.mem_append_right _ hb))) _

end Sys2Proof.Machine
end

section
/-! SUPPORT. What the events of the intake leave alone, and what the turn of one slot does to the slot and to the
channels that read it (R6 to R9, R15, R40, R48 to R50). -/

namespace Sys2Proof.Machine

/-- The causes that an event of the intake can raise. -/
abbrev intakeCauses : List Cause := [.modeChange, .linkLimp, .slotStale, .messageChange]

/-- `t` is `s` but for what an event of the intake can change: mode, intake, channels, messages, and causes. -/
structure IntakeFrame (s t : State) : Prop where
  xm : t.xm = s.xm
  engine : t.engine = s.engine
  tables : t.tables = s.tables
  speed : t.speed = s.speed
  store : t.store = s.store
  lamps : t.lamps = s.lamps
  hours : t.hours = s.hours
  panel : t.panel = s.panel
  prescale : t.prescale = s.prescale
  pending : t.pending = s.pending
  awake : s.mode.mode ≠ .initial → t.mode.mode ≠ .initial
  raises : Raises intakeCauses s t

theorem IntakeFrame.refl (s : State) : IntakeFrame s s :=
  ⟨rfl, rfl, rfl, rfl, rfl, rfl, rfl, rfl, rfl, rfl, id, .refl _ s⟩

theorem IntakeFrame.trans {a b c : State} (h : IntakeFrame a b) (k : IntakeFrame b c) : IntakeFrame a c :=
  ⟨k.xm.trans h.xm, k.engine.trans h.engine, k.tables.trans h.tables, k.speed.trans h.speed, k.store.trans h.store,
    k.lamps.trans h.lamps, k.hours.trans h.hours, k.panel.trans h.panel, k.prescale.trans h.prescale,
    k.pending.trans h.pending, fun x => k.awake (h.awake x), h.raises.trans k.raises⟩

/-- The statements' form of the frame. -/
theorem IntakeFrame.onlyMessages {s t : State} (h : IntakeFrame s t) :
    onlyMessages (((s.withIntake t.intake).withGauges t.gauges).withMode t.mode) t :=
  (onlyMessages_iff _ _).2
    ⟨rfl, h.xm, h.engine, h.tables, rfl, rfl, h.speed, h.store, h.lamps, h.hours, h.panel, h.prescale, h.pending⟩

/-- The tables decide which entry a channel has. -/
theorem enabledEntry_congr {s t : State} (h : t.tables = s.tables) (c : Fin 8) :
    t.enabledEntry c = s.enabledEntry c := by
  unfold State.enabledEntry State.gaugeEntry
  rw [h]

/-- The words of exchange memory are its only part that is read. -/
theorem readXm_congr {s t : State} (h : t.xm = s.xm) (a : Nat) : t.readXm a = s.readXm a := by
  unfold State.readXm
  rw [h]

/-- An event of the intake that treats no slot and no channel. -/
structure Aside (s t : State) : Prop extends IntakeFrame s t where
  slots : t.intake.slots = s.intake.slots
  kept : ∀ c, ChannelKept c s t

theorem Aside.refl (s : State) : Aside s s := ⟨.refl s, rfl, fun c => .refl c s⟩

theorem Aside.trans {a b d : State} (h : Aside a b) (k : Aside b d) : Aside a d where
  toIntakeFrame := h.toIntakeFrame.trans k.toIntakeFrame
  slots := k.slots.trans h.slots
  kept c := (h.kept c).trans (k.kept c)

theorem Aside.slot {s t : State} (h : Aside s t) (i : Fin 64) : t.slotRec i = s.slotRec i := by
  unfold State.slotRec
  rw [h.slots]

/-- The turn of slot `i`, with the value that an accepted reading of quality VALID has, if there was one: the other
slots stay, the channels that read the slot follow it, and the others are kept. -/
structure SlotTurn (i : Fin 64) (reading : Option Word) (s t : State) : Prop extends IntakeFrame s t where
  others : ∀ j, j ≠ i → t.slotRec j = s.slotRec j
  turn : ∀ c e, s.enabledEntry c = some e → e.source = .slot i →
    ChannelTurn c e ((s.slotRec i).type == .signed) (s.slotRec i).condition (t.slotRec i).condition
      (reading.map (inDomain ((s.slotRec i).type == .signed))) s t
  kept : ∀ c, (∀ e, s.enabledEntry c = some e → e.source ≠ .slot i) → ChannelKept c s t

/-- A slot whose turn does nothing. -/
theorem SlotTurn.refl (i : Fin 64) (s : State) : SlotTurn i none s s where
  toIntakeFrame := .refl s
  others _ _ := rfl
  turn c e _ _ := (ChannelKept.refl c s).turn e _ _
  kept c _ := .refl c s

theorem SlotTurn.after_aside {i : Fin 64} {reading : Option Word} {u s t : State} (h : SlotTurn i reading s t)
    (k : Aside u s) : SlotTurn i reading u t where
  toIntakeFrame := k.toIntakeFrame.trans h.toIntakeFrame
  others j hj := (h.others j hj).trans (k.slot j)
  turn c e he hsrc := by
    rw [← k.slot i]
    exact (h.turn c e ((enabledEntry_congr k.tables c).trans he) hsrc).after_kept (k.kept c)
  kept c hc := (k.kept c).trans (h.kept c (enabledEntry_congr k.tables c ▸ hc))

theorem SlotTurn.before_aside {i : Fin 64} {reading : Option Word} {s t u : State} (h : SlotTurn i reading s t)
    (k : Aside t u) : SlotTurn i reading s u where
  toIntakeFrame := h.toIntakeFrame.trans k.toIntakeFrame
  others j hj := (k.slot j).trans (h.others j hj)
  turn c e he hsrc := by
    rw [k.slot i]
    exact (h.turn c e he hsrc).before_kept (k.kept c)
  kept c hc := (h.kept c hc).trans (k.kept c)

/-- What the turns of other slots leave of slot `i` and of the channels that read it. -/
structure Beside (i : Fin 64) (s t : State) : Prop extends IntakeFrame s t where
  slot : t.slotRec i = s.slotRec i
  kept : ∀ c e, s.enabledEntry c = some e → e.source = .slot i → ChannelKept c s t

theorem Beside.refl (i : Fin 64) (s : State) : Beside i s s := ⟨.refl s, rfl, fun c _ _ _ => .refl c s⟩

theorem Beside.trans {i : Fin 64} {a b d : State} (h : Beside i a b) (k : Beside i b d) : Beside i a d where
  toIntakeFrame := h.toIntakeFrame.trans k.toIntakeFrame
  slot := k.slot.trans h.slot
  kept c e he hsrc := (h.kept c e he hsrc).trans (k.kept c e ((enabledEntry_congr h.tables c).trans he) hsrc)

theorem Aside.beside {s t : State} (h : Aside s t) (i : Fin 64) : Beside i s t :=
  ⟨h.toIntakeFrame, h.slot i, fun c _ _ _ => h.kept c⟩

theorem SlotTurn.beside {i j : Fin 64} {reading : Option Word} {s t : State} (h : SlotTurn j reading s t)
    (ne : j ≠ i) : Beside i s t where
  toIntakeFrame := h.toIntakeFrame
  slot := h.others i ne.symm
  kept c e he hsrc := h.kept c fun e' he' hsrc' => by
    obtain rfl : e = e' := Option.some.inj (he.symm.trans he')
    exact ne (Source.slot.inj (hsrc'.symm.trans hsrc))

/-- The statements' form of what the channels do: those that read no slot are kept, and each other one follows the slot
that it reads. -/
theorem channelsFollow_of_turns {s t : State} {reading : Fin 64 → Option Word}
    (kept : ∀ c, (∀ e i, s.enabledEntry c = some e → e.source ≠ .slot i) → ChannelKept c s t)
    (turn : ∀ c e i, s.enabledEntry c = some e → e.source = .slot i →
      ChannelTurn c e ((s.slotRec i).type == .signed) (s.slotRec i).condition (t.slotRec i).condition
        ((reading i).map (inDomain ((s.slotRec i).type == .signed))) s t) : channelsFollow s t reading := by
  intro c
  refine ⟨fun none => (kept c fun e _ he => absurd (none.symm.trans he) (by simp)).channel,
    fun e he => ⟨fun speed => (kept c fun e' i he' hsrc => ?_).channel, fun i hsrc => ?_⟩⟩
  · obtain rfl : e = e' := Option.some.inj (he.symm.trans he')
    exact absurd (speed.symm.trans hsrc) (by simp)
  · have follows := turn c e i he hsrc
    exact ⟨follows.moved, follows.stayed, follows.watchersFollow⟩

/-! ## Rounds over the slots -/

section
variable {f : State → Fin 64 → State} {reading : State → Fin 64 → Option Word}

/-- In a round over all slots the turn of slot `i` meets the slot and its channels as they were before the round, and
the round leaves them as that turn does. -/
theorem allSlots_reach (step : ∀ s i, SlotTurn i (reading s i) s (f s i)) (i : Fin 64) (s : State) :
    ∃ u, Beside i s u ∧ Beside i (f u i) (allSlots.foldl f s) :=
  foldl_reaches (Beside.refl i) Beside.trans (fun s j ne => (step s j).beside ne) nodup_allSlots (mem_allSlots i) s

theorem allSlots_frame (step : ∀ s i, SlotTurn i (reading s i) s (f s i)) (s : State) :
    IntakeFrame s (allSlots.foldl f s) :=
  foldl_relates IntakeFrame.refl IntakeFrame.trans allSlots (fun s i _ => (step s i).toIntakeFrame) s

/-- A channel that reads no slot is kept by the round. -/
theorem allSlots_kept (step : ∀ s i, SlotTurn i (reading s i) s (f s i)) (s : State) (c : Fin 8)
    (h : ∀ e i, s.enabledEntry c = some e → e.source ≠ .slot i) : ChannelKept c s (allSlots.foldl f s) := by
  have round := foldl_relates (f := f) (R := fun a b =>
      (∀ e i, a.enabledEntry c = some e → e.source ≠ .slot i) → ChannelKept c a b ∧ b.enabledEntry c = a.enabledEntry c)
    (fun a _ => ⟨.refl c a, rfl⟩)
    (fun ab bd ha => by
      obtain ⟨kept, entry⟩ := ab ha
      obtain ⟨kept', entry'⟩ := bd (entry ▸ ha)
      exact ⟨kept.trans kept', entry'.trans entry⟩)
    allSlots (fun a i _ ha => ⟨(step a i).kept c fun e he => ha e i he, enabledEntry_congr (step a i).tables c⟩) s
  exact (round h).1

/-- After the round every channel has followed its slot. A slot's reading depends on its own words and record. -/
theorem allSlots_channelsFollow (step : ∀ s i, SlotTurn i (reading s i) s (f s i))
    (own : ∀ s t i, t.xm = s.xm → t.slotRec i = s.slotRec i → reading t i = reading s i) (s : State) :
    channelsFollow s (allSlots.foldl f s) (reading s) := by
  refine channelsFollow_of_turns (allSlots_kept step s) fun c e i he hsrc => ?_
  obtain ⟨u, before, after⟩ := allSlots_reach step i s
  have hu := (enabledEntry_congr before.tables c).trans he
  have turn := ((step u i).turn c e hu hsrc).after_kept (before.kept c e he hsrc)
  have turn := turn.before_kept (after.kept c e ((enabledEntry_congr (step u i).tables c).trans hu) hsrc)
  rwa [before.slot, ← after.slot, own s u i before.xm before.slot] at turn

end

/-- After the turn of one slot, without a reading, every channel has followed its slot. -/
theorem SlotTurn.channelsFollow {i : Fin 64} {s t : State} (h : SlotTurn i none s t) :
    channelsFollow s t fun _ => none := by
  refine channelsFollow_of_turns (fun c hc => h.kept c fun e he => hc e i he) fun c e j he hsrc => ?_
  by_cases ne : i = j
  · subst ne
    exact h.turn c e he hsrc
  · have beside := h.beside ne
    rw [beside.slot]
    exact (beside.kept c e he hsrc).turn e _ _

/-- What stands aside of the slots does not disturb what the channels have followed. -/
theorem channelsFollow_aside {s t u : State} {reading : Fin 64 → Option Word} (h : channelsFollow s t reading)
    (hg : u.gauges = t.gauges) (hk : u.stack = t.stack) (hs : u.intake.slots = t.intake.slots) :
    channelsFollow s u reading := by
  have slot : ∀ i, u.slotRec i = t.slotRec i := fun i => by unfold State.slotRec; rw [hs]
  unfold channelsFollow watchersFollow messageFollows
  simp only [slot, hg, hk]
  exact h

end Sys2Proof.Machine
end

section
/-! SUPPORT. A slot takes a record (R6 to R8, R15), and the channels that read it follow (R40, R48, R49). -/

namespace Sys2Proof.Machine

/-- What the treatment of a slot leaves alone: mode control, the heartbeat, and the messages of the other units. -/
structure SlotFrame (s t : State) : Prop where
  mode : t.mode = s.mode
  heartbeat : t.intake.heartbeat = s.intake.heartbeat
  raises : Raises [.slotStale, .messageChange] s t
  single : s.stack.single → t.stack.single
  spares : s.stack.single → ∀ id, id.origin ≠ .gauge → Stack.Spares s.stack t.stack id

theorem SlotFrame.refl (s : State) : SlotFrame s s := ⟨rfl, rfl, .refl _ s, id, fun _ _ _ => .refl _ _⟩

theorem SlotFrame.trans {a b c : State} (h : SlotFrame a b) (k : SlotFrame b c) : SlotFrame a c :=
  ⟨k.mode.trans h.mode, k.heartbeat.trans h.heartbeat, h.raises.trans k.raises, fun x => k.single (h.single x),
    fun x id ho => (h.spares x id ho).trans (k.spares (h.single x) id ho)⟩

/-- One channel's turn in an event of a source is such a treatment. -/
theorem sourceEvent_slotFrame (src : Source) (old new : Condition) (reading : Bool) (s : State) (c : Fin 8) :
    SlotFrame s (State.sourceEvent src old new reading s c) :=
  have turn := turnOf_sourceEvent src old new reading s c
  ⟨State.sourceEvent_mode .., by rw [turn.intake], turn.raises.mono (by simp), turn.single,
    fun h id ho => turn.spares h id (not_ownMessage_of_origin ho)⟩

theorem changeSlot_slotFrame (s : State) (i : Fin 64) (r : SlotRec) (reading : Bool) :
    SlotFrame s (s.changeSlot i r reading) := by
  have put : SlotFrame s (s.setSlot i r) := ⟨rfl, rfl, .of_link rfl, id, fun _ _ _ => .refl _ _⟩
  exact put.trans (foldl_relates SlotFrame.refl SlotFrame.trans allChannels
    (fun u c _ => sourceEvent_slotFrame _ _ _ _ u c) _)

/-- The slot has the record, and the others stay. -/
theorem changeSlot_slotRec (s : State) (i j : Fin 64) (r : SlotRec) (reading : Bool) :
    (s.changeSlot i r reading).slotRec j = if j = i then r else s.slotRec j := by
  unfold State.changeSlot State.slotRec
  rw [State.forChannels_sourceEvent_intake]
  exact getElem_putAt s.intake.slots i j r

/-- A channel that does not read the slot is kept. -/
theorem changeSlot_kept {s : State} {i : Fin 64} {c : Fin 8}
    (h : ∀ e, s.enabledEntry c = some e → e.source ≠ .slot i) (r : SlotRec) (reading : Bool) :
    ChannelKept c s (s.changeSlot i r reading) := by
  have put : ChannelKept c s (s.setSlot i r) := .of_eq rfl rfl
  refine put.trans ?_
  have round := foldl_relates (f := State.sourceEvent (.slot i) (s.slotRec i).condition r.condition reading)
    (R := fun a b => b.tables = a.tables ∧ (a.tables = s.tables → ChannelKept c a b))
    (fun a => ⟨rfl, fun _ => .refl c a⟩)
    (fun ab bd => ⟨bd.1.trans ab.1, fun ha => (ab.2 ha).trans (bd.2 (ab.1.trans ha))⟩)
    allChannels (fun a d _ => ⟨State.sourceEvent_tables .., fun ha => ?_⟩) (s.setSlot i r)
  · exact round.2 rfl
  · by_cases ne : c = d
    · subst ne
      rw [sourceEvent_of_ne fun e he => h e ((enabledEntry_congr ha c).symm.trans he)]
      exact .refl c a
    · exact (turnOf_sourceEvent _ _ _ _ a d).kept ne

/-- A channel that reads the slot follows it. -/
theorem changeSlot_turn {s : State} {i : Fin 64} {c : Fin 8} {e : GaugeEntry} (he : s.enabledEntry c = some e)
    (hsrc : e.source = .slot i) (r : SlotRec) (reading : Bool) {signed : Bool}
    (hs : reading = true → signed = (r.type == .signed)) :
    ChannelTurn c e signed (s.slotRec i).condition r.condition
      (if reading then some (inDomain (r.type == .signed) r.accepted) else none) s (s.changeSlot i r reading) := by
  have put : ChannelKept c s (s.setSlot i r) := .of_eq rfl rfl
  have turns := fun (a : State) (d : Fin 8) =>
    turnOf_sourceEvent (.slot i) (s.slotRec i).condition r.condition reading a d
  obtain ⟨u, before, after⟩ := foldl_reaches
    (f := State.sourceEvent (.slot i) (s.slotRec i).condition r.condition reading)
    (R := fun a b => b.tables = a.tables ∧ b.intake = a.intake ∧ ChannelKept c a b)
    (fun a => ⟨rfl, rfl, .refl c a⟩)
    (fun ab bd => ⟨bd.1.trans ab.1, bd.2.1.trans ab.2.1, ab.2.2.trans bd.2.2⟩)
    (fun a d ne => ⟨(turns a d).tables, (turns a d).intake, (turns a d).kept ne.symm⟩)
    nodup_allChannels (mem_allChannels c) (s.setSlot i r)
  obtain ⟨tables, intake, kept⟩ := before
  have slot : u.slotRec i = r := by
    unfold State.slotRec
    rw [intake]
    exact getElem_putAt_self s.intake.slots i r
  have sign : u.sourceSigned e.source = (r.type == .signed) := by
    rw [hsrc, State.sourceSigned, slot]
  have input : u.sourceInput e.source = inDomain (r.type == .signed) r.accepted := by
    rw [← sign, hsrc, State.sourceInput, slot]
  have turn := sourceEvent_turn ((enabledEntry_congr tables c).trans he) (s.slotRec i).condition r.condition reading
    (signed := signed) (fun on => (hs on).trans sign.symm)
  rw [input, hsrc] at turn
  exact ((turn.after_kept kept).after_kept put).before_kept after.2.2

/-- A slot takes a record of its type, or any record without a reading. -/
theorem changeSlot_slotTurn (s : State) (i : Fin 64) (r : SlotRec) (reading : Bool)
    (same : reading = true → r.type = (s.slotRec i).type) :
    SlotTurn i (if reading then some r.accepted else none) s (s.changeSlot i r reading) where
  xm := by simp
  engine := by simp
  tables := by simp
  speed := by simp
  store := by simp
  lamps := by simp
  hours := by simp
  panel := by simp
  prescale := by simp
  pending := by simp
  awake := by simp
  raises := (changeSlot_slotFrame s i r reading).raises.mono (by simp)
  others j ne := by rw [changeSlot_slotRec, if_neg ne]
  turn c e he hsrc := by
    have turn := changeSlot_turn he hsrc r reading (signed := (s.slotRec i).type == .signed)
      fun on => by rw [same on]
    rw [changeSlot_slotRec, if_pos rfl]
    cases reading with
    | false => exact turn
    | true =>
      rw [same rfl] at turn
      exact turn
  kept c hc := changeSlot_kept hc r reading

/-! ## Ageing and acceptance -/

theorem raise_aside (s : State) {c : Cause} (h : c ∈ intakeCauses) : Aside s (s.raise c) where
  toIntakeFrame := ⟨rfl, rfl, rfl, rfl, rfl, rfl, rfl, rfl, rfl, rfl, id, raises_raise s h⟩
  slots := rfl
  kept _ := .of_eq rfl rfl

theorem ageSlot_eq (s : State) (i : Fin 64) : ∃ u, s.ageSlot i = u.changeSlot i (s.slotRec i).aged false ∧
    Aside s u ∧ SlotFrame s u ∧
    ((s.slotRec i).condition ≠ .stale → (s.slotRec i).aged.condition = .stale → pends u .slotStale) := by
  unfold State.ageSlot
  by_cases goes : (s.slotRec i).condition ≠ .stale ∧ (s.slotRec i).aged.condition = .stale
  · refine ⟨s.raise .slotStale, congrArg (State.changeSlot · i _ false) (if_pos goes), raise_aside s (by simp), ?_,
      fun _ _ => pends_raise s _⟩
    exact ⟨rfl, rfl, raises_raise s (by simp), id, fun _ _ _ => .refl _ _⟩
  · exact ⟨s, congrArg (State.changeSlot · i _ false) (if_neg goes), .refl s, .refl s, fun h k => absurd ⟨h, k⟩ goes⟩

theorem ageSlot_slotTurn (s : State) (i : Fin 64) : SlotTurn i none s (s.ageSlot i) := by
  obtain ⟨u, eq, aside, _⟩ := ageSlot_eq s i
  rw [eq]
  exact (changeSlot_slotTurn u i _ false (by simp)).after_aside aside

theorem ageSlot_slotFrame (s : State) (i : Fin 64) : SlotFrame s (s.ageSlot i) := by
  obtain ⟨u, eq, _, frame, _⟩ := ageSlot_eq s i
  rw [eq]
  exact frame.trans (changeSlot_slotFrame u i _ false)

theorem ageSlot_slotRec (s : State) (i : Fin 64) : (s.ageSlot i).slotRec i = (s.slotRec i).aged := by
  obtain ⟨u, eq, _⟩ := ageSlot_eq s i
  rw [eq, changeSlot_slotRec, if_pos rfl]

/-- A slot that goes STALE sets the cause (R9). -/
theorem ageSlot_pends (s : State) (i : Fin 64) (was : (s.slotRec i).condition ≠ .stale)
    (is : (s.slotRec i).aged.condition = .stale) : pends (s.ageSlot i) .slotStale := by
  obtain ⟨u, eq, _, _, pending⟩ := ageSlot_eq s i
  rw [eq]
  exact (changeSlot_slotFrame u i _ false).raises.pends _ (pending was is)

/-- The record after an unchanged or discarded scan, as the statements give it (R6). -/
theorem aged_eq (r : SlotRec) : r.aged = { r with
    age := min (r.age + 10) r.timeout
    condition := if r.timeout ≤ r.age + 10 ∧ r.condition ≠ .never then .stale else r.condition } := by
  unfold SlotRec.aged
  cases r.condition <;> simp [Condition.agesOut]

theorem acceptSlot_slotRec (s : State) (i : Fin 64) (tag value : Word) :
    (s.acceptSlot i tag value).slotRec i = (s.slotRec i).accept tag value := by
  rw [State.acceptSlot, changeSlot_slotRec, if_pos rfl]

theorem acceptSlot_slotTurn (s : State) (i : Fin 64) (tag value : Word) :
    SlotTurn i (if bits tag 8 2 = 0 then some value else none) s (s.acceptSlot i tag value) := by
  have turn := changeSlot_slotTurn s i ((s.slotRec i).accept tag value) (tagQuality tag == .valid) fun _ => rfl
  have valid : tagQuality tag = .valid ↔ bits tag 8 2 = 0 := by
    unfold tagQuality
    split <;> simp_all
  have reading : (if (tagQuality tag == .valid) = true then some ((s.slotRec i).accept tag value).accepted else none) =
      if bits tag 8 2 = 0 then some value else none := by
    by_cases q : tagQuality tag = .valid
    · simp [SlotRec.accept, q, valid.1 q]
    · simp [q, mt valid.2 q]
  rwa [reading] at turn

end Sys2Proof.Machine
end

section
/-! SUPPORT. The heartbeat and mode control (R10, R161), the data-fault demand (R14), and the turn of a slot in a
scan (R6, R7). -/

namespace Sys2Proof.Machine

/-! ## The heartbeat -/

theorem withIntake_aside (s : State) {i : Intake} (h : i.slots = s.intake.slots) : Aside s (s.withIntake i) where
  toIntakeFrame := ⟨rfl, rfl, rfl, rfl, rfl, rfl, rfl, rfl, rfl, rfl, id, .of_link rfl⟩
  slots := h
  kept _ := .of_eq rfl rfl

theorem setMode_aside (s : State) {m : DeviceMode} (h : m ≠ .initial) : Aside s (s.setMode m) where
  toIntakeFrame := ⟨rfl, rfl, rfl, rfl, rfl, rfl, rfl, rfl, rfl, rfl, fun _ => h, raises_setMode s m (by simp)⟩
  slots := rfl
  kept _ := .of_eq rfl rfl

/-- LINK FAULT is no channel's message. -/
theorem linkFault_ne (c : Fin 8) (w : Watcher) (code : Nat) :
    (⟨code, .gauge, watcherNumber c w⟩ : Identity) ≠ msgLinkFault := fun h => by
  cases congrArg Identity.origin h

theorem postLinkFault_aside (s : State) : Aside s (s.post msgLinkFault .red) where
  toIntakeFrame :=
    ⟨rfl, rfl, rfl, rfl, rfl, rfl, rfl, rfl, rfl, rfl, id, raises_takeStack s _ (by simp)⟩
  slots := rfl
  kept c := ⟨rfl, fun h => (State.post_spec h _ .red (by decide)).1,
    fun h w code _ => (State.post_spec h _ .red (by decide)).2.2 _ (linkFault_ne c w code)⟩

theorem clearLinkFault_aside (s : State) : Aside s (s.clear msgLinkFault) where
  toIntakeFrame :=
    ⟨rfl, rfl, rfl, rfl, rfl, rfl, rfl, rfl, rfl, rfl, id, raises_takeStack s _ (by simp)⟩
  slots := rfl
  kept c := ⟨rfl, fun h => (State.clear_spec h _).1,
    fun h w code _ => (State.clear_spec h _).2.2 _ (linkFault_ne c w code)⟩

/-- What a change of the heartbeat record does: the entry into LIMP at a loss in RUNNING, the departure from it at a
restoration in LIMP, and nothing more otherwise (R161). -/
theorem setHeartbeat_cases (s : State) (h : Heartbeat) :
    ∃ u, u = s.withIntake { s.intake with heartbeat := h } ∧
    ((s.intake.heartbeat.lost = false ∧ h.lost = true ∧ s.mode.mode = .running ∧
        s.setHeartbeat h = ((u.setMode .limp).raise .linkLimp).post msgLinkFault .red) ∨
      (s.intake.heartbeat.lost = true ∧ h.lost = false ∧ s.mode.mode = .limp ∧
        s.setHeartbeat h = (u.setMode .running).clear msgLinkFault) ∨
      (¬(s.intake.heartbeat.lost = false ∧ h.lost = true ∧ s.mode.mode = .running) ∧
        ¬(s.intake.heartbeat.lost = true ∧ h.lost = false ∧ s.mode.mode = .limp) ∧ s.setHeartbeat h = u)) := by
  refine ⟨_, rfl, ?_⟩
  unfold State.setHeartbeat State.enterLimp State.leaveLimp
  cases s.intake.heartbeat.lost <;> cases h.lost
  · simp
  · by_cases running : s.mode.mode = .running <;> simp [running]
  · by_cases limp : s.mode.mode = .limp <;> simp [limp]
  · simp

theorem setHeartbeat_heartbeat (s : State) (h : Heartbeat) :
    (s.setHeartbeat h).intake = { s.intake with heartbeat := h } := by
  obtain ⟨u, rfl, ⟨_, _, _, eq⟩ | ⟨_, _, _, eq⟩ | ⟨_, _, eq⟩⟩ := setHeartbeat_cases s h <;> rw [eq] <;> rfl

theorem setHeartbeat_aside (s : State) (h : Heartbeat) : Aside s (s.setHeartbeat h) := by
  obtain ⟨u, hu, cases⟩ := setHeartbeat_cases s h
  have put : Aside s u := hu ▸ withIntake_aside s rfl
  obtain ⟨_, _, _, eq⟩ | ⟨_, _, _, eq⟩ | ⟨_, _, eq⟩ := cases <;> rw [eq]
  · have enters : Aside u ((u.setMode .limp).raise .linkLimp) :=
      (setMode_aside u (by simp)).trans (raise_aside _ (by simp))
    exact (put.trans enters).trans (postLinkFault_aside _)
  · exact (put.trans (setMode_aside u (by simp))).trans (clearLinkFault_aside _)
  · exact put

/-- The entry into LIMP (R161). -/
theorem enterLimp_facts {s v : State} (hv : v = ((s.setMode .limp).raise .linkLimp).post msgLinkFault .red) :
    v.mode = { s.mode with mode := .limp } ∧ pends v .modeChange ∧ pends v .linkLimp ∧
      (s.stack.single → v.stack.single ∧ v.stack.keeps msgLinkFault .red) := by
  subst hv
  have mode : pends (s.setMode .limp) .modeChange := pends_raise _ _
  refine ⟨rfl, pends_takeStack _ _ _ (pends_raise_of _ _ _ mode), pends_takeStack _ _ _ (pends_raise _ _), fun h => ?_⟩
  have post := State.post_spec (s := (s.setMode .limp).raise .linkLimp) h msgLinkFault .red (by decide)
  exact ⟨post.1, post.2.1⟩

/-- The departure from LIMP (R161), which sets LINK_LIMP as little as any. -/
theorem leaveLimp_facts {s v : State} (hv : v = (s.setMode .running).clear msgLinkFault) :
    v.mode = { s.mode with mode := .running } ∧ pends v .modeChange ∧
      bit v.link.causes Cause.linkLimp.place = bit s.link.causes Cause.linkLimp.place ∧
      (s.stack.single → v.stack.single ∧ v.stack.dropped msgLinkFault) := by
  subst hv
  have mode : pends (s.setMode .running) .modeChange := pends_raise _ _
  have raises : Raises [.modeChange, .messageChange] s ((s.setMode .running).clear msgLinkFault) :=
    (raises_setMode s _ (by simp)).trans (raises_takeStack _ _ (by simp))
  refine ⟨rfl, pends_takeStack _ _ _ mode, raises.others _ (by simp), fun h => ?_⟩
  have clear := State.clear_spec (s := s.setMode .running) h msgLinkFault
  exact ⟨clear.1, clear.2.1⟩

/-- Mode control judges the heartbeat that stands between two treatments of slots (R161). -/
theorem limpJudged_of_setHeartbeat {s v t : State} {h : Heartbeat} (before : SlotFrame s v)
    (after : SlotFrame (v.setHeartbeat h) t) : limpJudged s t := by
  have heart : t.intake.heartbeat = h := by rw [after.heartbeat, setHeartbeat_heartbeat]
  have stays : bit t.link.causes Cause.linkLimp.place =
      bit (v.setHeartbeat h).link.causes Cause.linkLimp.place := after.raises.others _ (by simp)
  have stood : bit v.link.causes Cause.linkLimp.place = bit s.link.causes Cause.linkLimp.place :=
    before.raises.others _ (by simp)
  have single : s.stack.withinCapacity → v.stack.single := fun cap => before.single cap.2.2.1
  unfold limpJudged
  rw [heart, after.mode, stays, ← stood, ← before.heartbeat, ← before.mode]
  obtain ⟨u, rfl, ⟨was, is, running, eq⟩ | ⟨was, is, limp, eq⟩ | ⟨noLoss, noReturn, eq⟩⟩ := setHeartbeat_cases v h
  · obtain ⟨mode, changed, limp, fault⟩ := enterLimp_facts eq
    refine ⟨fun _ _ _ => ⟨mode, after.raises.pends _ changed, after.raises.pends _ limp, fun cap => ?_⟩, ?_, ?_⟩
    · obtain ⟨single', keeps⟩ := fault (single cap)
      exact (after.spares single' _ (by decide)).keeps .red (by decide) keeps
    · simp [running]
    · simp [running, was, is]
  · obtain ⟨mode, changed, limpStays, fault⟩ := leaveLimp_facts eq
    refine ⟨?_, fun _ _ _ => ⟨mode, after.raises.pends _ changed, fun cap => ?_⟩, fun _ => ⟨?_, limpStays⟩⟩
    · simp [limp]
    · obtain ⟨single', dropped⟩ := fault (single cap)
      exact (after.spares single' _ (by decide)).dropped dropped
    · simp [limp, was, is]
  · rw [eq]
    exact ⟨fun running was is => absurd ⟨was, is, running⟩ noLoss, fun limp was is => absurd ⟨was, is, limp⟩ noReturn,
      fun _ => ⟨fun _ => rfl, rfl⟩⟩

theorem evaluateHeartbeat_aside (s : State) (accepted : Bool) : Aside s (s.evaluateHeartbeat accepted) :=
  setHeartbeat_aside s _

/-! ## The data-fault demand (R14) -/

/-- The tables decide which slots are referenced. -/
theorem referenced_congr {s t : State} (h : t.tables = s.tables) (i : Fin 64) : t.referenced i = s.referenced i := by
  unfold State.referenced State.lampEntry
  simp only [enabledEntry_congr h, h]

theorem evaluateDataFault_aside (s : State) : Aside s s.evaluateDataFault := withIntake_aside s rfl

theorem channelsFollow_evaluateDataFault {s t : State} {reading : Fin 64 → Option Word}
    (h : channelsFollow s t reading) : channelsFollow s t.evaluateDataFault reading :=
  channelsFollow_aside h rfl rfl rfl

/-- The demand, under the tables of the state before the event. -/
theorem evaluateDataFault_iff {s t : State} (h : t.tables = s.tables) : t.evaluateDataFault.intake.dataFault = true ↔
    (∃ q, s.tables.slots = some q ∧ q.dataFaultLamp ≠ none) ∧
      ∃ i : Fin 64, s.referenced i = true ∧
        (t.evaluateDataFault.intake.slots[i].condition = .error ∨
          t.evaluateDataFault.intake.slots[i].condition = .stale) := by
  have lamp : (t.tables.slots.bind SlotsTable.dataFaultLamp).isSome = true ↔
      ∃ q, s.tables.slots = some q ∧ q.dataFaultLamp ≠ none := by
    rw [h]
    cases s.tables.slots <;> simp [Option.isSome_iff_ne_none]
  show t.dataFaultNow = true ↔ _
  unfold State.dataFaultNow
  rw [Bool.and_eq_true, lamp, List.any_eq_true]
  simp only [Bool.and_eq_true, Bool.or_eq_true, beq_iff_eq, referenced_congr h, mem_allSlots, true_and]
  exact and_congr_right fun _ => exists_congr fun i => And.comm

/-! ## One slot's turn in a scan -/

/-- Where no access lands nothing happens. -/
theorem accessesAt_of_forall_ne {mid : List MidAccess} {place : Nat} (h : ∀ m ∈ mid, m.place ≠ place) (s : State) :
    s.accessesAt mid place = s := by
  unfold State.accessesAt
  rw [List.filter_eq_nil_iff.2 (by simpa using h)]
  rfl

/-- A slot at whose two places no access lands is read as in a scan without accesses. -/
theorem readSlot_of_forall_ne {mid : List MidAccess} {i : Fin 64}
    (h : ∀ m ∈ mid, m.place ≠ 2 * i.val ∧ m.place ≠ 2 * i.val + 1) (s : State) :
    s.readSlot mid i = s.readSlot [] i := by
  have first : ∀ u : State, u.accessesAt mid (2 * i.val) = u := accessesAt_of_forall_ne fun m hm => (h m hm).1
  have second : ∀ u : State, u.accessesAt mid (2 * i.val + 1) = u := accessesAt_of_forall_ne fun m hm => (h m hm).2
  unfold State.readSlot
  dsimp only
  rw [first, second]
  rfl

/-- A slot of a type is read, accepted with a new sequence number, and aged without one. -/
theorem readSlot_nil (s : State) (i : Fin 64) : s.readSlot [] i =
    if (s.slotRec i).type = .unused then (s, false)
    else if (s.readXm (0x41 + 2 * i.val)).truncate 8 ≠ (s.slotRec i).lastSeq then
      (s.acceptSlot i (s.readXm (0x41 + 2 * i.val)) (s.readXm (0x40 + 2 * i.val)), true)
    else (s.ageSlot i, false) := by
  unfold State.readSlot
  simp [State.accessesAt, tagSeq, tagAddr, valueAddr]

theorem readSlot_nil_slotTurn (s : State) (i : Fin 64) :
    SlotTurn i (s.validReading i) s (s.readSlot [] i).1 := by
  rw [readSlot_nil]
  unfold State.validReading
  split
  · rename_i unused
    rw [if_neg (by simp [unused])]
    exact .refl i s
  · rename_i used
    split
    · rename_i fresh
      simpa [used, fresh] using acceptSlot_slotTurn s i (s.readXm (0x41 + 2 * i.val)) (s.readXm (0x40 + 2 * i.val))
    · rename_i same
      rw [if_neg fun h => same h.2.1]
      exact ageSlot_slotTurn s i

theorem readSlot_nil_slotFrame (s : State) (i : Fin 64) : SlotFrame s (s.readSlot [] i).1 := by
  rw [readSlot_nil]
  split
  · exact .refl s
  · split
    · exact changeSlot_slotFrame s i _ _
    · exact ageSlot_slotFrame s i

/-- After its reading slot 0 feeds the heartbeat, which treats no slot. -/
theorem scanSlot_aside (mid : List MidAccess) (s : State) (i : Fin 64) :
    Aside (s.readSlot mid i).1 (State.scanSlot mid s i) := by
  unfold State.scanSlot
  dsimp only
  split
  · exact evaluateHeartbeat_aside _ _
  · exact .refl _

end Sys2Proof.Machine
end

section
/-! The statements about the value intake: the adoption of SLOTS (R15), the scan (R6 to R14), and the two commands that
stand for a moment inside the scan (log 5). -/

namespace Sys2Proof.Machine

/-! ## SLOT_STALE and HEARTBEAT_LOST -/

theorem exec_slotStale (s : State) (i : Fin 64) : exec (.slotStale i) s = .next
    (if s.mode.mode ≠ .initial ∧ (s.slotRec i).expires = true then (s.ageSlot i).evaluateDataFault else s) := rfl

theorem exec_heartbeatLost (s : State) : exec .heartbeatLost s = .next
    (if s.mode.mode ≠ .initial ∧ s.intake.heartbeat.lost = false ∧
      s.heartbeatTimeout ≤ s.intake.heartbeat.age + 10 then s.evaluateHeartbeat false else s) := rfl

/-- A slot that expires ages out at its timeout (R6). -/
theorem expires_aged {r : SlotRec} (used : r.type ≠ .unused) (never : r.condition ≠ .never)
    (stale : r.condition ≠ .stale) (due : r.timeout ≤ r.age + 10) :
    r.expires = true ∧ r.aged = { r with condition := .stale, age := r.timeout } := by
  refine ⟨?_, by rw [aged_eq, if_pos ⟨due, never⟩, Nat.min_eq_right due]⟩
  unfold SlotRec.expires
  cases hc : r.condition <;> simp_all [Condition.agesOut]

/-- A heartbeat that is due ages out at its timeout (R10). -/
theorem heartbeat_aged_of_due {h : Heartbeat} {timeout : Nat} (due : timeout ≤ h.age + 10) :
    h.aged timeout = ⟨true, timeout, 0⟩ := by
  simp [Heartbeat.aged, Nat.min_eq_right due]

/-- SLOT_STALE is the ageing of the slot (R9) and an evaluation of the data-fault demand (log 53). -/
theorem slotStale_ages (s : State) (i : Fin 64) (awake : s.mode.mode ≠ .initial)
    (used : (s.slotRec i).type ≠ .unused) (never : (s.slotRec i).condition ≠ .never)
    (stale : (s.slotRec i).condition ≠ .stale) (due : (s.slotRec i).timeout ≤ (s.slotRec i).age + 10) :
    ∃ t, exec (.slotStale i) s = .next t ∧
      onlyMessages ((s.withIntake t.intake).withGauges t.gauges) t ∧ pends t .slotStale ∧
      t.slotRec i = { s.slotRec i with condition := .stale, age := (s.slotRec i).timeout } ∧
      (∀ j, j ≠ i → t.slotRec j = s.slotRec j) ∧ t.intake.heartbeat = s.intake.heartbeat ∧
      (t.intake.dataFault = true ↔ (∃ q, s.tables.slots = some q ∧ q.dataFaultLamp ≠ none) ∧
        ∃ j : Fin 64, s.referenced j = true ∧
          ((t.slotRec j).condition = .error ∨ (t.slotRec j).condition = .stale)) ∧
      channelsFollow s t (fun _ => none) := by
  obtain ⟨expires, aged⟩ := expires_aged used never stale due
  have turn := (ageSlot_slotTurn s i).before_aside (evaluateDataFault_aside _)
  have frame := ageSlot_slotFrame s i
  refine ⟨_, (exec_slotStale s i).trans (by rw [if_pos ⟨awake, expires⟩]), ?_, ?_, ?_, turn.others, frame.heartbeat,
    evaluateDataFault_iff (ageSlot_slotTurn s i).tables, turn.channelsFollow⟩
  · have mode : (s.ageSlot i).evaluateDataFault.mode = s.mode := frame.mode
    have only := turn.onlyMessages
    rwa [mode] at only
  · exact (ageSlot_pends s i stale (by rw [aged]) : pends (s.ageSlot i) .slotStale)
  · exact (ageSlot_slotRec s i).trans aged

/-- HEARTBEAT_LOST is the heartbeat's ageing to its timeout (R10), with the entry into LIMP (R161). -/
theorem heartbeatLost_loses (s : State) (awake : s.mode.mode ≠ .initial) (held : s.intake.heartbeat.lost = false)
    (due : s.heartbeatTimeout ≤ s.intake.heartbeat.age + 10) :
    ∃ t, exec .heartbeatLost s = .next t ∧ onlyMessages ((s.withIntake t.intake).withMode t.mode) t ∧
      t.intake = { s.intake with heartbeat := ⟨true, s.heartbeatTimeout, 0⟩ } ∧
      (s.mode.mode ≠ .running → t.mode = s.mode) ∧
      (s.mode.mode = .running → t.mode = { s.mode with mode := .limp } ∧ pends t .modeChange ∧
        pends t .linkLimp ∧ (s.stack.withinCapacity → t.stack.keeps msgLinkFault .red)) := by
  have eq : s.evaluateHeartbeat false = s.setHeartbeat ⟨true, s.heartbeatTimeout, 0⟩ := by
    rw [State.evaluateHeartbeat, if_neg (by decide), heartbeat_aged_of_due due]
  have aside := setHeartbeat_aside s ⟨true, s.heartbeatTimeout, 0⟩
  have intake := setHeartbeat_heartbeat s ⟨true, s.heartbeatTimeout, 0⟩
  have limp := limpJudged_of_setHeartbeat (SlotFrame.refl s)
    (SlotFrame.refl (s.setHeartbeat ⟨true, s.heartbeatTimeout, 0⟩))
  have lost : (s.setHeartbeat ⟨true, s.heartbeatTimeout, 0⟩).intake.heartbeat.lost = true := by rw [intake]
  refine ⟨_, (exec_heartbeatLost s).trans (by rw [if_pos ⟨awake, held, due⟩, eq]), ?_, intake, fun other => ?_,
    fun running => limp.1 running held lost⟩
  · have only := aside.onlyMessages
    rwa [State.setHeartbeat_gauges] at only
  · exact (limp.2.2 (.inl other)).1 (.inr (.inl held))

/-- Settles O49: the two commands do to the slot and to the heartbeat what the scan that comes would do (log 5). -/
theorem slotsGoStaleAndHeartbeatIsLost : Obligations.SlotsGoStaleAndHeartbeatIsLost :=
  ⟨fun s i awake used never stale due => slotStale_ages s i awake used never stale due,
    fun s awake held due => heartbeatLost_loses s awake held due⟩

/-! ## The adoption of SLOTS (R15) -/

/-- The adoption of one slot is a change of the slot without a reading. -/
theorem adoptSlot_slotTurn (t : SlotsTable) (s : State) (i : Fin 64) : SlotTurn i none s (State.adoptSlot t s i) :=
  changeSlot_slotTurn s i _ false (by simp)

/-- The slots under the new table. -/
theorem adoptSlots_slotRec (t : SlotsTable) (s : State) (i : Fin 64) :
    (allSlots.foldl (State.adoptSlot t) s).slotRec i = (s.slotRec i).adopt (t.entryOf i) := by
  obtain ⟨u, before, after⟩ := allSlots_reach (adoptSlot_slotTurn t) i s
  rw [after.slot, State.adoptSlot, changeSlot_slotRec, if_pos rfl, before.slot]

/-- The round over the slots leaves mode control and the heartbeat alone. -/
theorem adoptSlots_slotFrame (t : SlotsTable) (s : State) : SlotFrame s (allSlots.foldl (State.adoptSlot t) s) :=
  foldl_relates SlotFrame.refl SlotFrame.trans allSlots (fun u i _ => changeSlot_slotFrame u i _ false) s

/-- The table store at the end of a held LOAD TABLE, before the order itself ends (R179). -/
def State.reported (s : State) (k : TableKind) (r : Result) : State :=
  s.withTables { s.tables with incoming := none, report := ⟨k.code, r.code, 0, 0⟩ }

/-- A held LOAD TABLE ends with its report and its result word. -/
theorem endLoad_eq (s : State) (k : TableKind) (r : Result) : s.endLoad k r = (s.reported k r).finish r 0 := rfl

/-- The incoming table that a held order waits for. -/
theorem awaited_of_awaits {s : State} {n : Strip} {k : TableKind} (h : awaits s n (.table k) .loadTable) :
    s.awaited k = s.tables.incoming := by
  rw [State.awaited, if_pos ⟨h.1, h.2.1⟩]

theorem exec_slotsTableAdoption {s : State} {n : Strip} {t : SlotsTable} {len : Nat} {sum : Word}
    (h : awaits s n (.table .slots) .loadTable) (hi : s.tables.incoming = some ⟨.slots t, len, sum⟩) :
    exec .slotsTableAdoption s = .next
      ((((allSlots.foldl (State.adoptSlot t) (s.install .slots ⟨.slots t, len, sum⟩)).adoptHeartbeat).reported
        .slots .done).finish .done 0) := by
  show execSlotsTableAdoption s = _
  rw [execSlotsTableAdoption, awaited_of_awaits h, hi]
  exact congrArg Host.Outcome.next (endLoad_eq _ .slots .done)

theorem adopt_timeout (r : SlotRec) (e : SlotEntry) : (r.adopt e).timeout = 10 * e.timeout := by
  unfold SlotRec.adopt
  split <;> rfl

/-- The record that a slot takes at the adoption: kept with the new timeout where the type stays, NEVER where it
changes; slot 0 is the heartbeat slot (R2, R3, R15). -/
theorem adopt_entryOf (t : SlotsTable) (i : Fin 64) (r : SlotRec) (type : SlotType) (timeout : Nat)
    (h : i = 0 ∧ type = .heartbeat ∧ timeout = 10 * t.heartbeatTimeout ∨
      i ≠ 0 ∧ type = t.entries[i].type ∧ timeout = 10 * t.entries[i].timeout) :
    (type = r.type → r.adopt (t.entryOf i) = { r with timeout := timeout, age := min r.age timeout }) ∧
    (type ≠ r.type → r.adopt (t.entryOf i) = ⟨type, timeout, .never, r.lastSeq, 0, 0⟩) := by
  have entry : (t.entryOf i).type = type ∧ 10 * (t.entryOf i).timeout = timeout := by
    unfold SlotsTable.entryOf
    obtain ⟨zero, rfl, rfl⟩ | ⟨other, rfl, rfl⟩ := h
    · rw [if_pos zero]
      exact ⟨rfl, rfl⟩
    · rw [if_neg other]
      exact ⟨rfl, rfl⟩
  unfold SlotRec.adopt
  rw [entry.1, entry.2]
  exact ⟨fun same => if_pos same, fun changed => if_neg changed⟩

/-- Settles O41: the adoption is a round over the slots without readings, after which the heartbeat's age is cut and
the demand withdrawn. -/
theorem slotsAdoptionRetypesSlots : Obligations.SlotsAdoptionRetypesSlots := by
  intro s n t len sum h hi
  have frame := allSlots_frame (adoptSlot_slotTurn t) (s.install .slots ⟨.slots t, len, sum⟩)
  have follow := allSlots_channelsFollow (adoptSlot_slotTurn t) (fun _ _ _ _ _ => rfl)
    (s.install .slots ⟨.slots t, len, sum⟩)
  have slots := adoptSlots_slotRec t (s.install .slots ⟨.slots t, len, sum⟩)
  have kept := adoptSlots_slotFrame t (s.install .slots ⟨.slots t, len, sum⟩)
  have exec := exec_slotsTableAdoption h hi
  generalize allSlots.foldl (State.adoptSlot t) (s.install .slots ⟨.slots t, len, sum⟩) = u at *
  have timeout : u.heartbeatTimeout = 10 * t.heartbeatTimeout := by
    rw [State.heartbeatTimeout, slots, adopt_timeout]
    rfl
  refine ⟨_, endsOrder_of_finish h exec frame.engine ?_ ?_ rfl, ?_, ?_, ?_, ?_, rfl, ?_⟩
  · exact fun a _ => readXm_congr frame.xm a
  · exact (congrArg Memory.wf frame.xm).trans h.2.2.2.2
  · show { u.tables with incoming := none, report := ⟨3, 0, 0, 0⟩ } = _
    rw [frame.tables]
    rfl
  · exact (onlyMessages_iff _ _).2 ⟨kept.mode, frame.xm, frame.engine, rfl, rfl, rfl, frame.speed, frame.store,
      frame.lamps, frame.hours, frame.panel, frame.prescale, frame.pending⟩
  · intro i type timeout entry
    have adopt := adopt_entryOf t i (s.slotRec i) type timeout entry
    exact ⟨fun same => (slots i).trans (adopt.1 same), fun changed => (slots i).trans (adopt.2 changed)⟩
  · show { u.intake.heartbeat with age := min u.intake.heartbeat.age u.heartbeatTimeout } = _
    rw [timeout, kept.heartbeat]
    rfl
  · exact channelsFollow_aside follow rfl rfl rfl

/-! ## The scan (R6 to R14) -/

theorem exec_intakeScan {s : State} (awake : s.mode.mode ≠ .initial) (mid : List MidAccess) :
    exec (.intakeScan mid) s = .next (s.scan mid) :=
  congrArg Host.Outcome.next (if_neg awake)

theorem scanSlot_nil_slotTurn (s : State) (i : Fin 64) : SlotTurn i (s.validReading i) s (State.scanSlot [] s i) :=
  (readSlot_nil_slotTurn s i).before_aside (scanSlot_aside [] s i)

/-- Slots other than slot 0 feed no heartbeat. -/
theorem scanSlot_nil_slotFrame (s : State) {i : Fin 64} (h : i ≠ 0) : SlotFrame s (State.scanSlot [] s i) := by
  rw [State.scanSlot, if_neg h]
  exact readSlot_nil_slotFrame s i

theorem validReading_congr {s t : State} {i : Fin 64} (hx : t.xm = s.xm) (hs : t.slotRec i = s.slotRec i) :
    t.validReading i = s.validReading i := by
  unfold State.validReading State.readXm
  rw [hx, hs]

/-- The turn of slot `i` in a scan without accesses meets its slot as it was before the scan, and its words. -/
theorem scan_reach (s : State) (i : Fin 64) :
    ∃ u, Beside i s u ∧ Beside i (State.scanSlot [] u i) (s.scan []) := by
  obtain ⟨u, before, after⟩ := allSlots_reach scanSlot_nil_slotTurn i s
  exact ⟨u, before, after.trans ((evaluateDataFault_aside _).beside i)⟩

/-- What the turn of a slot leaves of its record, and the cause that it raises. -/
theorem scanSlot_nil_cases (s : State) (i : Fin 64) (r : SlotRec) (tag value : Word) (hr : r = s.slotRec i)
    (ht : tag = s.readXm (0x41 + 2 * i.val)) (hv : value = s.readXm (0x40 + 2 * i.val)) :
    (r.type = .unused → (State.scanSlot [] s i).slotRec i = r) ∧
    (r.type ≠ .unused → tag.truncate 8 ≠ r.lastSeq → (State.scanSlot [] s i).slotRec i = r.accept tag value) ∧
    (r.type ≠ .unused → tag.truncate 8 = r.lastSeq → (State.scanSlot [] s i).slotRec i = r.aged ∧
      (r.condition ≠ .stale → r.aged.condition = .stale → pends (State.scanSlot [] s i) .slotStale)) := by
  subst hr ht hv
  have aside := scanSlot_aside [] s i
  have read := readSlot_nil s i
  refine ⟨fun unused => ?_, fun used fresh => ?_, fun used same => ⟨?_, fun was is => ?_⟩⟩
  · rw [aside.slot, read, if_pos unused]
  · rw [aside.slot, read, if_neg used, if_pos fresh, acceptSlot_slotRec]
  · rw [aside.slot, read, if_neg used, if_neg (not_not_intro same), ageSlot_slotRec]
  · refine aside.raises.pends _ ?_
    rw [read, if_neg used, if_neg (not_not_intro same)]
    exact ageSlot_pends s i was is

/-- The record after an accepted reading, by the quality of its tag (R1, R7, R8). -/
theorem accept_cases (r : SlotRec) (tag value : Word) :
    (bits tag 8 2 = 0 → r.accept tag value = ⟨r.type, r.timeout, .good, tag.truncate 8, value, 0⟩) ∧
    (bits tag 8 2 = 2 → r.accept tag value = ⟨r.type, r.timeout, .notAvailable, tag.truncate 8, r.accepted, 0⟩) ∧
    (bits tag 8 2 = 1 ∨ bits tag 8 2 = 3 →
      r.accept tag value = ⟨r.type, r.timeout, .error, tag.truncate 8, r.accepted, 0⟩) := by
  unfold SlotRec.accept tagQuality
  refine ⟨fun q => ?_, fun q => ?_, ?_⟩
  · rw [q]; rfl
  · rw [q]; rfl
  · rintro (q | q) <;> rw [q] <;> rfl

/-- Whether a reading is accepted, and that no reading changes the slot's timeout. -/
theorem readSlot_nil_facts (s : State) (i : Fin 64) :
    ((s.readSlot [] i).1.slotRec i).timeout = (s.slotRec i).timeout ∧
    ((s.slotRec i).type ≠ .unused →
      ((s.readSlot [] i).2 = true ↔ (s.readXm (0x41 + 2 * i.val)).truncate 8 ≠ (s.slotRec i).lastSeq)) := by
  rw [readSlot_nil]
  split
  · rename_i unused
    exact ⟨rfl, fun used => absurd unused used⟩
  · split
    · rename_i fresh
      exact ⟨by rw [acceptSlot_slotRec]; rfl, fun _ => iff_of_true rfl fresh⟩
    · rename_i same
      exact ⟨by rw [ageSlot_slotRec]; rfl, fun _ => iff_of_false Bool.false_ne_true same⟩

/-- Slot 0 feeds the heartbeat (R10): the evaluation stands between two treatments of slots. -/
theorem scan_heartbeat (s : State) : ∃ v accepted, SlotFrame s v ∧
    SlotFrame (v.evaluateHeartbeat accepted) (s.scan []) ∧ v.heartbeatTimeout = s.heartbeatTimeout ∧
    ((s.slotRec 0).type ≠ .unused →
      (accepted = true ↔ (s.readXm 0x41).truncate 8 ≠ (s.slotRec 0).lastSeq)) := by
  obtain ⟨u, ⟨before, beside⟩, after, _⟩ := foldl_reaches (f := State.scanSlot [])
    (R := fun a b => SlotFrame a b ∧ Beside 0 a b) (fun a => ⟨.refl a, .refl 0 a⟩)
    (fun ab bd => ⟨ab.1.trans bd.1, ab.2.trans bd.2⟩)
    (fun a i ne => ⟨scanSlot_nil_slotFrame a ne, (scanSlot_nil_slotTurn a i).beside ne⟩)
    nodup_allSlots (mem_allSlots 0) s
  have demand (t : State) : SlotFrame t t.evaluateDataFault := ⟨rfl, rfl, .of_link rfl, id, fun _ _ _ => .refl _ _⟩
  obtain ⟨timeout, accepted⟩ := readSlot_nil_facts u 0
  have xm : u.readXm (0x41 + 2 * (0 : Fin 64).val) = s.readXm 0x41 := readXm_congr beside.xm _
  rw [beside.slot] at timeout accepted
  rw [xm] at accepted
  exact ⟨_, _, before.trans (readSlot_nil_slotFrame u 0), after.trans (demand _), timeout, accepted⟩

/-- The heartbeat record after its evaluation (R10). -/
theorem heartbeat_cases (h : Heartbeat) (timeout : Nat) :
    (h.lost = false → h.accepted = ⟨false, 0, 0⟩) ∧
    (h.lost = true → h.restore = 0 → h.accepted = ⟨true, 0, 1⟩) ∧
    (h.lost = true → h.restore ≠ 0 → h.accepted = ⟨false, 0, 0⟩) ∧
    (h.age + 10 < timeout → h.aged timeout = { h with age := h.age + 10 }) := by
  unfold Heartbeat.accepted Heartbeat.aged
  refine ⟨fun held => ?_, fun lost first => ?_, fun lost second => ?_, fun early => ?_⟩
  · simp [held]
  · simp [lost, first]
  · simp [lost, second]
  · rw [Nat.min_eq_left early.le]
    exact if_neg early.ne

/-- INTAKE_SCAN without link accesses inside it: the statement about the slots, one by one. -/
theorem scan_slots (s : State) (i : Fin 64) (r : SlotRec) (tag value : Word) (hr : r = s.intake.slots[i])
    (ht : tag = s.readXm (0x41 + 2 * i.val)) (hv : value = s.readXm (0x40 + 2 * i.val)) :
    (r.type = .unused → (s.scan []).slotRec i = r) ∧
    (r.type ≠ .unused → tag.truncate 8 ≠ r.lastSeq →
      (bits tag 8 2 = 0 → (s.scan []).slotRec i = ⟨r.type, r.timeout, .good, tag.truncate 8, value, 0⟩) ∧
      (bits tag 8 2 = 2 → (s.scan []).slotRec i = ⟨r.type, r.timeout, .notAvailable, tag.truncate 8, r.accepted, 0⟩) ∧
      (bits tag 8 2 = 1 ∨ bits tag 8 2 = 3 →
        (s.scan []).slotRec i = ⟨r.type, r.timeout, .error, tag.truncate 8, r.accepted, 0⟩)) ∧
    (r.type ≠ .unused → tag.truncate 8 = r.lastSeq →
      (s.scan []).slotRec i = { r with
        age := min (r.age + 10) r.timeout
        condition := if r.timeout ≤ r.age + 10 ∧ r.condition ≠ .never then .stale else r.condition } ∧
      (r.timeout ≤ r.age + 10 → r.condition ≠ .never → r.condition ≠ .stale → pends (s.scan []) .slotStale)) := by
  obtain ⟨u, before, after⟩ := scan_reach s i
  have read := readXm_congr before.xm
  obtain ⟨unused, fresh, same⟩ := scanSlot_nil_cases u i r tag value (hr.trans before.slot.symm)
    (ht.trans (read _).symm) (hv.trans (read _).symm)
  rw [← after.slot] at unused fresh same
  obtain ⟨valid, notAvailable, error⟩ := accept_cases r tag value
  refine ⟨unused, fun used new => ?_, fun used old => ?_⟩
  · have accepted := fresh used new
    exact ⟨fun q => accepted.trans (valid q), fun q => accepted.trans (notAvailable q),
      fun q => accepted.trans (error q)⟩
  · obtain ⟨aged, pending⟩ := same used old
    refine ⟨aged.trans (aged_eq r), fun due never stale => after.raises.pends _ (pending stale ?_)⟩
    rw [aged_eq]
    exact if_pos ⟨due, never⟩

/-- INTAKE_SCAN without link accesses inside it: the statement about the heartbeat (R10). -/
theorem scan_heartbeat_cases (s : State) (used : (s.slotRec 0).type ≠ .unused) (accepted : Prop)
    (ha : accepted ↔ (s.readXm 0x41).truncate 8 ≠ (s.slotRec 0).lastSeq) :
    (accepted → s.intake.heartbeat.lost = false → (s.scan []).intake.heartbeat = ⟨false, 0, 0⟩) ∧
    (accepted → s.intake.heartbeat.lost = true → s.intake.heartbeat.restore = 0 →
      (s.scan []).intake.heartbeat = ⟨true, 0, 1⟩) ∧
    (accepted → s.intake.heartbeat.lost = true → s.intake.heartbeat.restore ≠ 0 →
      (s.scan []).intake.heartbeat = ⟨false, 0, 0⟩) ∧
    (¬accepted → s.intake.heartbeat.age + 10 < (s.slotRec 0).timeout →
      (s.scan []).intake.heartbeat = { s.intake.heartbeat with age := s.intake.heartbeat.age + 10 }) ∧
    (¬accepted → (s.slotRec 0).timeout ≤ s.intake.heartbeat.age + 10 →
      (s.scan []).intake.heartbeat = ⟨true, (s.slotRec 0).timeout, 0⟩) := by
  obtain ⟨v, taken, before, after, timeout, htaken⟩ := scan_heartbeat s
  have heart : (s.scan []).intake.heartbeat =
      if taken = true then s.intake.heartbeat.accepted else s.intake.heartbeat.aged (s.slotRec 0).timeout := by
    rw [after.heartbeat, State.evaluateHeartbeat, setHeartbeat_heartbeat, before.heartbeat, timeout]
    rfl
  have htaken : taken = true ↔ accepted := (htaken used).trans ha.symm
  rw [heart]
  obtain ⟨held, first, second, early⟩ := heartbeat_cases s.intake.heartbeat (s.slotRec 0).timeout
  refine ⟨fun x h => ?_, fun x h => ?_, fun x h => ?_, fun x h => ?_, fun x h => ?_⟩
  · rw [if_pos (htaken.2 x), held h]
  · rw [if_pos (htaken.2 x)]; exact first h
  · rw [if_pos (htaken.2 x)]; exact second h
  · rw [if_neg (mt htaken.1 x), early h]
  · rw [if_neg (mt htaken.1 x), heartbeat_aged_of_due h]

/-- INTAKE_SCAN without link accesses inside it judges the mode by the heartbeat (R161). -/
theorem scan_limpJudged (s : State) : limpJudged s (s.scan []) := by
  obtain ⟨v, taken, before, after, _⟩ := scan_heartbeat s
  exact limpJudged_of_setHeartbeat before after

/-! ## An access inside the scan (R7) -/

/-- A WDAT write to a word that is not protected stores it (R168, R169). -/
theorem access_wdatWrite {s : State} (awake : s.mode.mode ≠ .initial) (space : s.link.space = 0)
    (free : s.protectedWord s.link.addr = false) (w : Word) :
    s.access (.wdatWrite w) = (s.writeXm s.link.addr w).withLink s.link.advance := by
  have stored : s.refusesWdat = false := by simp [State.refusesWdat, space, free]
  unfold State.access State.takeAccess State.writeWdat
  rw [if_neg awake, stored]
  rfl

/-- The host may write the words of the slots. -/
theorem tag_not_protected (s : State) (i : Fin 64) : s.protectedWord (0x41 + 2 * i.val) = false := by
  have := i.isLt
  unfold State.protectedWord
  rw [decide_eq_false (by omega), decide_eq_false (by omega), decide_eq_false (by omega)]
  rfl

/-- A tag written between the two readings of a slot leaves its reading discarded (R7). -/
theorem readSlot_discards {s : State} {i : Fin 64} {w : Word} (awake : s.mode.mode ≠ .initial)
    (wf : s.xm.wf = true) (space : s.link.space = 0) (addr : s.link.addr = 0x41 + 2 * i.val)
    (other : w.truncate 8 ≠ (s.readXm (0x41 + 2 * i.val)).truncate 8) (used : (s.slotRec i).type ≠ .unused) :
    ∃ u : State, s.readSlot [⟨2 * i.val, .wdatWrite w⟩] i = (u.ageSlot i, false) ∧ u.intake = s.intake ∧
      u.readXm (0x41 + 2 * i.val) = w := by
  have write := access_wdatWrite awake space (addr ▸ tag_not_protected s i) w
  have first : s.accessesAt [⟨2 * i.val, .wdatWrite w⟩] (2 * i.val) = s.access (.wdatWrite w) := by
    simp [State.accessesAt]
  have second : ∀ u : State, u.accessesAt [⟨2 * i.val, .wdatWrite w⟩] (2 * i.val + 1) = u :=
    accessesAt_of_forall_ne (by simp)
  have read : (s.access (.wdatWrite w)).readXm (0x41 + 2 * i.val) = w := by
    rw [write, ← addr]
    exact (State.readXm_writeXm wf (by omega) _ w).trans (if_pos rfl)
  refine ⟨s.access (.wdatWrite w), ?_, State.access_intake s _, read⟩
  unfold State.readSlot
  dsimp only
  rw [first, second, if_neg used, if_neg]
  rintro ⟨_, twice, _⟩
  exact other (read ▸ twice)

/-- The scan with such a write in the reading of slot `i`: the word stands, and the slot has aged. -/
theorem scan_discards {s : State} {i : Fin 64} {w : Word} (awake : s.mode.mode ≠ .initial)
    (wf : s.xm.wf = true) (space : s.link.space = 0) (addr : s.link.addr = 0x41 + 2 * i.val)
    (other : w.truncate 8 ≠ (s.readXm (0x41 + 2 * i.val)).truncate 8) (used : (s.slotRec i).type ≠ .unused) :
    (s.scan [⟨2 * i.val, .wdatWrite w⟩]).readXm (0x41 + 2 * i.val) = w ∧
      (s.scan [⟨2 * i.val, .wdatWrite w⟩]).slotRec i = (s.slotRec i).aged := by
  have apart : ∀ (u : State) (j : Fin 64), j ≠ i → Beside i u (State.scanSlot [⟨2 * i.val, .wdatWrite w⟩] u j) := by
    intro u j ne
    have eq : State.scanSlot [⟨2 * i.val, .wdatWrite w⟩] u j = State.scanSlot [] u j := by
      unfold State.scanSlot
      rw [readSlot_of_forall_ne (by simp; omega)]
    rw [eq]
    exact (scanSlot_nil_slotTurn u j).beside ne
  obtain ⟨u, before, after⟩ := foldl_reaches (Beside.refl i) Beside.trans apart nodup_allSlots (mem_allSlots i) s
  have after : Beside i _ (s.scan [⟨2 * i.val, .wdatWrite w⟩]) := after.trans ((evaluateDataFault_aside _).beside i)
  have link := before.raises.link
  have read := readXm_congr before.xm (0x41 + 2 * i.val)
  obtain ⟨v, discards, intake, written⟩ := readSlot_discards (w := w) (before.awake awake) (before.xm ▸ wf)
    (by rw [link]; exact space) (by rw [link]; exact addr) (read ▸ other) (before.slot ▸ used)
  have aside := scanSlot_aside [⟨2 * i.val, .wdatWrite w⟩] u i
  rw [discards] at aside
  constructor
  · exact (readXm_congr ((after.xm.trans aside.xm).trans (State.ageSlot_xm v i)) _).trans written
  · have aged := (after.slot.trans (aside.slot i)).trans (ageSlot_slotRec v i)
    have same : v.slotRec i = s.slotRec i := by
      rw [← before.slot]
      unfold State.slotRec
      rw [intake]
    rw [same] at aged
    exact aged

/-- Settles O48: the scan is a round over the slots, with the heartbeat after slot 0 and the demand at its end. -/
theorem intakeScanAcceptsOrAgesSlots : Obligations.IntakeScanAcceptsOrAgesSlots := by
  constructor
  · intro s awake
    have frame := allSlots_frame scanSlot_nil_slotTurn s
    have follow := allSlots_channelsFollow scanSlot_nil_slotTurn (fun _ _ _ => validReading_congr) s
    have whole := frame.trans (evaluateDataFault_aside _).toIntakeFrame
    have demand := evaluateDataFault_iff frame.tables
    exact ⟨s.scan [], exec_intakeScan awake [], whole.xm, whole.onlyMessages, channelsFollow_evaluateDataFault follow,
      scan_slots s, scan_heartbeat_cases s, scan_limpJudged s, demand⟩
  · intro s i w awake wf space addr other used
    obtain ⟨written, aged⟩ := scan_discards awake wf space addr other used
    have aged : (s.scan [⟨2 * i.val, .wdatWrite w⟩]).intake.slots[i] = s.intake.slots[i].aged := aged
    exact ⟨_, exec_intakeScan awake _, written, by rw [aged]; rfl, by rw [aged]; rfl, by rw [aged]; rfl⟩

end Sys2Proof.Machine
end

section
/-! SUPPORT. What mode control judges after an event that leaves the mode and the intake to it (R160, R163). -/

namespace Sys2Proof.Machine

/-- Settling is a matter of the tables and the channels (R52). -/
theorem settling_congr {s t : State} (tables : t.tables = s.tables) (gauges : t.gauges = s.gauges) :
    t.settling = s.settling := by
  unfold State.settling
  simp only [enabledEntry_congr tables, gauges]

/-- Parked is a matter of the channels (R52). -/
theorem parked_congr {s t : State} (gauges : t.gauges = s.gauges) : t.parked = s.parked := by
  unfold State.parked
  rw [gauges]

theorem judgeRunning_of_ne {s : State} (h : s.mode.mode ≠ .starting) : s.judgeRunning = s :=
  if_neg fun starting => h starting.1

theorem judgeDormant_of_ne {s : State} (h : s.mode.mode ≠ .parking) : s.judgeDormant = s :=
  if_neg fun parking => h parking.1

/-- RUNNING is entered from STARTING, never PARKING. -/
theorem judgeRunning_not_parking {s : State} (h : s.mode.mode ≠ .parking) : s.judgeRunning.mode.mode ≠ .parking := by
  unfold State.judgeRunning
  split
  · exact (by decide : DeviceMode.running ≠ .parking)
  · exact h

theorem judgeRunning_runningJudged {s u : State} (mode : u.mode = s.mode) (intake : u.intake = s.intake) :
    runningJudged s u.judgeRunning := by
  unfold runningJudged
  rw [settling_congr u.judgeRunning_tables u.judgeRunning_gauges, State.judgeRunning_lamps, ← mode, ← intake]
  unfold State.judgeRunning
  split
  · exact ⟨rfl, rfl, pends_raise _ .modeChange⟩
  · exact ⟨rfl, rfl⟩

theorem judgeDormant_dormantJudged {s u : State} (mode : u.mode = s.mode) : dormantJudged s u.judgeDormant := by
  unfold dormantJudged
  rw [parked_congr u.judgeDormant_gauges, State.judgeDormant_store, ← mode]
  unfold State.judgeDormant
  split
  · exact ⟨rfl, pends_raise _ .modeChange⟩
  · rfl

/-- Both judgements in turn: in PARKING only the second can change the mode, elsewhere only the first. -/
theorem judged_modeJudged {s u : State} (mode : u.mode = s.mode) (intake : u.intake = s.intake) :
    modeJudged s u.judgeRunning.judgeDormant := by
  unfold modeJudged
  by_cases parking : s.mode.mode = .parking
  · have stays : u.judgeRunning = u := judgeRunning_of_ne (by rw [mode, parking]; decide)
    rw [if_pos parking, stays]
    exact ⟨judgeDormant_dormantJudged mode, u.judgeDormant_intake.trans intake⟩
  · rw [if_neg parking, judgeDormant_of_ne (judgeRunning_not_parking (mode ▸ parking))]
    exact judgeRunning_runningJudged mode intake

end Sys2Proof.Machine
end

section
/-! SUPPORT and the settling of O53. HOMING_END and HOLD_TIME_EXPIRED: one channel enters the state in which the update
that comes would leave it (R41, R42, log 5). -/

namespace Sys2Proof.Machine

/-! ## GAUGE INPUT FAULT -/

/-- A channel that enters FAILED from another state posts GAUGE INPUT FAULT (R51). -/
theorem enterWith_failed_keeps {s : State} {c : Fin 8} (was : s.gauges[c].state ≠ .failed) (h : s.stack.single)
    (ch : Channel) : (s.enterWith c ch .failed).stack.keeps (msgInputFault c) .amber := by
  have posts : s.enterWith c ch .failed = (s.setChannel c (ch.enter .failed)).post (msgInputFault c) .amber :=
    if_pos ⟨was, rfl⟩
  rw [posts]
  exact (State.post_spec (s := s.setChannel c (ch.enter .failed)) h (msgInputFault c) .amber
    (by simp [msgInputFault])).2.1

/-! ## The end of homing (R42) -/

theorem setChannel_channel (s : State) (c : Fin 8) (ch : Channel) : (s.setChannel c ch).gauges[c] = ch :=
  getElem_putAt_self s.gauges c ch

/-- The end of homing puts the channel at its stop, from where it enters the state that its after-homing field says. -/
theorem endHoming_enters (s : State) (c : Fin 8) (e : GaugeEntry) : ∃ ch,
    s.endHoming c e =
      (s.setChannel c (homed s.gauges[c])).enterWith c ch (afterHoming s s.gauges[c] e).state ∧
    ch.enter (afterHoming s s.gauges[c] e).state = afterHoming s s.gauges[c] e := by
  have stop := setChannel_channel s c (homed s.gauges[c])
  unfold State.endHoming afterHoming
  cases s.gauges[c].after with
  | sweep =>
    exact ⟨_, rfl, congrArg (fun ch : Channel => Channel.enter { ch with phase := .outward } .sweeping) stop⟩
  | park => exact ⟨_, rfl, congrArg (Channel.enter · .parked) stop⟩
  | source =>
    have needle : (homed s.gauges[c]).enter (called s e) = { homed s.gauges[c] with state := called s e } := by
      unfold called
      split <;> rfl
    exact ⟨_, rfl, (congrArg (Channel.enter · (called s e)) stop).trans needle⟩

theorem endHoming_channel (s : State) (c : Fin 8) (e : GaugeEntry) :
    (s.endHoming c e).gauges[c] = afterHoming s s.gauges[c] e := by
  obtain ⟨ch, enters, record⟩ := endHoming_enters s c e
  rw [enters, enterWith_channel, record]

theorem turnOf_endHoming (s : State) (c : Fin 8) (e : GaugeEntry) : TurnOf c s (s.endHoming c e) := by
  obtain ⟨ch, enters, _⟩ := endHoming_enters s c e
  rw [enters]
  exact (turnOf_setChannel s c _).trans (turnOf_enterWith _ c ch _)

/-- A homing channel was not FAILED: if its source has it FAILED after homing, it posts its message (R51). -/
theorem endHoming_keeps {s : State} {c : Fin 8} {e : GaugeEntry} (homing : s.gauges[c].state = .homing)
    (h : s.stack.single) (failed : (afterHoming s s.gauges[c] e).state = .failed) :
    (s.endHoming c e).stack.keeps (msgInputFault c) .amber := by
  obtain ⟨ch, enters, _⟩ := endHoming_enters s c e
  have was : (s.setChannel c (homed s.gauges[c])).gauges[c].state ≠ .failed := by
    rw [setChannel_channel, show (homed s.gauges[c]).state = .homing from homing]
    decide
  rw [enters, failed]
  exact enterWith_failed_keeps was h ch

/-! ## The two commands -/

theorem exec_homingEnd {s : State} {c : Fin 8} {e : GaugeEntry} (awake : s.mode.mode ≠ .initial)
    (he : s.enabledEntry c = some e) (homing : s.gauges[c].state = .homing) (due : s.gauges[c].homing ≤ 24) :
    exec (.homingEnd c) s = .next (s.endHoming c e).judgeRunning.judgeDormant := by
  change execHomingEnd c s = _
  unfold execHomingEnd
  rw [he]
  exact congrArg _ (if_pos ⟨awake, homing, due⟩)

theorem exec_holdTimeExpired {s : State} {c : Fin 8} {e : GaugeEntry} (awake : s.mode.mode ≠ .initial)
    (he : s.enabledEntry c = some e) (holding : s.gauges[c].state = .holding)
    (due : e.holdTime ≤ s.gauges[c].hold + 10) :
    exec (.holdTimeExpired c) s = .next (s.enterWith c { s.gauges[c] with hold := e.holdTime } .failed) := by
  change execHoldTimeExpired c s = _
  unfold execHoldTimeExpired
  rw [he]
  exact congrArg _ (if_pos ⟨awake, holding, due⟩)

/-- HOMING_END is the end of homing with the mode that follows (R42, R160, R163). -/
theorem homingEnd_homes {s : State} {c : Fin 8} {e : GaugeEntry} (awake : s.mode.mode ≠ .initial)
    (he : s.enabledEntry c = some e) (homing : s.gauges[c].state = .homing) (due : s.gauges[c].homing ≤ 24) :
    ∃ t, exec (.homingEnd c) s = .next t ∧
      onlyMessages (((s.withGauges t.gauges).withMode t.mode).withIntake t.intake) t ∧
      t.gauges[c] = afterHoming s s.gauges[c] e ∧ (∀ d, d ≠ c → t.gauges[d] = s.gauges[d]) ∧ modeJudged s t ∧
      (t.gauges[c].state = .failed → s.stack.withinCapacity → t.stack.keeps (msgInputFault c) .amber) := by
  have gauges : (s.endHoming c e).judgeRunning.judgeDormant.gauges = (s.endHoming c e).gauges := by simp
  have stack : (s.endHoming c e).judgeRunning.judgeDormant.stack = (s.endHoming c e).stack := by simp
  refine ⟨_, exec_homingEnd awake he homing due, (onlyMessages_iff _ _).2 (by simp), ?_⟩
  rw [gauges, stack]
  refine ⟨endHoming_channel s c e, (turnOf_endHoming s c e).others,
    judged_modeJudged (s.endHoming_mode c e) (s.endHoming_intake c e), fun failed capacity => ?_⟩
  obtain ⟨_, _, single, _⟩ := capacity
  exact endHoming_keeps homing single (endHoming_channel s c e ▸ failed)

/-- HOLD_TIME_EXPIRED brings the channel into FAILED with its hold timer at the hold time (R41). -/
theorem holdTimeExpired_fails {s : State} {c : Fin 8} {e : GaugeEntry} (awake : s.mode.mode ≠ .initial)
    (he : s.enabledEntry c = some e) (holding : s.gauges[c].state = .holding)
    (due : e.holdTime ≤ s.gauges[c].hold + 10) :
    ∃ t, exec (.holdTimeExpired c) s = .next t ∧ onlyMessages (s.withGauges t.gauges) t ∧
      t.gauges[c] = { s.gauges[c] with hold := e.holdTime, state := .failed } ∧
      (∀ d, d ≠ c → t.gauges[d] = s.gauges[d]) ∧
      (s.stack.withinCapacity → t.stack.keeps (msgInputFault c) .amber) := by
  refine ⟨_, exec_holdTimeExpired awake he holding due, (onlyMessages_iff _ _).2 (by simp),
    enterWith_channel s c _ .failed, (turnOf_enterWith s c _ .failed).others, fun capacity => ?_⟩
  obtain ⟨_, _, single, _⟩ := capacity
  exact enterWith_failed_keeps (by rw [holding]; decide) single _

/-- Settles O53: each command does to its channel what the update that comes would do to its state (log 5). -/
theorem homingEndsAndHoldTimeExpires : Obligations.HomingEndsAndHoldTimeExpires :=
  fun _ _ _ awake he =>
    ⟨fun homing due => homingEnd_homes awake he homing due, fun holding due => holdTimeExpired_fails awake he holding due⟩

end Sys2Proof.Machine
end

section
/-! SUPPORT. Operations that stand aside of the exchange: the end of an order may be taken before or after them. -/

namespace Sys2Proof.Machine

/-- A cause that is pending already stays pending once (R182). -/
theorem raise_of_pends {s : State} {c : Cause} (h : pends s c) : s.raise c = s := by
  have same : s.link.raise c = s.link := by
    have causes : s.link.causes ||| c.word = s.link.causes := by
      refine BitVec.eq_of_getLsbD_eq fun i _ => ?_
      rw [← bit_eq_getLsbD, ← bit_eq_getLsbD]
      refine (bit_raise s.link c i).trans ?_
      by_cases at_c : i = c.place
      · rw [at_c, show bit s.link.causes c.place = true from h]; rfl
      · rw [decide_eq_false at_c, Bool.or_false]
    rw [Link.raise, causes]
  rw [State.raise, same, State.withLink_self]

/-- Causes are raised in any order. -/
theorem raise_comm (s : State) (c d : Cause) : (s.raise c).raise d = (s.raise d).raise c := by
  have causes : (s.link.raise c).raise d = (s.link.raise d).raise c := by
    simp only [Link.raise, BitVec.or_assoc, BitVec.or_comm c.word]
  exact congrArg s.withLink causes

/-- The operation neither reads nor changes exchange memory and the order engine, and of the link port it raises causes
at most. -/
structure BesideExchange (f : State → State) : Prop where
  xm : ∀ s, (f s).xm = s.xm
  engine : ∀ s, (f s).engine = s.engine
  withXm : ∀ s m, f (s.withXm m) = (f s).withXm m
  withEngine : ∀ s e, f (s.withEngine e) = (f s).withEngine e
  raise : ∀ s c, f (s.raise c) = (f s).raise c

namespace BesideExchange
variable {f : State → State}

theorem writeXm (h : BesideExchange f) (s : State) (a : Nat) (w : Word) :
    f (s.writeXm a w) = (f s).writeXm a w := by
  refine (h.withXm s _).trans ?_
  rw [← h.xm s]
  rfl

theorem standing (h : BesideExchange f) (s : State) (n : Strip) : (f s).standing n = s.standing n := by
  unfold State.standing State.stripWord State.readXm
  rw [h.xm, h.engine]

theorem returnStrip (h : BesideExchange f) (s : State) (n : Strip) (r : StopReason) (k : Nat) :
    f (s.returnStrip n r k) = (f s).returnStrip n r k := by
  unfold State.returnStrip
  dsimp only
  rw [h.withEngine, h.raise, h.writeXm]
  simp only [State.raise_engine, State.writeXm_engine, h.engine]
  rfl

theorem stopOnce (h : BesideExchange f) (s : State) : f s.stopOnce = (f s).stopOnce := by
  unfold State.stopOnce
  rw [h.engine]
  cases s.engine.running with
  | none => rfl
  | some n =>
    dsimp only
    rw [h.standing]
    cases s.standing n with
    | stop r k => exact h.returnStrip s n r k
    | endWord | order _ => rfl

/-- The end of an order and such an operation may be taken in either order. -/
theorem finish (h : BesideExchange f) (s : State) (r : Result) (d : Nat) :
    f (s.finish r d) = (f s).finish r d := by
  unfold State.finish
  rw [h.engine]
  cases s.engine.running with
  | none => rfl
  | some n =>
    dsimp only
    rw [h.standing]
    cases s.standing n with
    | stop _ _ | endWord => rfl
    | order o =>
      dsimp only
      rw [State.stopStrips, h.stopOnce, h.stopOnce, h.withEngine, h.writeXm]
      simp only [State.writeXm_engine, h.engine]
      rfl

end BesideExchange

theorem besideExchange_raise (c : Cause) : BesideExchange fun s => s.raise c :=
  ⟨fun _ => rfl, fun _ => rfl, fun _ _ => rfl, fun _ _ => rfl, fun s d => raise_comm s d c⟩

theorem besideExchange_judgeDormant : BesideExchange State.judgeDormant where
  xm := State.judgeDormant_xm
  engine := State.judgeDormant_engine
  withXm s m := (apply_ite (fun t : State => t.withXm m) _ (s.setMode .dormant) s).symm
  withEngine s e := (apply_ite (fun t : State => t.withEngine e) _ (s.setMode .dormant) s).symm
  raise s c := by
    have setMode : (s.raise c).setMode .dormant = (s.setMode .dormant).raise c :=
      raise_comm (s.withMode { s.mode with mode := .dormant }) c .modeChange
    refine Eq.trans ?_ (apply_ite (fun t : State => t.raise c) _ (s.setMode .dormant) s).symm
    rw [← setMode]
    rfl

/-- The end of an order withdraws no cause. -/
theorem pends_finish {s : State} {c : Cause} (h : pends s c) (r : Result) (d : Nat) : pends (s.finish r d) c := by
  have raised := (besideExchange_raise c).finish s r d
  rw [raise_of_pends h] at raised
  rw [← raised]
  exact pends_raise _ c

theorem pends_judgeDormant {s : State} {c : Cause} (h : pends s c) : pends s.judgeDormant c := by
  unfold State.judgeDormant
  split
  · exact pends_raise_of (s.withMode { s.mode with mode := .dormant }) c .modeChange h
  · exact h

/-! ## The end of an operation of the store -/

theorem judgeDormant_of_busy {s : State} (h : s.store.busy = true) : s.judgeDormant = s :=
  if_neg fun ⟨_, _, idle⟩ => absurd (h.symm.trans idle) (by decide)

/-- An operation has ended, and mode control has judged (R61, R163). -/
def State.closed (s : State) : State := s.endOperation.judgeDormant

theorem besideExchange_closed : BesideExchange State.closed where
  xm s := besideExchange_judgeDormant.xm s.endOperation
  engine s := besideExchange_judgeDormant.engine s.endOperation
  withXm s m := besideExchange_judgeDormant.withXm s.endOperation m
  withEngine s e := besideExchange_judgeDormant.withEngine s.endOperation e
  raise s c := besideExchange_judgeDormant.raise s.endOperation c

/-- The end of an order between the two may be taken behind them. -/
theorem finish_closed (s : State) (r : Result) (d : Nat) :
    (s.endOperation.finish r d).judgeDormant = s.closed.finish r d :=
  besideExchange_judgeDormant.finish _ r d

@[simp] theorem closed_xm (s : State) : s.closed.xm = s.xm := State.judgeDormant_xm _
@[simp] theorem closed_engine (s : State) : s.closed.engine = s.engine := State.judgeDormant_engine _
@[simp] theorem closed_tables (s : State) : s.closed.tables = s.tables := State.judgeDormant_tables _
@[simp] theorem closed_intake (s : State) : s.closed.intake = s.intake := State.judgeDormant_intake _
@[simp] theorem closed_gauges (s : State) : s.closed.gauges = s.gauges := State.judgeDormant_gauges _
@[simp] theorem closed_speed (s : State) : s.closed.speed = s.speed := State.judgeDormant_speed _
@[simp] theorem closed_store (s : State) : s.closed.store = s.store.goOn s.speed.odometer := State.judgeDormant_store _
@[simp] theorem closed_lamps (s : State) : s.closed.lamps = s.lamps := State.judgeDormant_lamps _
@[simp] theorem closed_hours (s : State) : s.closed.hours = s.hours := State.judgeDormant_hours _
@[simp] theorem closed_stack (s : State) : s.closed.stack = s.stack := State.judgeDormant_stack _
@[simp] theorem closed_panel (s : State) : s.closed.panel = s.panel := State.judgeDormant_panel _
@[simp] theorem closed_prescale (s : State) : s.closed.prescale = s.prescale := State.judgeDormant_prescale _
@[simp] theorem closed_pending (s : State) : s.closed.pending = s.pending := State.judgeDormant_pending _

theorem pends_closed {s : State} {c : Cause} (h : pends s c) : pends s.closed c := pends_judgeDormant h

/-- It touches the store, mode control and causes alone. -/
theorem closed_eq (s : State) : s.closed =
    ((s.withStore s.closed.store).withMode s.closed.mode).withLink { s.link with causes := s.closed.link.causes } := by
  unfold State.closed State.judgeDormant
  split <;> rfl

/-- Mode control judges from the mode that the event found. -/
theorem closed_dormantJudged {s u : State} (mode : u.mode = s.mode) : dormantJudged s u.closed :=
  judgeDormant_dormantJudged (u := u.endOperation) mode

/-- Messages, the store and the speed unit aside, the end of an operation leaves the mode to mode control. -/
theorem closed_frame {s u : State} {t : Store} {v : Speed} (frame : onlyMessages ((s.withStore t).withSpeed v) u) :
    onlyMessages (((s.withStore u.closed.store).withSpeed v).withMode u.closed.mode) u.closed ∧
      dormantJudged s u.closed := by
  obtain ⟨mode, xm, engine, tables, intake, gauges, speed, _, others⟩ := (onlyMessages_iff _ _).1 frame
  refine ⟨(onlyMessages_iff _ _).2 ?_, closed_dormantJudged mode⟩
  simpa using ⟨xm, engine, tables, intake, gauges, speed, others⟩

/-- A frame that names the store holds with another store. -/
theorem withStore_frame {s u : State} {t : Store} {v : Speed} (frame : onlyMessages ((s.withStore t).withSpeed v) u)
    (t' : Store) : onlyMessages ((s.withStore t').withSpeed v) (u.withStore t') := by
  obtain ⟨mode, xm, engine, tables, intake, gauges, speed, _, others⟩ := (onlyMessages_iff _ _).1 frame
  exact (onlyMessages_iff _ _).2 ⟨mode, xm, engine, tables, intake, gauges, speed, rfl, others⟩

/-- An order that waits for the store ends with the state that the completion leaves, exchange memory and the engine
aside. -/
theorem awaits_ends {c : Instr} {s m : State} {n : Strip} {k : Hold} {o : Order} {r : Result} {d : Nat} {w : Word}
    (h : awaits s n k o) (runs : exec c s = .next (m.finish r d)) (engine : m.engine = s.engine) (xm : m.xm = s.xm)
    (word : resultWord r d = w) : endsOrder c s m n o w := by
  obtain ⟨_, _, _, _, wf⟩ := id h
  exact endsOrder_of_finish h runs engine (fun a _ => readXm_congr xm a) (xm ▸ wf) word

/-- A stack that meets its invariant holds no identity twice. -/
theorem single_of_withinCapacity {k : Stack} (h : k.withinCapacity) : k.single := by
  obtain ⟨_, _, single, _⟩ := h
  exact single

end Sys2Proof.Machine
end

section
/-! The settling of O8. The passing of time on the part's time base (log 2, log 3, log 41). -/

namespace Sys2Proof.Machine

/-- The tone changes at an edge only, and the play time waits before each (R91, log 3). -/
theorem chime_elapse_passed (c : Chime) (ms : Nat) : chimePassed ms c (c.elapse ms) := by
  obtain ⟨playing, time, continuous, waiting⟩ := c
  unfold chimePassed Chime.elapse Chime.tone
  cases playing with
  | silent | single | click => exact ⟨rfl, rfl, rfl⟩
  | continuous =>
    by_cases first : time < 500
    · simp only [if_pos first]
      exact ⟨trivial, decide_eq_decide.2 (by omega), trivial⟩
    · simp only [if_neg first]
      exact ⟨trivial, decide_eq_decide.2 (by omega), trivial⟩

theorem debouncer_elapse_passed (d : Debouncer) (ms : Nat) : debouncerPassed ms d (d.elapse ms) := by
  refine ⟨rfl, rfl, rfl, fun same => if_pos same, fun other => if_neg other, fun pressed fresh => ?_, fun still => ?_⟩
  · exact if_pos (by rw [pressed, fresh]; rfl)
  · refine if_neg ?_
    rintro runs
    obtain ⟨pressed, fresh⟩ := Bool.and_eq_true_iff.1 runs
    rcases still with released | given
    · exact absurd (released.symm.trans pressed) (by decide)
    · rw [given] at fresh
      exact absurd fresh (by decide)

theorem panel_elapse_debouncer (p : Panel) (ms : Nat) (k : Key) :
    (p.elapse ms).debouncer k = (p.debouncer k).elapse ms := by
  cases k <;> rfl

/-- In INITIAL the INITIAL count goes on, unless a reset is held, and otherwise the ignition settle timer (R155,
R157). -/
theorem mode_elapse_cases (m : ModeControl) (ms : Nat) :
    (m.mode = .initial →
      m.elapse ms = { m with initialMs := if m.held = none then min (m.initialMs + ms) 20 else m.initialMs }) ∧
    (m.mode ≠ .initial →
      m.elapse ms = { m with settle := if m.ignInput = m.ignition then m.settle else min (m.settle + ms) 100 }) := by
  refine ⟨fun initial => (if_pos initial).trans ?_, fun awake => if_neg awake⟩
  cases m.held <;> rfl

/-- What the time base does, unit by unit. -/
theorem elapse_timePassed (us : Nat) (s : State) : timePassed us s (s.elapse us) := by
  rintro ms rfl
  obtain ⟨counts, settles⟩ := mode_elapse_cases s.mode ((s.prescale + us) / 1000)
  refine ⟨rfl, rfl, rfl, fun held => if_pos held, fun free => if_neg free, chime_elapse_passed _ _,
    fun initial => ⟨if_pos initial, if_pos initial, counts initial⟩, fun awake => ⟨settles awake, ?_, fun k => ?_, ?_⟩⟩
  · refine (if_neg awake).trans ?_
    rw [flashPhaseElapse, Nat.mul_comm]
  · have panel : (s.elapse us).panel = s.panel.elapse ((s.prescale + us) / 1000) := if_neg awake
    rw [panel, panel_elapse_debouncer]
    exact debouncer_elapse_passed _ _
  · have panel : (s.elapse us).panel = s.panel.elapse ((s.prescale + us) / 1000) := if_neg awake
    rw [panel]
    rfl

/-- On an empty queue a step lets the idle time pass. -/
theorem step_of_idle {s : State} (h : s.pending = []) : step s = .next (s.elapse idleTime) := by
  unfold step
  rw [h]

/-- Settles O8, unit by unit of what the time base moves. -/
theorem stepRunsFrontCommand : Obligations.StepRunsFrontCommand :=
  ⟨fun _ _ _ => rfl, fun s idle => ⟨_, step_of_idle idle, elapse_timePassed 1000 s⟩, elapse_timePassed⟩

end Sys2Proof.Machine
end

section
/-! SUPPORT and the settling of O46 and O23. An accepted edge is timed and counted (R53, R57 to R59), and RESET TRIP
(R70). -/

namespace Sys2Proof.Machine

/-! ## Distance units (R58, R62) -/

/-- An ordinary commit that is requested of a store that is not FAILED leaves it busy (R61). -/
theorem requestCommit_busy {t : Store} (h : t.failed = false) (odometer : Nat) :
    (t.requestCommit odometer).busy = true := by
  unfold Store.requestCommit
  rw [if_neg (by simp [h])]
  split
  · unfold Store.beginCommit
    split <;> rfl
  · exact Bool.or_true _

/-- Added units change at most the operation's own count (R69). -/
theorem countUnits_eq (t : Store) (n : Nat) : t.countUnits n = { t with op := (t.countUnits n).op } := by
  unfold Store.countUnits
  split <;> rfl

theorem countUnits_of_idle {t : Store} (h : t.op = none) (n : Nat) : t.countUnits n = t := by
  unfold Store.countUnits
  rw [h]

/-- An addition of units that reaches the commit base plus 100 leaves the store busy, if it can commit at all (R62). -/
theorem addUnits_busy {s : State} {n : Nat} (grows : s.speed.odometer < min (s.speed.odometer + n) max32)
    (far : s.store.base + 100 ≤ min (s.speed.odometer + n) max32) (sound : s.store.failed = false) :
    (s.addUnits n).store.busy = true := by
  have count := countUnits_eq s.store n
  have base : (s.store.countUnits n).base = s.store.base := by rw [count]
  have store : (s.addUnits n).store = (s.store.countUnits n).requestCommit (s.speed.addUnits n).odometer :=
    if_pos ⟨grows, base.symm ▸ far⟩
  rw [store]
  exact requestCommit_busy (by rw [count]; exact sound) _

/-- An addition of units that stays below it leaves an idle store alone. -/
theorem addUnits_store_of_near {s : State} {n : Nat} (idle : s.store.op = none)
    (near : min (s.speed.odometer + n) max32 < s.store.base + 100) : (s.addUnits n).store = s.store := by
  have count := countUnits_of_idle idle n
  have store : (s.addUnits n).store = s.store.countUnits n :=
    if_neg fun reached => absurd (count ▸ reached.2 : s.store.base + 100 ≤ min (s.speed.odometer + n) max32) (by omega)
  rw [store, count]

/-! ## The edge -/

theorem exec_speedEdge (us : Nat) (s : State) : exec (.speedEdge us) s = .next (s.elapse us).speedEdge := rfl

theorem elapse_initial_iff (us : Nat) (s : State) : (s.elapse us).mode.mode = .initial ↔ s.mode.mode = .initial := by
  have mode : (s.elapse us).mode.mode = s.mode.mode := by
    show (s.mode.elapse _).mode = _
    unfold ModeControl.elapse
    split <;> rfl
  rw [mode]

/-- An edge is too soon less than 50 microseconds after the last accepted one (R53). -/
theorem tooSoon_iff (v : Speed) : v.tooSoon = true ↔ ∃ last, v.lastStamp = some last ∧ (v.timer - last).toNat < 50 := by
  unfold Speed.tooSoon
  cases v.lastStamp <;> simp

theorem speedEdge_ignored {s : State} (h : s.mode.mode = .initial ∨ s.speed.tooSoon = true) : s.speedEdge = s :=
  if_pos h

theorem speedEdge_accepted {s : State} (awake : s.mode.mode ≠ .initial) (h : s.speed.tooSoon = false) :
    s.speedEdge = (s.withSpeed s.speed.capture).countPulse :=
  if_neg (by simp [awake, h])

/-- An accepted edge takes the stamp and starts the timing of the next period (R53). -/
theorem capture_eq (v : Speed) : v.capture =
    { v with
      lastStamp := some v.timer, standstill := false, periods := v.capture.periods
      periodSum := v.capture.periodSum } := by
  unfold Speed.capture
  split
  · rfl
  · split
    · rfl
    · rename_i moves
      rw [Bool.not_eq_true] at moves
      rw [← moves]

/-- After a reset or a standstill no period ends. -/
theorem capture_afresh {v : Speed} (h : v.lastStamp = none ∨ v.standstill = true) :
    v.capture.periods = v.periods ∧ v.capture.periodSum = v.periodSum := by
  unfold Speed.capture
  split
  · exact ⟨rfl, rfl⟩
  · rename_i last known
    rw [if_pos (h.resolve_left (by simp [known]))]
    exact ⟨rfl, rfl⟩

theorem capture_period {v : Speed} {last : BitVec 32} (known : v.lastStamp = some last) (moves : v.standstill = false) :
    v.capture.periods = v.periods + 1 ∧ v.capture.periodSum = v.periodSum + (v.timer - last).toNat := by
  unfold Speed.capture
  rw [known]
  dsimp only
  rw [moves]
  exact ⟨rfl, rfl⟩

/-! ## The count -/

theorem countPulse_of_unset {s : State} (h : s.speed.k = none) :
    s.countPulse = s.withSpeed { s.speed with pulses := min (s.speed.pulses + 1) max32 } := by
  unfold State.countPulse
  rw [h]

theorem countPulse_below {s : State} {k : Nat} (h : s.speed.k = some k) (below : s.speed.acc + 100 < k) :
    s.countPulse = s.withSpeed { s.speed with acc := s.speed.acc + 100 } := by
  unfold State.countPulse
  rw [h]
  exact if_pos below

theorem countPulse_unit {s : State} {k : Nat} (h : s.speed.k = some k) (reached : k ≤ s.speed.acc + 100) :
    s.countPulse = (s.withSpeed { s.speed with acc := s.speed.acc + 100 - k }).addUnits 1 := by
  unfold State.countPulse
  rw [h]
  exact if_neg (Nat.not_lt.2 reached)

/-- The count leaves every unit but the speed unit and the store, and of the speed unit what is timed. -/
theorem countPulse_frame (s : State) :
    s.countPulse = (s.withSpeed s.countPulse.speed).withStore s.countPulse.store ∧
      s.countPulse.speed = { s.speed with
        acc := s.countPulse.speed.acc, odometer := s.countPulse.speed.odometer, tripA := s.countPulse.speed.tripA
        tripB := s.countPulse.speed.tripB, pulses := s.countPulse.speed.pulses } := by
  cases hk : s.speed.k with
  | none =>
    rw [countPulse_of_unset hk]
    exact ⟨rfl, rfl⟩
  | some k =>
    by_cases below : s.speed.acc + 100 < k
    · rw [countPulse_below hk below]
      exact ⟨rfl, rfl⟩
    · rw [countPulse_unit hk (Nat.not_lt.1 below)]
      exact ⟨rfl, rfl⟩

/-- An accepted edge that reaches K adds one unit, and commits when 100 have come since the commit base (R57, R58,
R62). -/
theorem countPulse_addsUnit {s t : State} {k : Nat} (hk : s.speed.k = some k) (reached : k ≤ s.speed.acc + 100)
    (ht : t = s.countPulse) :
    t.speed.pulses = s.speed.pulses ∧ t.speed.acc = s.speed.acc + 100 - k ∧
      t.speed.odometer = min (s.speed.odometer + 1) max32 ∧ t.speed.tripA = (s.speed.tripA + 1) % 10000000 ∧
      t.speed.tripB = (s.speed.tripB + 1) % 10000000 ∧
      (s.speed.odometer < max32 → s.store.base + 100 ≤ s.speed.odometer + 1 → s.store.failed = false →
        t.store.busy = true) ∧
      (s.store.op = none → s.speed.odometer + 1 < s.store.base + 100 → t.store = s.store) := by
  rw [ht, countPulse_unit hk reached]
  refine ⟨rfl, rfl, rfl, rfl, rfl, fun room far sound => ?_, fun idle near => ?_⟩
  · exact addUnits_busy (s := s.withSpeed { s.speed with acc := s.speed.acc + 100 - k })
      (show s.speed.odometer < min (s.speed.odometer + 1) max32 by omega)
      (show s.store.base + 100 ≤ min (s.speed.odometer + 1) max32 by omega) sound
  · exact addUnits_store_of_near (s := s.withSpeed { s.speed with acc := s.speed.acc + 100 - k }) idle
      (show min (s.speed.odometer + 1) max32 < s.store.base + 100 by omega)

/-- Settles O46: an accepted edge is captured, then counted. -/
theorem speedEdgeIsTimedAndCounted : Obligations.SpeedEdgeIsTimedAndCounted := by
  rintro us s u rfl
  refine ⟨rfl, fun ignored => ?_, fun awake late => ?_⟩
  · rw [exec_speedEdge, speedEdge_ignored (ignored.imp (elapse_initial_iff us s).2 (tooSoon_iff _).2)]
  have inTime : (s.elapse us).speed.tooSoon = false := by
    rw [Bool.eq_false_iff, ne_eq, tooSoon_iff]
    rintro ⟨last, known, soon⟩
    exact absurd (late last known) (Nat.not_le.2 soon)
  rw [exec_speedEdge, speedEdge_accepted (mt (elapse_initial_iff us s).1 awake) inTime]
  generalize hc : (s.elapse us).withSpeed (s.elapse us).speed.capture = c
  have speed : c.speed = (s.elapse us).speed.capture := hc ▸ rfl
  have store : c.store = s.store := hc ▸ rfl
  have capture := capture_eq (s.elapse us).speed
  rw [← speed] at capture
  obtain ⟨frame, timed⟩ := countPulse_frame c
  have frame : c.countPulse = ((s.elapse us).withSpeed c.countPulse.speed).withStore c.countPulse.store := by
    refine frame.trans ?_
    rw [← hc]
    rfl
  refine ⟨_, rfl, frame, ?_⟩
  obtain ⟨k, acc, odometer, tripA, tripB, pulses⟩ : c.speed.k = s.speed.k ∧ c.speed.acc = s.speed.acc ∧
      c.speed.odometer = s.speed.odometer ∧ c.speed.tripA = s.speed.tripA ∧ c.speed.tripB = s.speed.tripB ∧
      c.speed.pulses = s.speed.pulses := by
    rw [capture]
    exact ⟨rfl, rfl, rfl, rfl, rfl, rfl⟩
  refine ⟨by rw [timed, capture], by rw [timed, capture], by rw [timed, capture]; rfl, by rw [timed, capture]; rfl,
    by rw [timed, capture]; rfl, fun afresh => ?_, fun last known moves => ?_, fun unset => ?_, fun k' hk => ?_⟩
  · rw [timed, speed]
    exact capture_afresh (v := (s.elapse us).speed) afresh
  · rw [timed, speed]
    exact capture_period (v := (s.elapse us).speed) known moves
  · rw [countPulse_of_unset (k.trans unset), ← store, ← acc, ← odometer, ← pulses]
    exact ⟨rfl, rfl, rfl, rfl⟩
  · by_cases below : s.speed.acc + 100 < k'
    · rw [countPulse_below (k.trans hk) (acc.symm ▸ below), ← store, ← acc, ← odometer, ← tripA, ← tripB, ← pulses]
      exact ⟨rfl, fun _ => ⟨rfl, rfl, rfl, rfl, rfl⟩, fun reached => absurd below (by omega)⟩
    · have unit := countPulse_addsUnit (k.trans hk) (acc.symm ▸ Nat.not_lt.1 below) rfl
      rw [store, acc, odometer, tripA, tripB, pulses] at unit
      exact ⟨unit.1, fun other => absurd other below, fun _ => unit.2⟩

/-! ## RESET TRIP (R70) -/

theorem resetTrip_ends {s m : State} {n : Strip} {r : Result} {w : Word} (h : due s n .resetTrip)
    (body : resetTripBody s (s.orderArgs n .resetTrip) = (m, .ended r 0)) (engine : m.engine = s.engine)
    (xm : m.xm = s.xm) (word : resultWord r 0 = w) : endsOrder .resetTrip s m n .resetTrip w :=
  endsOrder_of_body h rfl body engine (fun _ _ => readXm_congr xm _) (xm ▸ h.2) word

theorem resetTripBody_trip {s : State} {n : Strip} {t : Trip} (h : Trip.ofCode (s.argNum n 0) = some t) :
    resetTripBody s (s.orderArgs n .resetTrip) = done (s.withSpeed (s.speed.resetTrip t)) := by
  unfold resetTripBody
  rw [arg_orderArgs s n .resetTrip 0 (by decide), h]

theorem resetTripBody_other {s : State} {n : Strip} (h : 1 < s.argNum n 0) :
    resetTripBody s (s.orderArgs n .resetTrip) = refuse s .badArgument := by
  obtain ⟨k, beyond⟩ := Nat.exists_eq_add_of_le' (show 2 ≤ s.argNum n 0 from h)
  unfold resetTripBody
  rw [arg_orderArgs s n .resetTrip 0 (by decide), beyond]
  rfl

/-- Settles O23: the order's body by its argument, and the count of an accepted edge from O46. -/
theorem resetTripClearsTheChosenTrip : Obligations.ResetTripClearsTheChosenTrip := by
  refine ⟨fun s n h => ⟨fun other => ?_, fun a => ?_, fun b => ?_⟩, fun us k s awake hk reached inTime => ?_⟩
  · exact resetTrip_ends h (resetTripBody_other other) rfl rfl rfl
  · exact resetTrip_ends h (resetTripBody_trip (by rw [a]; rfl)) rfl rfl rfl
  · exact resetTrip_ends h (resetTripBody_trip (by rw [b]; rfl)) rfl rfl rfl
  · obtain ⟨_, ignored, accepted⟩ := speedEdgeIsTimedAndCounted us s _ rfl
    have late : ∀ last, s.speed.lastStamp = some last → 50 ≤ ((s.elapse us).speed.timer - last).toNat := by
      intro last known
      refine Nat.not_lt.1 fun soon => ?_
      exact absurd (inTime.symm.trans ((tooSoon_iff (s.elapse us).speed).2 ⟨last, known, soon⟩)) (by decide)
    obtain ⟨t, runs, _, _, _, _, _, _, _, _, _, counted⟩ := accepted awake late
    obtain ⟨_, _, adds⟩ := counted k hk
    obtain ⟨_, _, tripA, tripB, _⟩ := adds reached
    exact ⟨t, runs, fun zero => by rw [tripA, zero], fun zero => by rw [tripB, zero]⟩

end Sys2Proof.Machine
end

section
/-! SUPPORT. The odometer store: what each of its operations starts, case by case (R61 to R63, R66). -/

namespace Sys2Proof.Machine

/-! ## Starts -/

/-- A commit at the first place of a sector begins with the erase (R63). -/
theorem beginCommit_erase {t : Store} (h : t.nextPlace % 32 = 0) (fixed : Option Nat) (units odometer : Nat) :
    t.beginCommit fixed units odometer = { t with op := some (.commit true fixed 0 units) } :=
  if_pos h

/-- Elsewhere it begins with the write, which takes the commit base along (R62). -/
theorem beginCommit_write {t : Store} (h : t.nextPlace % 32 ≠ 0) (fixed : Option Nat) (units odometer : Nat) :
    t.beginCommit fixed units odometer =
      { t with op := some (.commit false fixed (fixed.getD odometer) units), base := fixed.getD odometer } :=
  if_neg h

/-- A commit that begins changes the operation and the commit base. -/
theorem beginCommit_eq (t : Store) (fixed : Option Nat) (units odometer : Nat) :
    t.beginCommit fixed units odometer =
      { t with op := (t.beginCommit fixed units odometer).op, base := (t.beginCommit fixed units odometer).base } := by
  unfold Store.beginCommit
  split <;> rfl

/-- Both cases, as the statements have them. -/
theorem beginCommit_cases (t : Store) (fixed : Option Nat) (units odometer : Nat) :
    if t.nextPlace % 32 = 0 then
      (t.beginCommit fixed units odometer).op = some (.commit true fixed 0 units) ∧
        (t.beginCommit fixed units odometer).base = t.base
    else
      (t.beginCommit fixed units odometer).op = some (.commit false fixed (fixed.getD odometer) units) ∧
        (t.beginCommit fixed units odometer).base = fixed.getD odometer := by
  split
  · rename_i first
    rw [beginCommit_erase first]
    exact ⟨rfl, rfl⟩
  · rename_i inside
    rw [beginCommit_write inside]
    exact ⟨rfl, rfl⟩

theorem beginCommit_isSome (t : Store) (fixed : Option Nat) (units odometer : Nat) :
    (t.beginCommit fixed units odometer).op.isSome = true := by
  unfold Store.beginCommit
  split <;> rfl

/-- A store with an operation in flight is busy (R61). -/
theorem busy_of_op {t : Store} (h : t.op.isSome = true) : t.busy = true := by
  unfold Store.busy
  rw [h]
  rfl

theorem request_idle {t : Store} (h : t.op = none) (r : StoreRequest) : t.request r = t.startRequest r :=
  if_pos (by rw [h]; rfl)

theorem request_busy {t : Store} (h : t.op ≠ none) (r : StoreRequest) : t.request r = { t with waiting := some r } :=
  if_neg (by simp [h])

/-! ## What follows the end of an operation (R61) -/

theorem goOn_idle {t : Store} (waiting : t.waiting = none) (pending : t.pending = false) (odometer : Nat) :
    t.goOn odometer = { t with op := none } := by
  unfold Store.goOn
  rw [waiting, pending]
  simp

theorem goOn_pending {t : Store} (waiting : t.waiting = none) (pending : t.pending = true) (odometer : Nat) :
    t.goOn odometer = { t with op := none, pending := false }.beginCommit none 0 odometer := by
  unfold Store.goOn
  rw [waiting, pending]
  simp

theorem goOn_waiting {t : Store} {r : StoreRequest} (waiting : t.waiting = some r) (odometer : Nat) :
    t.goOn odometer = { t with op := none, waiting := none }.startRequest r := by
  unfold Store.goOn
  rw [waiting]

/-- Without a waiting request no calibration write starts, and none waits then. -/
theorem goOn_sector0 {t : Store} (waiting : t.waiting = none) (odometer : Nat) :
    (t.goOn odometer).sector0 = t.sector0 := by
  cases pending : t.pending with
  | false => rw [goOn_idle waiting pending]
  | true => rw [goOn_pending waiting pending, beginCommit_eq]

theorem goOn_alone {t : Store} (waiting : t.waiting = none) (odometer : Nat) : (t.goOn odometer).waiting = none := by
  cases pending : t.pending with
  | false => rw [goOn_idle waiting pending]; exact waiting
  | true => rw [goOn_pending waiting pending, beginCommit_eq]; exact waiting

/-- The record places, the next place and sequence, the failure count and the FAILED flag stay. -/
structure SameRing (t u : Store) : Prop where
  places : u.places = t.places
  nextPlace : u.nextPlace = t.nextPlace
  nextSeq : u.nextSeq = t.nextSeq
  failures : u.failures = t.failures

theorem SameRing.trans {t u v : Store} (h : SameRing t u) (k : SameRing u v) : SameRing t v :=
  ⟨k.places.trans h.places, k.nextPlace.trans h.nextPlace, k.nextSeq.trans h.nextSeq, k.failures.trans h.failures⟩

theorem sameRing_beginCommit (t : Store) (fixed : Option Nat) (units odometer : Nat) :
    SameRing t (t.beginCommit fixed units odometer) := by
  rw [beginCommit_eq]
  exact ⟨rfl, rfl, rfl, rfl⟩

theorem sameRing_startRequest (t : Store) (r : StoreRequest) : SameRing t (t.startRequest r) := by
  cases r with
  | calibration purpose record => exact ⟨rfl, rfl, rfl, rfl⟩
  | commit v => exact sameRing_beginCommit t _ _ _

theorem sameRing_goOn (t : Store) (odometer : Nat) : SameRing t (t.goOn odometer) := by
  cases waiting : t.waiting with
  | some r =>
    rw [goOn_waiting waiting]
    have freed : SameRing t { t with op := none, waiting := none } := ⟨rfl, rfl, rfl, rfl⟩
    exact freed.trans (sameRing_startRequest _ r)
  | none =>
    cases pending : t.pending with
    | false =>
      rw [goOn_idle waiting pending]
      exact ⟨rfl, rfl, rfl, rfl⟩
    | true =>
      rw [goOn_pending waiting pending]
      have freed : SameRing t { t with op := none, pending := false } := ⟨rfl, rfl, rfl, rfl⟩
      exact freed.trans (sameRing_beginCommit _ _ _ _)

theorem goOn_failed (t : Store) (odometer : Nat) : (t.goOn odometer).failed = t.failed := by
  cases waiting : t.waiting with
  | some r =>
    rw [goOn_waiting waiting]
    cases r with
    | calibration _ _ => rfl
    | commit v => rw [Store.startRequest, beginCommit_eq]
  | none =>
    cases pending : t.pending with
    | false => rw [goOn_idle waiting pending]
    | true => rw [goOn_pending waiting pending, beginCommit_eq]

end Sys2Proof.Machine
end

section
/-! The settling of O34 and O35. The orders that request an operation of the store (R67 to R69), and the write that
follows an erase (R63, R66). -/

namespace Sys2Proof.Machine

/-- A calibration order is refused, or done at once, with the state as it was. -/
theorem order_ends {c : Instr} {s : State} {n : Strip} {o : Order} {r : Result} {d : Nat} {w : Word}
    {body : State → List Word → State × OrderEnd} (h : due s n o) (runs : exec c s = .next (s.runOrder o body))
    (ends : body s (s.orderArgs n o) = (s, .ended r d)) (word : resultWord r d = w) : endsOrder c s s n o w :=
  endsOrder_of_body h runs ends rfl (fun _ _ => rfl) h.2 word

/-- An order that requests an operation holds its strip, and the operation starts at once or waits (R61). -/
theorem order_holdsForStore {c : Instr} {s : State} {n : Strip} {o : Order} {r : StoreRequest}
    {body : State → List Word → State × OrderEnd} (h : due s n o) (runs : exec c s = .next (s.runOrder o body))
    (holds : body s (s.orderArgs n o) = s.holdForStore r) :
    (s.store.op = none → holdsOrder c s (s.withStore (s.store.startRequest r)) .store) ∧
      (s.store.op ≠ none → holdsOrder c s (s.withStore { s.store with waiting := some r }) .store) := by
  have request := holdsOrder_of_body h runs holds
  exact ⟨fun idle => request_idle idle r ▸ request, fun busy => request_busy busy r ▸ request⟩

theorem setKFactorBody_due (s : State) (n : Strip) : setKFactorBody s (s.orderArgs n .setKFactor) =
    if s.speed.lock then refuse s .locked
    else if s.argNum n 0 < 2000 ∨ 25000 < s.argNum n 0 then refuse s .badArgument
    else s.holdForStore (.calibration .setK ⟨s.argNum n 0, s.speed.lock, s.speed.count⟩) := by
  unfold setKFactorBody
  rw [arg_orderArgs s n .setKFactor 0 (by decide)]
  rfl

theorem lockCalibrationBody_set {s : State} {k : Nat} (h : s.speed.k = some k) (args : List Word) :
    lockCalibrationBody s args =
      if s.speed.lock then done s else s.holdForStore (.calibration .lock ⟨k, true, s.speed.count⟩) := by
  unfold lockCalibrationBody
  rw [h]

theorem lockCalibrationBody_unset {s : State} (h : s.speed.k = none) (args : List Word) :
    lockCalibrationBody s args = refuse s .badArgument := by
  unfold lockCalibrationBody
  rw [h]

theorem setOdometerBody_due (s : State) (n : Strip) : setOdometerBody s (s.orderArgs n .setOdometer) =
    if s.speed.lock then refuse s .locked
    else if s.store.failed then (s, .ended .storeFault detailRecord)
    else s.holdForStore (.commit (s.argLong n 0)) := by
  unfold setOdometerBody
  rw [arg2_orderArgs s n .setOdometer 0 (by decide)]

/-- Settles O34, order by order and check by check. -/
theorem calibrationOrdersHoldOrAreRefused : Obligations.CalibrationOrdersHoldOrAreRefused := by
  refine ⟨?setK, ?lock, ?setOdometer⟩
  case setK =>
    rintro s n r h rfl
    refine ⟨fun locked => ?_, fun free out => ?_, fun free low high => ?_⟩
    · exact order_ends h rfl (by rw [setKFactorBody_due, if_pos locked]; rfl) rfl
    · exact order_ends h rfl (by rw [setKFactorBody_due, if_neg (by simp [free]), if_pos out]; rfl) rfl
    · exact order_holdsForStore (c := .setKFactor) (body := setKFactorBody) h rfl
        (by rw [setKFactorBody_due, if_neg (by simp [free]), if_neg (by omega)])
  case lock =>
    refine fun s n h => ⟨fun unset => ?_, fun k hk => ⟨fun locked => ?_, fun free => ?_⟩⟩
    · exact order_ends h rfl (lockCalibrationBody_unset unset _) rfl
    · exact order_ends h rfl ((lockCalibrationBody_set hk _).trans (if_pos locked)) rfl
    · exact order_holdsForStore h rfl ((lockCalibrationBody_set hk _).trans (if_neg (by simp [free])))
  case setOdometer =>
    rintro s n v h rfl
    refine ⟨fun locked => ?_, fun free failed => ?_, fun free sound => ?_⟩
    · exact order_ends h rfl (by rw [setOdometerBody_due, if_pos locked]; rfl) rfl
    · exact order_ends h rfl (by rw [setOdometerBody_due, if_neg (by simp [free]), if_pos failed]) rfl
    · obtain ⟨starts, waits⟩ := order_holdsForStore (c := .setOdometer) (body := setOdometerBody) h rfl
        (by rw [setOdometerBody_due, if_neg (by simp [free]), if_neg (by simp [sound])])
      refine ⟨fun idle first => ?_, fun idle inside => ?_, waits⟩
      · exact beginCommit_erase first (some (s.argLong n 0)) 0 _ ▸ starts idle
      · exact beginCommit_write inside (some (s.argLong n 0)) 0 _ ▸ starts idle

/-! ## The write that follows an erase -/

theorem execSectorEraseDone_commit {s : State} {fixed : Option Nat} {w units : Nat}
    (h : s.store.op = some (.commit true fixed w units)) : exec .sectorEraseDone s =
      .next (s.withStore { s.store.blankSector (sectorOf s.store.nextPlace) with
        op := some (.commit false fixed (fixed.getD s.speed.odometer) units)
        base := fixed.getD s.speed.odometer }) := by
  change execSectorEraseDone s = _
  unfold execSectorEraseDone
  rw [h]
  rfl

/-- An erase blanks places and changes nothing else of the store. -/
theorem blankSector_eq (t : Store) (first : Nat) :
    t.blankSector first = { t with places := (t.blankSector first).places } := rfl

/-- After its erase every place of a sector is blank (R60). -/
theorem blankSector_place (t : Store) (next : Nat) (p : Fin 128) :
    (t.blankSector (sectorOf next)).places[p] = if p.val / 32 = next / 32 then .blank else t.places[p] := by
  have sector : sectorOf p.val = sectorOf next ↔ p.val / 32 = next / 32 := by
    unfold sectorOf
    omega
  simp only [Store.blankSector, Fin.getElem_fin, Vector.getElem_ofFn, sector]

/-- Settles O35, by the operation in flight. -/
theorem sectorEraseDoneBeginsTheWrite : Obligations.SectorEraseDoneBeginsTheWrite := by
  refine fun s => ⟨fun fixed w units value h written => ?_, fun purpose r h => ?_, fun purpose r h => ?_⟩
  · have carries : fixed.getD s.speed.odometer = value := by
      obtain ⟨rfl, rfl⟩ | rfl := written <;> rfl
    have blanks := blankSector_place s.store s.store.nextPlace
    have runs := execSectorEraseDone_commit h
    rw [carries, blankSector_eq] at runs
    generalize (s.store.blankSector (sectorOf s.store.nextPlace)).places = places at blanks runs
    exact ⟨_, runs, rfl, blanks⟩
  · change execSectorEraseDone s = _
    unfold execSectorEraseDone
    rw [h]
  · change execSectorEraseDone s = _
    unfold execSectorEraseDone
    rw [h]

end Sys2Proof.Machine
end

section
/-! SUPPORT. The end of a commit (R63, R69), in parts: the verify gives the place its outcome, and what follows leaves
the place, the next place and sequence and the failure count alone. -/

namespace Sys2Proof.Machine

/-! ## The verify -/

/-- The state once a verify has given its place the outcome: next place and sequence have advanced, and ODOMETER LOST
has ended or ODO_STORE_FAULT is set. -/
def State.placed (s : State) (value : Nat) (ok : Bool) : State :=
  (s.withStore (s.store.verified value ok)).commitSignals ok

theorem placed_failed (s : State) (value : Nat) :
    s.placed value false = (s.withStore (s.store.verified value false)).raise .odoStoreFault := rfl

/-- ODOMETER LOST, if it was active, is cleared with its flag. -/
theorem commitSignals_true (s : State) :
    s.commitSignals true = s.withSpeed (speedVerified s.speed true) ∨
      s.commitSignals true = (s.withSpeed (speedVerified s.speed true)).clear msgOdometerLost := by
  unfold State.commitSignals speedVerified
  cases lost : s.speed.odometerLost with
  | true => exact .inr rfl
  | false =>
    refine .inl ?_
    have same : ({ s.speed with odometerLost := false } : Speed) = s.speed := by rw [← lost]
    show s = s.withSpeed { s.speed with odometerLost := false }
    rw [same, State.withSpeed_self]

/-- What the verify changes: the store's place, its counts, the flag of ODOMETER LOST, a message and causes. -/
structure Placed (s t : State) (value : Nat) (ok : Bool) : Prop where
  frame : onlyMessages ((s.withStore (s.store.verified value ok)).withSpeed (speedVerified s.speed ok)) t
  single : s.stack.single → t.stack.single
  signals : ok = false → pends t .odoStoreFault

theorem placed_spec (s : State) (value : Nat) (ok : Bool) : Placed s (s.placed value ok) value ok := by
  cases ok with
  | false =>
    refine ⟨?_, id, fun _ => pends_raise _ _⟩
    have same : speedVerified s.speed false = s.speed := by
      unfold speedVerified
      rw [Bool.not_false, Bool.and_true]
    rw [same]
    exact (onlyMessages_iff _ _).2 (by simp [placed_failed])
  | true =>
    obtain flag | message := commitSignals_true (s.withStore (s.store.verified value true))
    · rw [State.placed, flag]
      exact ⟨(onlyMessages_iff _ _).2 (by simp), id, by simp⟩
    · rw [State.placed, message]
      exact ⟨(onlyMessages_iff _ _).2 (by simp), fun h => (State.clear_spec h msgOdometerLost).1, by simp⟩

section
variable {s t : State} {value : Nat} {ok : Bool}

theorem Placed.store (h : Placed s t value ok) : t.store = s.store.verified value ok := by
  obtain ⟨_, _, _, _, _, _, _, store, _⟩ := (onlyMessages_iff _ _).1 h.frame
  exact store

theorem Placed.speed (h : Placed s t value ok) : t.speed = speedVerified s.speed ok := by
  obtain ⟨_, _, _, _, _, _, speed, _⟩ := (onlyMessages_iff _ _).1 h.frame
  exact speed

theorem Placed.mode (h : Placed s t value ok) : t.mode = s.mode := by
  obtain ⟨mode, _⟩ := (onlyMessages_iff _ _).1 h.frame
  exact mode

theorem Placed.engine (h : Placed s t value ok) : t.engine = s.engine := by
  obtain ⟨_, _, engine, _⟩ := (onlyMessages_iff _ _).1 h.frame
  exact engine

theorem Placed.xm (h : Placed s t value ok) : t.xm = s.xm := by
  obtain ⟨_, xm, _⟩ := (onlyMessages_iff _ _).1 h.frame
  exact xm

end

/-- The place written has its outcome, and every other place stays (R63). -/
theorem verified_places {t : Store} (h : t.nextPlace < 128) (value : Nat) (ok : Bool) :
    (t.verified value ok).places[t.nextPlace]? = some (if ok then .valid t.nextSeq value else .spoiled) ∧
      ∀ p, p ≠ t.nextPlace → (t.verified value ok).places[p]? = t.places[p]? := by
  unfold Store.verified
  exact ⟨by simp [h], fun p ne => by simp [ne.symm]⟩

/-! ## What the verify decides -/

/-- The last sequence number and the third failure in succession make the store FAILED (R63, log 22). -/
def storeExhausted (t : Store) (ok : Bool) : Prop := max32 = t.nextSeq ∨ ok = false ∧ 2 ≤ t.failures

theorem exec_commitVerifyDone {s : State} {fixed : Option Nat} {value units : Nat}
    (h : s.store.op = some (.commit false fixed value units)) (ok : Bool) :
    exec (.commitVerifyDone ok) s = .next (s.commitVerified fixed value units ok).judgeDormant := by
  change execCommitVerifyDone ok s = _
  unfold execCommitVerifyDone
  rw [h]

theorem commitVerified_eq (s : State) (fixed : Option Nat) (value units : Nat) (ok : Bool) :
    s.commitVerified fixed value units ok =
      if s.store.nextSeq = max32 ∨ (ok = false ∧ 3 ≤ (s.placed value ok).store.failures) then
        (s.placed value ok).failStore.endCommit fixed units ok
      else if ok then (s.placed value ok).endCommit fixed units ok
      else (s.placed value ok).withStore
        ((s.placed value ok).store.beginCommit fixed units (s.placed value ok).speed.odometer) := rfl

/-- The count that a failed verify leaves reaches three when two had failed before it. -/
theorem placed_exhausted_iff (s : State) (value : Nat) (ok : Bool) :
    (s.store.nextSeq = max32 ∨ (ok = false ∧ 3 ≤ (s.placed value ok).store.failures)) ↔ storeExhausted s.store ok := by
  rw [(placed_spec s value ok).store]
  unfold storeExhausted Store.verified
  cases ok with
  | true => simp [eq_comm]
  | false =>
    simp only [eq_comm (a := max32), true_and, Bool.false_eq_true, if_false]
    exact or_congr_right (by omega)

theorem commitVerified_exhausted {s : State} {ok : Bool} (h : storeExhausted s.store ok) (fixed : Option Nat)
    (value units : Nat) :
    s.commitVerified fixed value units ok = (s.placed value ok).failStore.endCommit fixed units ok := by
  rw [commitVerified_eq]
  exact if_pos ((placed_exhausted_iff s value ok).2 h)

theorem commitVerified_success {s : State} (h : s.store.nextSeq < max32) (fixed : Option Nat) (value units : Nat) :
    s.commitVerified fixed value units true = (s.placed value true).endCommit fixed units true := by
  rw [commitVerified_eq, if_neg]
  · rfl
  · rw [placed_exhausted_iff]
    rintro (last | ⟨failed, _⟩)
    · omega
    · exact absurd failed (by decide)

theorem commitVerified_retry {s : State} (h : s.store.nextSeq < max32) (few : s.store.failures < 2)
    (fixed : Option Nat) (value units : Nat) :
    s.commitVerified fixed value units false = (s.placed value false).withStore
      ((s.placed value false).store.beginCommit fixed units (s.placed value false).speed.odometer) := by
  rw [commitVerified_eq, if_neg]
  · rfl
  · rw [placed_exhausted_iff]
    rintro (last | ⟨_, many⟩) <;> omega

/-! ## What follows -/

/-- What follows a verify leaves alone: the ring, the flag of ODOMETER LOST, every unit but those that an end of a
commit may reach, and it withdraws no cause. -/
structure CommitTail (s t : State) : Prop where
  frame : onlyMessages (((((s.withStore t.store).withSpeed t.speed).withMode t.mode).withXm t.xm).withEngine t.engine) t
  ring : SameRing s.store t.store
  lost : t.speed.odometerLost = s.speed.odometerLost
  pends : ∀ c, pends s c → pends t c

theorem CommitTail.trans {a b c : State} (h : CommitTail a b) (k : CommitTail b c) : CommitTail a c where
  frame := by
    have first := (onlyMessages_iff _ _).1 h.frame
    have second := (onlyMessages_iff _ _).1 k.frame
    simp_all [onlyMessages_iff]
  ring := h.ring.trans k.ring
  lost := k.lost.trans h.lost
  pends x hx := k.pends x (h.pends x hx)

theorem commitTail_withStore (s : State) {t : Store} (h : SameRing s.store t) : CommitTail s (s.withStore t) :=
  ⟨rfl, h, rfl, fun _ hc => hc⟩

theorem commitTail_withSpeed (s : State) {v : Speed} (h : v.odometerLost = s.speed.odometerLost) :
    CommitTail s (s.withSpeed v) :=
  ⟨rfl, ⟨rfl, rfl, rfl, rfl⟩, h, fun _ hc => hc⟩

theorem commitTail_endOperation (s : State) : CommitTail s s.endOperation :=
  commitTail_withStore s (sameRing_goOn _ _)

theorem commitTail_post (s : State) (id : Identity) (sev : Severity) : CommitTail s (s.post id sev) :=
  ⟨(onlyMessages_iff _ _).2 (by simp), ⟨rfl, rfl, rfl, rfl⟩, rfl, fun _ hc => pends_takeStack _ _ _ hc⟩

theorem commitTail_finish (s : State) (r : Result) (d : Nat) : CommitTail s (s.finish r d) :=
  ⟨(onlyMessages_iff _ _).2 (by simp), by rw [State.finish_store]; exact ⟨rfl, rfl, rfl, rfl⟩,
    by rw [State.finish_speed], fun _ hc => pends_finish hc r d⟩

theorem commitTail_judgeDormant (s : State) : CommitTail s s.judgeDormant :=
  ⟨(onlyMessages_iff _ _).2 (by simp), by rw [State.judgeDormant_store]; exact ⟨rfl, rfl, rfl, rfl⟩,
    by rw [State.judgeDormant_speed], fun _ hc => pends_judgeDormant hc⟩

/-! ## The store becomes FAILED -/

/-- The store marked FAILED, with its message. -/
def State.markFailed (s : State) : State :=
  (s.withStore { s.store with failed := true, pending := false }).post msgStoreFault .amber

/-- A SET ODOMETER commit that waits is not made (R63). -/
theorem failStore_commit {s : State} {v : Nat} (h : s.store.waiting = some (.commit v)) :
    s.failStore =
      (s.markFailed.withStore { s.markFailed.store with waiting := none }).finish .storeFault detailRecord := by
  unfold State.failStore
  dsimp only
  rw [State.post_store, State.withStore_store, h]
  rfl

theorem failStore_plain {s : State} (h : ∀ v, s.store.waiting ≠ some (.commit v)) : s.failStore = s.markFailed := by
  unfold State.failStore
  dsimp only
  rw [State.post_store, State.withStore_store]
  split
  · rename_i v hv
    exact absurd hv (h v)
  · rfl
  · rfl

theorem commitTail_markFailed (s : State) : CommitTail s s.markFailed := by
  have marked : CommitTail s (s.withStore { s.store with failed := true, pending := false }) :=
    commitTail_withStore s ⟨rfl, rfl, rfl, rfl⟩
  exact marked.trans (commitTail_post _ _ _)

theorem commitTail_failStore (s : State) : CommitTail s s.failStore := by
  by_cases waits : ∃ v, s.store.waiting = some (.commit v)
  · obtain ⟨v, waits⟩ := waits
    rw [failStore_commit waits]
    have withdrawn : CommitTail s.markFailed (s.markFailed.withStore { s.markFailed.store with waiting := none }) :=
      commitTail_withStore _ ⟨rfl, rfl, rfl, rfl⟩
    exact ((commitTail_markFailed s).trans withdrawn).trans (commitTail_finish _ _ _)
  · rw [failStore_plain (not_exists.1 waits)]
    exact commitTail_markFailed s

theorem markFailed_keeps {s : State} (h : s.stack.single) : s.markFailed.stack.keeps msgStoreFault .amber :=
  (State.post_spec (s := s.withStore _) h msgStoreFault .amber (by decide)).2.1

/-! ## The end of SET ODOMETER's commit -/

/-- With a calibration its calibration write goes ahead (R69). -/
theorem odometerSet_calibrates {s : State} {k : Nat} (h : s.speed.k = some k) (v units : Nat) :
    s.odometerSet v units = (s.withSpeed { s.speed with odometer := min (v + units) max32 }).withStore
      (s.store.beginCalibration .setOdometer ⟨k, s.speed.lock, s.speed.nextCount⟩) := by
  unfold State.odometerSet
  rw [h]
  rfl

/-- Without one the order ends. -/
theorem odometerSet_ends {s : State} (h : s.speed.k = none) (v units : Nat) :
    s.odometerSet v units = (s.withSpeed
      { s.speed with odometer := min (v + units) max32, count := s.speed.nextCount }).endOperation.finish .done 0 := by
  unfold State.odometerSet
  rw [h]
  rfl

theorem commitTail_odometerSet (s : State) (v units : Nat) : CommitTail s (s.odometerSet v units) := by
  cases hk : s.speed.k with
  | some k =>
    rw [odometerSet_calibrates hk]
    have counted : CommitTail s (s.withSpeed { s.speed with odometer := min (v + units) max32 }) :=
      commitTail_withSpeed s rfl
    exact counted.trans (commitTail_withStore _ ⟨rfl, rfl, rfl, rfl⟩)
  | none =>
    rw [odometerSet_ends hk]
    have counted : CommitTail s
        (s.withSpeed { s.speed with odometer := min (v + units) max32, count := s.speed.nextCount }) :=
      commitTail_withSpeed s rfl
    exact (counted.trans (commitTail_endOperation _)).trans (commitTail_finish _ _ _)

theorem commitTail_endCommit (s : State) (fixed : Option Nat) (units : Nat) (ok : Bool) :
    CommitTail s (s.endCommit fixed units ok) := by
  cases fixed with
  | none => exact commitTail_endOperation s
  | some v =>
    cases ok with
    | true => exact commitTail_odometerSet s v units
    | false => exact (commitTail_endOperation s).trans (commitTail_finish _ _ _)

/-- Whatever the verify decides, what follows it leaves the place and the counts alone. -/
theorem commitTail_commitVerified (s : State) (fixed : Option Nat) (value units : Nat) (ok : Bool) :
    CommitTail (s.placed value ok) (s.commitVerified fixed value units ok) := by
  rw [commitVerified_eq]
  split
  · exact (commitTail_failStore _).trans (commitTail_endCommit _ _ _ _)
  · split
    · exact commitTail_endCommit _ _ _ _
    · exact commitTail_withStore _ (sameRing_beginCommit _ _ _ _)

/-- The end of a commit, whatever it leads to: the place, the counts, the signals and the frame (R63). -/
theorem commitVerified_places (s : State) (fixed : Option Nat) (value units : Nat) (ok : Bool) {t : State}
    (ht : t = (s.commitVerified fixed value units ok).judgeDormant) :
    onlyMessages (((((s.withStore t.store).withSpeed t.speed).withMode t.mode).withXm t.xm).withEngine t.engine) t ∧
      SameRing (s.store.verified value ok) t.store ∧ (ok = false → pends t .odoStoreFault) ∧
      (ok = true → t.speed.odometerLost = false) := by
  have placed := placed_spec s value ok
  have tail := (commitTail_commitVerified s fixed value units ok).trans (commitTail_judgeDormant _)
  rw [← ht] at tail
  refine ⟨?_, placed.store ▸ tail.ring, fun failed => tail.pends _ (placed.signals failed), fun good => ?_⟩
  · have first := (onlyMessages_iff _ _).1 placed.frame
    have second := (onlyMessages_iff _ _).1 tail.frame
    simp_all [onlyMessages_iff]
  · rw [tail.lost, placed.speed, good]
    exact Bool.and_false _

end Sys2Proof.Machine
end

section
/-! The settling of O36. COMMIT_VERIFY_DONE, outcome by outcome (R61 to R63, R69, R163). -/

namespace Sys2Proof.Machine

theorem speedVerified_true (v : Speed) : speedVerified v true = { v with odometerLost := false } := by
  unfold speedVerified
  rw [Bool.not_true, Bool.and_false]

theorem speedVerified_odometer (v : Speed) (ok : Bool) : (speedVerified v ok).odometer = v.odometer := rfl

/-! ## The next place -/

/-- A commit that begins at the place behind place `p`. -/
theorem beginCommit_starts {t : Store} {p : Nat} (h : t.nextPlace = (p + 1) % 128) (fixed : Option Nat)
    (units odometer : Nat) :
    if (p + 1) % 32 = 0 then (t.beginCommit fixed units odometer).op = some (.commit true fixed 0 units)
    else (t.beginCommit fixed units odometer).op = some (.commit false fixed (fixed.getD odometer) units) ∧
      (t.beginCommit fixed units odometer).base = fixed.getD odometer := by
  have next : t.nextPlace % 32 = (p + 1) % 32 := by omega
  have starts := beginCommit_cases t fixed units odometer
  rw [next] at starts
  split
  · rename_i first
    rw [if_pos first] at starts
    exact starts.1
  · rename_i inside
    rwa [if_neg inside] at starts

/-! ## An ordinary commit succeeds -/

theorem ordinaryCommit_succeeds {s : State} {value units : Nat} (h : s.store.op = some (.commit false none value units))
    (more : s.store.nextSeq < max32) :
    ∃ t, exec (.commitVerifyDone true) s = .next t ∧
      onlyMessages (((s.withStore t.store).withSpeed { s.speed with odometerLost := false }).withMode t.mode) t ∧
      dormantJudged s t ∧ t.engine = s.engine ∧ t.store = (s.store.verified value true).goOn s.speed.odometer := by
  have placed := placed_spec s value true
  have runs := exec_commitVerifyDone h true
  rw [commitVerified_success more] at runs
  obtain ⟨closes, dormant⟩ := closed_frame (speedVerified_true s.speed ▸ placed.frame)
  refine ⟨(s.placed value true).closed, runs, closes, dormant, (closed_engine _).trans placed.engine, ?_⟩
  rw [closed_store, placed.store, placed.speed, speedVerified_odometer]

/-- What starts then (R61). -/
theorem verified_goOn {t u : Store} {value odometer : Nat} (hu : u = (t.verified value true).goOn odometer) :
    (t.waiting = none → t.pending = false → u.op = none ∧ u.pending = false ∧ u.base = t.base) ∧
    (t.waiting = none → t.pending = true → u.pending = false ∧
      (if (t.nextPlace + 1) % 32 = 0 then u.op = some (.commit true none 0 0)
      else u.op = some (.commit false none odometer 0) ∧ u.base = odometer)) ∧
    (∀ purpose r, t.waiting = some (.calibration purpose r) → u.waiting = none ∧
      u.op = some (.calibration .erase purpose r) ∧ u.sector0 = none ∧ u.pending = t.pending) ∧
    (∀ v, t.waiting = some (.commit v) → u.waiting = none ∧ u.pending = t.pending ∧
      (if (t.nextPlace + 1) % 32 = 0 then u.op = some (.commit true (some v) 0 0)
      else u.op = some (.commit false (some v) v 0) ∧ u.base = v)) := by
  subst hu
  refine ⟨fun waiting pending => ?_, fun waiting pending => ?_, fun purpose r waiting => ?_, fun v waiting => ?_⟩
  · rw [goOn_idle (t := t.verified value true) waiting pending]
    exact ⟨rfl, pending, rfl⟩
  · rw [goOn_pending (t := t.verified value true) waiting pending]
    exact ⟨by rw [beginCommit_eq], beginCommit_starts rfl none 0 odometer⟩
  · rw [goOn_waiting (t := t.verified value true) waiting]
    exact ⟨rfl, rfl, rfl, rfl⟩
  · rw [goOn_waiting (t := t.verified value true) waiting]
    refine ⟨?_, ?_, beginCommit_starts rfl (some v) 0 v⟩
    · rw [Store.startRequest, beginCommit_eq]
    · rw [Store.startRequest, beginCommit_eq]
      rfl

/-! ## A failure below the third -/

theorem failedCommit_retries {s : State} {fixed : Option Nat} {value units : Nat}
    (h : s.store.op = some (.commit false fixed value units)) (more : s.store.nextSeq < max32)
    (few : s.store.failures < 2) :
    ∃ t, exec (.commitVerifyDone false) s = .next t ∧ t.store.failed = s.store.failed ∧
      t = (s.withStore t.store).withLink { s.link with causes := s.link.causes ||| 0x1000 } ∧
      (if (s.store.nextPlace + 1) % 32 = 0 then t.store.op = some (.commit true fixed 0 units)
      else t.store.op = some (.commit false fixed (fixed.getD s.speed.odometer) units) ∧
        t.store.base = fixed.getD s.speed.odometer) := by
  have runs := exec_commitVerifyDone h false
  rw [commitVerified_retry more few, judgeDormant_of_busy (busy_of_op (beginCommit_isSome _ _ _ _))] at runs
  refine ⟨_, runs, ?_, rfl, beginCommit_starts rfl fixed units s.speed.odometer⟩
  rw [State.withStore_store, beginCommit_eq]
  rfl

/-! ## The store becomes FAILED -/

/-- The store marked FAILED after a verify, and the rest as the verify leaves it. -/
theorem placed_markFailed (s : State) (value : Nat) (ok : Bool) :
    onlyMessages ((s.withStore { s.store.verified value ok with failed := true, pending := false }).withSpeed
      (speedVerified s.speed ok)) (s.placed value ok).markFailed ∧
    (s.stack.withinCapacity → (s.placed value ok).markFailed.stack.keeps msgStoreFault .amber) := by
  have placed := placed_spec s value ok
  have store := placed.store
  have parts := (onlyMessages_iff _ _).1 placed.frame
  refine ⟨?_, fun capacity => markFailed_keeps (placed.single (single_of_withinCapacity capacity))⟩
  unfold State.markFailed
  simp_all [onlyMessages_iff]

/-- A verify leaves the request that waits. -/
theorem placed_waiting (s : State) (value : Nat) (ok : Bool) :
    (s.placed value ok).store.waiting = s.store.waiting := by
  rw [(placed_spec s value ok).store]
  rfl

/-- The store FAILED with no request of its own goes on to a calibration write that waits, if there is one. -/
theorem failed_goOn {t : Store} (failed : t.failed = true) (pending : t.pending = false)
    (h : ∀ v, t.waiting ≠ some (.commit v)) {u : Store} {odometer : Nat} (hu : u = t.goOn odometer) :
    u.failed = true ∧ u.pending = false ∧ u.waiting = none ∧
      (t.waiting = none → u.op = none ∧ u.sector0 = t.sector0) ∧
      (∀ purpose r, t.waiting = some (.calibration purpose r) →
        u.op = some (.calibration .erase purpose r) ∧ u.sector0 = none) := by
  subst hu
  cases waiting : t.waiting with
  | none =>
    rw [goOn_idle waiting pending]
    exact ⟨failed, pending, waiting, fun _ => ⟨rfl, rfl⟩, by simp⟩
  | some request =>
    rw [goOn_waiting waiting]
    cases request with
    | commit v => exact absurd waiting (h v)
    | calibration purpose r =>
      refine ⟨failed, pending, rfl, by simp, ?_⟩
      rintro _ _ ⟨⟩
      exact ⟨rfl, rfl⟩

theorem ordinaryCommit_exhausts {s : State} {value units : Nat} {ok : Bool}
    (h : s.store.op = some (.commit false none value units)) (plain : ∀ v, s.store.waiting ≠ some (.commit v))
    (exhausted : storeExhausted s.store ok) :
    ∃ t, exec (.commitVerifyDone ok) s = .next t ∧
      onlyMessages (((s.withStore t.store).withSpeed (speedVerified s.speed ok)).withMode t.mode) t ∧
      dormantJudged s t ∧ t.store.failed = true ∧ t.store.pending = false ∧ t.store.waiting = none ∧
      (s.store.waiting = none → t.store.op = none ∧ t.store.sector0 = s.store.sector0) ∧
      (∀ purpose r, s.store.waiting = some (.calibration purpose r) →
        t.store.op = some (.calibration .erase purpose r) ∧ t.store.sector0 = none) ∧
      (s.stack.withinCapacity → t.stack.keeps msgStoreFault .amber) := by
  have waiting := placed_waiting s value ok
  obtain ⟨marked, keeps⟩ := placed_markFailed s value ok
  have runs := exec_commitVerifyDone h ok
  rw [commitVerified_exhausted exhausted, failStore_plain (waiting ▸ plain)] at runs
  generalize (s.placed value ok).markFailed = q at runs marked keeps
  obtain ⟨_, _, _, _, _, _, _, store, _⟩ := (onlyMessages_iff _ _).1 marked
  have store : q.store = { s.store.verified value ok with failed := true, pending := false } := store
  obtain ⟨closes, dormant⟩ := closed_frame marked
  have left := closed_store q
  rw [store] at left
  obtain ⟨failed, pending, cleared, idle, calibrates⟩ :=
    failed_goOn (t := { s.store.verified value ok with failed := true, pending := false }) rfl rfl plain left
  exact ⟨q.closed, runs, closes, dormant, failed, pending, cleared, idle, calibrates,
    fun capacity => closed_stack q ▸ keeps capacity⟩

/-! ## SET ODOMETER's order ends without its commit -/

/-- The state in which SET ODOMETER ends when the store becomes FAILED: nothing waits and nothing is in flight. -/
def State.refusedCommit (s : State) (value : Nat) (ok : Bool) : State :=
  ((s.placed value ok).markFailed.withStore { (s.placed value ok).markFailed.store with waiting := none }).closed

/-- An ordinary commit behind which SET ODOMETER waits, or SET ODOMETER's own, ends its order. -/
theorem commitVerified_refuses {s : State} {fixed : Option Nat} {v : Nat} {ok : Bool}
    (exhausted : storeExhausted s.store ok)
    (waits : fixed = none ∧ s.store.waiting = some (.commit v) ∨ fixed = some v ∧ s.store.waiting = none ∧ ok = false)
    (value units : Nat) :
    (s.commitVerified fixed value units ok).judgeDormant =
      (s.refusedCommit value ok).finish .storeFault detailRecord := by
  have waiting := placed_waiting s value ok
  rw [commitVerified_exhausted exhausted]
  unfold State.refusedCommit
  obtain ⟨rfl, behind⟩ | ⟨rfl, alone, rfl⟩ := waits
  · rw [failStore_commit (waiting.trans behind), ← besideExchange_closed.finish]
    rfl
  · have cleared : (s.placed value false).markFailed.store.waiting = none := waiting.trans alone
    have same : (s.placed value false).markFailed.withStore
        { (s.placed value false).markFailed.store with waiting := none } = (s.placed value false).markFailed := by
      rw [← cleared]
      rfl
    rw [failStore_plain (by simp [waiting, alone]), same, ← finish_closed]
    rfl

theorem setOdometer_refused {s : State} {fixed : Option Nat} {value units v : Nat} {ok : Bool} {n : Strip}
    (h : s.store.op = some (.commit false fixed value units)) (order : awaits s n .store .setOdometer)
    (exhausted : storeExhausted s.store ok)
    (waits : fixed = none ∧ s.store.waiting = some (.commit v) ∨ fixed = some v ∧ s.store.waiting = none ∧ ok = false) :
    ∃ m, endsOrder (.commitVerifyDone ok) s m n .setOdometer 0x0F02 ∧
      onlyMessages (((s.withSpeed (speedVerified s.speed ok)).withStore m.store).withMode m.mode) m ∧
      dormantJudged s m ∧ m.store.failed = true ∧ m.store.op = none ∧ m.store.waiting = none ∧
      m.store.pending = false ∧ m.store.sector0 = s.store.sector0 ∧ (ok = false → pends m .odoStoreFault) ∧
      (s.stack.withinCapacity → m.stack.keeps msgStoreFault .amber) := by
  have runs := exec_commitVerifyDone h ok
  rw [commitVerified_refuses exhausted waits] at runs
  obtain ⟨marked, keeps⟩ := placed_markFailed s value ok
  have signals := fun failed => (commitTail_markFailed (s.placed value ok)).pends _
    ((placed_spec s value ok).signals failed)
  unfold State.refusedCommit at runs
  generalize (s.placed value ok).markFailed = q at runs marked keeps signals
  obtain ⟨_, xm, engine, _, _, _, _, store, _⟩ := (onlyMessages_iff _ _).1 marked
  have store : q.store = { s.store.verified value ok with failed := true, pending := false } := store
  obtain ⟨closes, dormant⟩ := closed_frame (withStore_frame marked { q.store with waiting := none })
  have left : (q.withStore { q.store with waiting := none }).closed.store =
      { s.store.verified value ok with failed := true, pending := false, waiting := none, op := none } := by
    rw [closed_store, State.withStore_store, store]
    exact goOn_idle rfl rfl _
  refine ⟨(q.withStore { q.store with waiting := none }).closed, ?_, closes, dormant, by rw [left], by rw [left],
    by rw [left], by rw [left], by rw [left]; rfl, fun failed => pends_closed (signals failed), fun capacity => ?_⟩
  · exact awaits_ends order runs ((closed_engine _).trans engine) ((closed_xm _).trans xm) rfl
  · rw [closed_stack]
    exact keeps capacity

/-! ## SET ODOMETER's commit succeeds -/

/-- What stands before SET ODOMETER's second half: the verify's outcome, and the store FAILED behind the last sequence
number (log 22). -/
structure OdometerWritten (s q : State) : Prop where
  frame : onlyMessages ((s.withStore q.store).withSpeed { s.speed with odometerLost := false }) q
  failed : q.store.failed = true ↔ s.store.failed = true ∨ max32 = s.store.nextSeq
  waiting : q.store.waiting = s.store.waiting
  sector0 : q.store.sector0 = s.store.sector0
  pending : s.store.pending = false ∨ max32 = s.store.nextSeq → q.store.pending = false
  keeps : max32 = s.store.nextSeq → s.stack.withinCapacity → q.stack.keeps msgStoreFault .amber

theorem commitVerified_odometerSet {s : State}
    (h : s.store.nextSeq < max32 ∨ max32 = s.store.nextSeq ∧ s.store.waiting = none) (v value units : Nat) :
    ∃ q, s.commitVerified (some v) value units true = q.odometerSet v units ∧ OdometerWritten s q := by
  obtain more | ⟨last, alone⟩ := h
  · have placed := placed_spec s value true
    have store := placed.store
    have ne : max32 ≠ s.store.nextSeq := by omega
    refine ⟨_, commitVerified_success more _ _ _, ?_, ?_, ?_, ?_, ?_, fun last => absurd last ne⟩
    · rw [store]
      exact speedVerified_true s.speed ▸ placed.frame
    · rw [store]
      exact ⟨.inl, fun failed => failed.resolve_right ne⟩
    · rw [store]; rfl
    · rw [store]; rfl
    · rw [store]
      exact fun idle => idle.resolve_right ne
  · have waiting := placed_waiting s value true
    obtain ⟨marked, keeps⟩ := placed_markFailed s value true
    have runs := commitVerified_exhausted (.inl last : storeExhausted s.store true) (some v) value units
    rw [failStore_plain (by simp [waiting, alone])] at runs
    generalize (s.placed value true).markFailed = q at runs marked keeps
    rw [speedVerified_true] at marked
    obtain ⟨_, _, _, _, _, _, _, store, _⟩ := (onlyMessages_iff _ _).1 marked
    have store : q.store = { s.store.verified value true with failed := true, pending := false } := store
    refine ⟨q, runs, ?_, ?_, ?_, ?_, ?_, fun _ => keeps⟩
    · rw [store]
      exact marked
    · rw [store]
      exact ⟨fun _ => .inr last, fun _ => rfl⟩
    · rw [store]; rfl
    · rw [store]; rfl
    · rw [store]
      exact fun _ => rfl

/-- With a calibration the order goes on to its calibration write. -/
theorem setOdometer_calibrates {s : State} {v value units k : Nat}
    (h : s.store.op = some (.commit false (some v) value units))
    (last : s.store.nextSeq < max32 ∨ max32 = s.store.nextSeq ∧ s.store.waiting = none) (hk : s.speed.k = some k) :
    ∃ t, exec (.commitVerifyDone true) s = .next t ∧
      onlyMessages ((s.withStore t.store).withSpeed
        { s.speed with odometer := min (v + units) max32, odometerLost := false }) t ∧
      (t.store.failed = true ↔ s.store.failed = true ∨ max32 = s.store.nextSeq) ∧
      (max32 = s.store.nextSeq → s.stack.withinCapacity → t.stack.keeps msgStoreFault .amber) ∧
      t.store.waiting = s.store.waiting ∧ t.store.sector0 = none ∧
      t.store.op = some (.calibration .erase .setOdometer ⟨k, s.speed.lock, min (s.speed.count + 1) 65535⟩) := by
  have runs := exec_commitVerifyDone h true
  obtain ⟨q, writes, written⟩ := commitVerified_odometerSet last v value units
  obtain ⟨mode, xm, engine, tables, intake, gauges, speed, _, others⟩ := (onlyMessages_iff _ _).1 written.frame
  have speed : q.speed = { s.speed with odometerLost := false } := speed
  have set := odometerSet_calibrates (s := q) (by rw [speed]; exact hk) v units
  rw [writes, set, judgeDormant_of_busy (busy_of_op rfl)] at runs
  refine ⟨_, runs, ?_, written.failed, written.keeps, written.waiting, rfl, ?_⟩
  · refine (onlyMessages_iff _ _).2 ⟨mode, xm, engine, tables, intake, gauges, ?_, rfl, others⟩
    rw [State.withStore_speed, State.withSpeed_speed, speed]
    rfl
  · rw [State.withStore_store, Store.beginCalibration, speed]
    rfl

/-- Without one the order ends. -/
theorem setOdometer_ends {s : State} {v value units : Nat} {n : Strip}
    (h : s.store.op = some (.commit false (some v) value units))
    (last : s.store.nextSeq < max32 ∨ max32 = s.store.nextSeq ∧ s.store.waiting = none) (unset : s.speed.k = none)
    (order : awaits s n .store .setOdometer) :
    ∃ m, endsOrder (.commitVerifyDone true) s m n .setOdometer 0x0000 ∧
      onlyMessages (((s.withSpeed m.speed).withStore m.store).withMode m.mode) m ∧ dormantJudged s m ∧
      m.speed = { s.speed with
        odometer := min (v + units) max32, count := min (s.speed.count + 1) 65535, odometerLost := false } ∧
      (m.store.failed = true ↔ s.store.failed = true ∨ max32 = s.store.nextSeq) ∧
      (max32 = s.store.nextSeq → s.stack.withinCapacity → m.stack.keeps msgStoreFault .amber) ∧
      (s.store.waiting = none → m.store.sector0 = s.store.sector0 ∧ m.store.waiting = none ∧
        (s.store.pending = false ∨ max32 = s.store.nextSeq → m.store.op = none ∧ m.store.pending = false)) := by
  have runs := exec_commitVerifyDone h true
  obtain ⟨q, writes, written⟩ := commitVerified_odometerSet last v value units
  obtain ⟨mode, xm, engine, tables, intake, gauges, speed, _, others⟩ := (onlyMessages_iff _ _).1 written.frame
  have speed : q.speed = { s.speed with odometerLost := false } := speed
  rw [writes, odometerSet_ends (by rw [speed]; exact unset), finish_closed] at runs
  generalize hu : q.withSpeed { q.speed with odometer := min (v + units) max32, count := q.speed.nextCount } = u at runs
  have count : u.speed = { s.speed with
      odometer := min (v + units) max32, count := min (s.speed.count + 1) 65535, odometerLost := false } := by
    rw [← hu, speed]
    rfl
  have frame : onlyMessages ((s.withStore q.store).withSpeed u.speed) u := by
    subst hu
    exact (onlyMessages_iff _ _).2 ⟨mode, xm, engine, tables, intake, gauges, rfl, rfl, others⟩
  obtain ⟨closes, dormant⟩ := closed_frame frame
  have store : u.closed.store = q.store.goOn u.speed.odometer := by
    rw [closed_store, ← hu]
    rfl
  refine ⟨u.closed, ?_, closed_speed u ▸ closes, dormant, (closed_speed u).trans count, ?_, fun last capacity => ?_,
    fun alone => ?_⟩
  · exact awaits_ends order runs ((closed_engine u).trans (hu ▸ engine)) ((closed_xm u).trans (hu ▸ xm)) rfl
  · rw [store, goOn_failed]
    exact written.failed
  · rw [closed_stack]
    exact hu ▸ written.keeps last capacity
  · have alone : q.store.waiting = none := written.waiting.trans alone
    rw [store]
    refine ⟨(goOn_sector0 alone _).trans written.sector0, goOn_alone alone _, fun idle => ?_⟩
    rw [goOn_idle alone (written.pending idle)]
    exact ⟨rfl, written.pending idle⟩

/-- Settles O36: what every verify leaves, then each of the outcomes it may decide. -/
theorem commitVerifyDoneEndsRetriesOrFails : Obligations.CommitVerifyDoneEndsRetriesOrFails := by
  refine fun s fixed value units h inside => ⟨fun ok => ?places, ?ordinary, failedCommit_retries h, ?exhausted,
    fun n order ok v exhausted => setOdometer_refused h order exhausted, ?setOdometer⟩
  case places =>
    obtain ⟨frame, ring, signals, found⟩ := commitVerified_places s fixed value units ok rfl
    obtain ⟨here, others⟩ := verified_places inside value ok
    refine ⟨_, exec_commitVerifyDone h ok, frame, ?_, fun p ne => ?_, ring.nextPlace, ring.nextSeq, ring.failures,
      signals, found⟩
    · rw [ring.places]; exact here
    · rw [ring.places]; exact others p ne
  case ordinary =>
    rintro rfl more
    obtain ⟨t, runs, frame, dormant, engine, store⟩ := ordinaryCommit_succeeds h more
    obtain ⟨idle, pending, calibration, commit⟩ := verified_goOn store
    refine ⟨t, runs, frame, dormant, idle, pending, calibration, fun v waiting => ?_⟩
    obtain ⟨cleared, stays, starts⟩ := commit v waiting
    exact ⟨cleared, stays, engine, starts⟩
  case exhausted =>
    rintro ok rfl plain exhausted
    exact ordinaryCommit_exhausts h plain exhausted
  case setOdometer =>
    rintro v rfl last
    exact ⟨fun k hk => setOdometer_calibrates h last hk, fun unset n order => setOdometer_ends h last unset order⟩

end Sys2Proof.Machine
end

section
/-! SUPPORT and the settling of O37 and O38. The completions of a calibration write and of its restore (R66 to R69,
R163). -/

namespace Sys2Proof.Machine

/-! ## The end of the operation -/

/-- A store with nothing waiting, whose sector 0 and pending causes may have changed, ends its operation as the
statements say. -/
theorem closed_operationEnded {s u : State} {r : Option CalRecord} {causes : Word}
    (hu : u = (s.withStore { s.store with sector0 := r }).withLink { s.link with causes := causes })
    (alone : s.store.waiting = none) :
    operationEnded s u.closed ∧ dormantJudged s u.closed ∧ u.closed.store.sector0 = r := by
  have store : u.closed.store = { s.store with sector0 := r }.goOn s.speed.odometer := by
    rw [closed_store, hu]
    rfl
  have waiting : ({ s.store with sector0 := r } : Store).waiting = none := alone
  refine ⟨⟨?_, fun idle => ?_, fun pending => ⟨?_, ?_⟩⟩, closed_dormantJudged (by rw [hu]; rfl), ?_⟩
  · refine (closed_eq u).trans ?_
    rw [hu]
    rfl
  · rw [store, goOn_idle waiting idle]
  · rw [store, goOn_pending waiting pending, beginCommit_eq]
  · rw [store, goOn_pending waiting pending]
    have starts := beginCommit_cases { s.store with sector0 := r, op := none, pending := false } none 0 s.speed.odometer
    exact starts
  · rw [store, goOn_sector0 waiting]

/-! ## RESTORE_DONE (R66) -/

theorem exec_restoreDone {s : State} {purpose : CalPurpose} {r : CalRecord}
    (h : s.store.op = some (.calibration .restoreWrite purpose r)) (ok : Bool) :
    exec (.restoreDone ok) s = .next
      (if ok then (s.withStore { s.store with sector0 := s.speed.copyRecord }).calibrationFailed
        else (s.raise .odoStoreFault).calibrationFailed).judgeDormant := by
  change execRestoreDone ok s = _
  unfold execRestoreDone
  rw [h]

theorem copyRecord_of_set {v : Speed} {k : Nat} (h : v.k = some k) : v.copyRecord = some ⟨k, v.lock, v.count⟩ := by
  unfold Speed.copyRecord
  rw [h]
  rfl

/-- A calibration that has failed ends its order with the operation (R66). -/
theorem calibrationFailed_ends {c : Instr} {s u : State} {n : Strip} {o : Order} (order : awaits s n .store o)
    (runs : exec c s = .next u.calibrationFailed.judgeDormant) (engine : u.engine = s.engine) (xm : u.xm = s.xm) :
    endsOrder c s u.closed n o 0x0F01 :=
  awaits_ends order (runs.trans (congrArg _ (finish_closed u .storeFault detailCalibration)))
    ((closed_engine u).trans engine) ((closed_xm u).trans xm) rfl

/-- The cause of a failed verify stands beside the operation's end. -/
theorem closed_faulted {s : State} (alone : s.store.waiting = none) :
    operationEnded s (s.raise .odoStoreFault).closed ∧ dormantJudged s (s.raise .odoStoreFault).closed ∧
      pends (s.raise .odoStoreFault).closed .odoStoreFault ∧
      (s.raise .odoStoreFault).closed.store.sector0 = s.store.sector0 := by
  obtain ⟨ended, dormant, sector0⟩ := closed_operationEnded (u := s.raise .odoStoreFault) rfl alone
  exact ⟨ended, dormant, pends_closed (pends_raise s _), sector0⟩

/-- Settles O38: either outcome of the restore, then the failed order's end. -/
theorem restoreDoneEndsWithStoreFault : Obligations.RestoreDoneEndsWithStoreFault := by
  refine fun s purpose r n o order h alone => ⟨fun k hk => ?_, ?_⟩
  · obtain ⟨ended, dormant, sector0⟩ :=
      closed_operationEnded (r := s.speed.copyRecord) (causes := s.link.causes) rfl alone
    exact ⟨_, calibrationFailed_ends order (exec_restoreDone h true) rfl rfl, ended, dormant,
      sector0.trans (copyRecord_of_set hk)⟩
  · exact ⟨_, calibrationFailed_ends order (exec_restoreDone h false) rfl rfl, closed_faulted alone⟩

/-! ## CALIBRATION_WRITE_DONE (R66 to R69) -/

/-- A calibration write that has been verified: sector 0 holds the record. -/
def State.recorded (s : State) (r : CalRecord) : State := s.withStore { s.store with sector0 := some r }

theorem exec_calibrationWriteDone_true {s : State} {purpose : CalPurpose} {r : CalRecord}
    (h : s.store.op = some (.calibration .write purpose r)) : exec (.calibrationWriteDone true) s =
      .next (((s.recorded r).calibrated purpose r).closed.finish .done 0) := by
  change execCalibrationWriteDone true s = _
  unfold execCalibrationWriteDone
  rw [h, ← finish_closed]
  rfl

theorem exec_calibrationWriteDone_restores {s : State} {purpose : CalPurpose} {r : CalRecord}
    (h : s.store.op = some (.calibration .write purpose r)) (set : s.speed.k ≠ none) :
    exec (.calibrationWriteDone false) s =
      .next ((s.withStore { s.store with op := some (.calibration .restoreErase purpose r), sector0 := none }).raise
        .odoStoreFault) := by
  change execCalibrationWriteDone false s = _
  unfold execCalibrationWriteDone
  rw [h]
  exact congrArg _ (if_pos (Option.isSome_iff_ne_none.2 set))

theorem exec_calibrationWriteDone_fails {s : State} {purpose : CalPurpose} {r : CalRecord}
    (h : s.store.op = some (.calibration .write purpose r)) (unset : s.speed.k = none) :
    exec (.calibrationWriteDone false) s = .next (s.raise .odoStoreFault).calibrationFailed.judgeDormant := by
  change execCalibrationWriteDone false s = _
  unfold execCalibrationWriteDone
  rw [h]
  simp [unset]

/-! ### K becomes valid -/

/-- Units added while a calibration write is in flight wait for a commit at most. -/
theorem addUnits_store_calibrating {s : State} {phase : CalPhase} {purpose : CalPurpose} {r : CalRecord}
    (h : s.store.op = some (.calibration phase purpose r)) (n : Nat) :
    (s.addUnits n).store = s.store ∨ (s.addUnits n).store = { s.store with pending := true } := by
  have count : s.store.countUnits n = s.store := by
    unfold Store.countUnits
    rw [h]
  unfold State.addUnits
  rw [count]
  dsimp only
  rw [State.withStore_store]
  split
  · unfold Store.requestCommit
    rw [h]
    cases s.store.failed with
    | true => exact .inl rfl
    | false => exact .inr rfl
  · exact .inl rfl

/-- The first K: the pulses that had been counted without one become units (R59). -/
theorem convert_speed (s : State) (k : Nat) : (s.convert k).speed = { s.speed with
    pulses := 0, acc := 100 * s.speed.pulses % k
    odometer := min (s.speed.odometer + 100 * s.speed.pulses / k) max32
    tripA := (s.speed.tripA + 100 * s.speed.pulses / k) % 10000000
    tripB := (s.speed.tripB + 100 * s.speed.pulses / k) % 10000000 } := rfl

/-- The round in which the channels of speed learn that the speed is GOOD. -/
theorem firstK_eq (s : State) (k : Nat) : s.firstK k =
    (((s.withSpeed { s.speed with k := some k }).convert k).clear msgCalibrationMissing).forChannels
      (State.sourceEvent .speed .notAvailable .good false) := rfl

/-- What the turns of other channels leave of channel `c` and of what an event of a source reads. -/
structure ApartFrom (c : Fin 8) (s t : State) : Prop where
  tables : t.tables = s.tables
  intake : t.intake = s.intake
  speed : t.speed = s.speed
  kept : ChannelKept c s t

theorem ApartFrom.refl (c : Fin 8) (s : State) : ApartFrom c s s := ⟨rfl, rfl, rfl, .refl c s⟩

theorem ApartFrom.trans {c : Fin 8} {a b d : State} (h : ApartFrom c a b) (k : ApartFrom c b d) : ApartFrom c a d :=
  ⟨k.tables.trans h.tables, k.intake.trans h.intake, k.speed.trans h.speed, h.kept.trans k.kept⟩

theorem sourceEvent_apartFrom {c d : Fin 8} (ne : d ≠ c) (src : Source) (old new : Condition) (reading : Bool)
    (s : State) : ApartFrom c s (State.sourceEvent src old new reading s d) :=
  have turn := turnOf_sourceEvent src old new reading s d
  ⟨turn.tables, turn.intake, State.sourceEvent_speed .., turn.kept ne.symm⟩

/-- A round of a source's event meets every channel once: a channel with the source has its turn, with what the round
leaves before and behind it. -/
theorem forChannels_sourceEvent_turn {s : State} {c : Fin 8} {e : GaugeEntry} (he : s.enabledEntry c = some e)
    (old new : Condition) (reading : Bool) {signed : Bool} (hs : reading = true → signed = s.sourceSigned e.source) :
    ChannelTurn c e signed old new (if reading then some (s.sourceInput e.source) else none) s
      (s.forChannels (State.sourceEvent e.source old new reading)) := by
  obtain ⟨u, before, after⟩ := foldl_reaches (f := State.sourceEvent e.source old new reading) (ApartFrom.refl c)
    ApartFrom.trans (fun a d ne => sourceEvent_apartFrom ne _ old new reading a) nodup_allChannels (mem_allChannels c) s
  have input := sourceInput_congr e.source before.intake before.speed
  have sign := sourceSigned_congr e.source before.intake
  have turn := sourceEvent_turn ((enabledEntry_congr before.tables c).trans he) old new reading (signed := signed)
    (fun on => (hs on).trans sign.symm)
  rw [input] at turn
  exact (turn.after_kept before.kept).before_kept after.kept

/-- A round of a source's event keeps identities single, and every message that is no gauge channel's. -/
theorem forChannels_sourceEvent_slotFrame (s : State) (src : Source) (old new : Condition) (reading : Bool) :
    SlotFrame s (s.forChannels (State.sourceEvent src old new reading)) :=
  foldl_relates SlotFrame.refl SlotFrame.trans allChannels (fun u c _ => sourceEvent_slotFrame _ _ _ _ u c) s

/-- What the first K leaves, unit by unit (R55, R59, R67). -/
structure FirstK (s t : State) (k : Nat) : Prop where
  frame : onlyMessages (((s.withSpeed t.speed).withStore t.store).withGauges t.gauges) t
  store : t.store = s.store ∨ t.store = { s.store with pending := true }
  speed : t.speed = { s.speed with
    k := some k, pulses := 0, acc := 100 * s.speed.pulses % k
    odometer := min (s.speed.odometer + 100 * s.speed.pulses / k) max32
    tripA := (s.speed.tripA + 100 * s.speed.pulses / k) % 10000000
    tripB := (s.speed.tripB + 100 * s.speed.pulses / k) % 10000000 }
  message : s.stack.single → t.stack.dropped msgCalibrationMissing
  follows : ∀ c e, s.enabledEntry c = some e → e.source = .speed → followed s.gauges[c] t.gauges[c] e .good

theorem firstK_spec {s : State} {phase : CalPhase} {purpose : CalPurpose} {r : CalRecord}
    (h : s.store.op = some (.calibration phase purpose r)) (k : Nat) : FirstK s (s.firstK k) k := by
  rw [firstK_eq]
  generalize hu : ((s.withSpeed { s.speed with k := some k }).convert k).clear msgCalibrationMissing = u
  have speed := convert_speed (s.withSpeed { s.speed with k := some k }) k
  refine ⟨?_, ?_, ?_, fun single => ?_, fun c e he source => ?_⟩
  · subst hu
    exact (onlyMessages_iff _ _).2 (by simp [State.convert])
  · rw [State.forChannels_sourceEvent_store, ← hu, State.clear_store, State.convert]
    exact addUnits_store_calibrating (s := (s.withSpeed { s.speed with k := some k }).withSpeed _) h _
  · rw [State.forChannels_sourceEvent_speed, ← hu, State.clear_speed, speed]
    rfl
  · have cleared := State.clear_spec (s := (s.withSpeed { s.speed with k := some k }).convert k) single
      msgCalibrationMissing
    rw [hu] at cleared
    obtain ⟨one, dropped, _⟩ := cleared
    exact ((forChannels_sourceEvent_slotFrame u _ _ _ _).spares one msgCalibrationMissing (by decide)).dropped dropped
  · have entry : u.enabledEntry c = some e := (enabledEntry_congr (by simp [← hu, State.convert]) c).trans he
    have channel : u.gauges = s.gauges := by simp [← hu, State.convert]
    have turn := forChannels_sourceEvent_turn entry .notAvailable .good false (signed := false) (by simp)
    rw [source] at turn
    exact channel ▸ turn.moved (by decide)

/-! ### The working copy -/

theorem calibrated_setK_again {s : State} {k : Nat} (h : s.speed.k = some k) (r : CalRecord) :
    s.calibrated .setK r =
      (s.withSpeed { s.speed with k := some r.k, acc := 0 }).raise .calibrationChange := by
  unfold State.calibrated
  dsimp only
  rw [if_pos (by simp [h])]

theorem calibrated_setK_first {s : State} (h : s.speed.k = none) (r : CalRecord) :
    s.calibrated .setK r = (s.firstK r.k).raise .calibrationChange := by
  unfold State.calibrated
  dsimp only
  rw [if_neg (by simp [h])]

theorem calibrated_lock (s : State) (r : CalRecord) :
    s.calibrated .lock r = (s.withSpeed { s.speed with lock := true }).raise .calibrationChange := rfl

theorem calibrated_setOdometer (s : State) (r : CalRecord) :
    s.calibrated .setOdometer r = s.withSpeed { s.speed with count := r.count } := rfl

/-- The working copy after a calibration write, by the order it completes (R67 to R69). -/
def calibratedFits (s m : State) (purpose : CalPurpose) (r : CalRecord) : Prop :=
  (purpose = .setK → pends m .calibrationChange ∧
    (∀ k, s.speed.k = some k → m.speed = { s.speed with k := some r.k, acc := 0 } ∧ m.gauges = s.gauges) ∧
    (s.speed.k = none → m.speed.k = some r.k ∧ m.speed.pulses = 0 ∧ m.speed.acc = 100 * s.speed.pulses % r.k ∧
      m.speed.odometer = min (s.speed.odometer + 100 * s.speed.pulses / r.k) max32 ∧
      m.speed.tripA = (s.speed.tripA + 100 * s.speed.pulses / r.k) % 10000000 ∧
      m.speed.tripB = (s.speed.tripB + 100 * s.speed.pulses / r.k) % 10000000 ∧
      (s.stack.withinCapacity → m.stack.holdsActive msgCalibrationMissing = false) ∧
      (∀ c e, s.enabledEntry c = some e → e.source = .speed → followed s.gauges[c] m.gauges[c] e .good))) ∧
  (purpose = .lock → m.speed = { s.speed with lock := true } ∧ pends m .calibrationChange ∧ m.gauges = s.gauges) ∧
  (purpose = .setOdometer → m.speed = { s.speed with count := r.count } ∧ m.gauges = s.gauges)

/-- What a successful calibration write leaves before its operation ends. -/
structure Calibrated (s u : State) (purpose : CalPurpose) (r : CalRecord) : Prop where
  frame : onlyMessages (((s.withSpeed u.speed).withStore u.store).withGauges u.gauges) u
  store : u.store = { s.store with sector0 := some r } ∨ u.store = { s.store with sector0 := some r, pending := true }
  plain : purpose ≠ .setK ∨ s.speed.k ≠ none → u.store = { s.store with sector0 := some r }
  fits : calibratedFits s u purpose r

theorem calibrated_spec_setK_again {s : State} {k : Nat} (h : s.speed.k = some k) (r : CalRecord) :
    Calibrated s ((s.recorded r).calibrated .setK r) .setK r := by
  rw [calibrated_setK_again (s := s.recorded r) h]
  refine ⟨(onlyMessages_iff _ _).2 (by simp [State.recorded]), .inl rfl, fun _ => rfl, ?_, by simp, by simp⟩
  exact fun _ => ⟨pends_raise _ _, fun _ _ => ⟨rfl, rfl⟩, fun unset => absurd (h.symm.trans unset) (by simp)⟩

theorem calibrated_spec_setK_first {s : State} {phase : CalPhase} {purpose : CalPurpose} {r r' : CalRecord}
    (op : s.store.op = some (.calibration phase purpose r')) (h : s.speed.k = none) :
    Calibrated s ((s.recorded r).calibrated .setK r) .setK r := by
  rw [calibrated_setK_first (s := s.recorded r) h]
  have first := firstK_spec (s := s.recorded r) op r.k
  generalize (s.recorded r).firstK r.k = u at first
  have frame := (onlyMessages_iff _ _).1 first.frame
  have speed : (u.raise .calibrationChange).speed = _ := first.speed
  refine ⟨(onlyMessages_iff _ _).2 frame, first.store, by simp [h], fun _ => ⟨pends_raise _ _, ?_, fun _ => ?_⟩,
    by simp, by simp⟩
  · exact fun k set => absurd (h.symm.trans set) (by simp)
  · rw [speed]
    refine ⟨rfl, rfl, rfl, rfl, rfl, rfl, fun capacity => ?_, first.follows⟩
    obtain ⟨inactive, _⟩ := first.message (single_of_withinCapacity capacity)
    exact inactive

theorem calibrated_spec {s : State} {purpose : CalPurpose} {r : CalRecord}
    (h : s.store.op = some (.calibration .write purpose r)) :
    Calibrated s ((s.recorded r).calibrated purpose r) purpose r := by
  cases purpose with
  | setK =>
    cases hk : s.speed.k with
    | some k => exact calibrated_spec_setK_again hk r
    | none => exact calibrated_spec_setK_first h hk
  | lock =>
    rw [calibrated_lock]
    exact ⟨(onlyMessages_iff _ _).2 (by simp [State.recorded]), .inl rfl, fun _ => rfl, by simp,
      fun _ => ⟨rfl, pends_raise _ _, rfl⟩, by simp⟩
  | setOdometer =>
    rw [calibrated_setOdometer]
    exact ⟨(onlyMessages_iff _ _).2 (by simp [State.recorded]), .inl rfl, fun _ => rfl, by simp, by simp,
      fun _ => ⟨rfl, rfl⟩⟩

/-- The end of the operation leaves the working copy, the channels and the messages. -/
theorem calibratedFits_closed {s u : State} {purpose : CalPurpose} {r : CalRecord} (h : calibratedFits s u purpose r) :
    calibratedFits s u.closed purpose r := by
  obtain ⟨setK, lock, setOdometer⟩ := h
  unfold calibratedFits
  rw [closed_speed, closed_gauges, closed_stack]
  refine ⟨fun is => ?_, fun is => ?_, setOdometer⟩
  · obtain ⟨signals, rest⟩ := setK is
    exact ⟨pends_closed signals, rest⟩
  · obtain ⟨speed, signals, gauges⟩ := lock is
    exact ⟨speed, pends_closed signals, gauges⟩

theorem calibrationWrite_completes {s : State} {purpose : CalPurpose} {r : CalRecord} {n : Strip} {o : Order}
    (order : awaits s n .store o) (h : s.store.op = some (.calibration .write purpose r))
    (alone : s.store.waiting = none) :
    ∃ m, endsOrder (.calibrationWriteDone true) s m n o 0x0000 ∧
      onlyMessages ((((s.withSpeed m.speed).withStore m.store).withMode m.mode).withGauges m.gauges) m ∧
      m.store.sector0 = some r ∧ m.store.places = s.store.places ∧
      (s.store.pending = false → purpose ≠ .setK ∨ s.speed.k ≠ none →
        m.store = { s.store with op := none, sector0 := some r }) ∧
      dormantJudged s m ∧ calibratedFits s m purpose r := by
  have verified := calibrated_spec h
  have runs := exec_calibrationWriteDone_true h
  generalize (s.recorded r).calibrated purpose r = u at verified runs
  obtain ⟨mode, xm, engine, tables, intake, gauges, speed, _, others⟩ := (onlyMessages_iff _ _).1 verified.frame
  have waiting : u.store.waiting = none := by
    obtain store | store := verified.store
    · rw [store]; exact alone
    · rw [store]; exact alone
  have sector0 : u.store.sector0 = some r := by
    obtain store | store := verified.store <;> rw [store]
  have places : u.store.places = s.store.places := by
    obtain store | store := verified.store <;> rw [store]
  refine ⟨u.closed, awaits_ends order runs ?_ ?_ rfl, ?_, ?_, ?_, fun idle plain => ?_,
    closed_dormantJudged mode, calibratedFits_closed verified.fits⟩
  · exact (closed_engine u).trans engine
  · exact (closed_xm u).trans xm
  · refine (onlyMessages_iff _ _).2 ?_
    simpa using ⟨xm, engine, tables, intake, others⟩
  · rw [closed_store, goOn_sector0 waiting, sector0]
  · rw [closed_store, (sameRing_goOn _ _).places, places]
  · have store := verified.plain plain
    rw [closed_store, store]
    exact goOn_idle (t := { s.store with sector0 := some r }) alone idle _

/-- Settles O37: a verified write, a restore, and a failure without a calibration to restore. -/
theorem calibrationWriteDoneCompletesItsOrder : Obligations.CalibrationWriteDoneCompletesItsOrder := by
  refine fun s purpose r n o order h alone =>
    ⟨calibrationWrite_completes order h alone, exec_calibrationWriteDone_restores h, fun unset => ?_⟩
  exact ⟨_, calibrationFailed_ends order (exec_calibrationWriteDone_fails h unset) rfl rfl, closed_faulted alone⟩

end Sys2Proof.Machine
end

section
/-! SUPPORT. An evaluation of the hours unit computes what the statements say (R110 to R115), and its messages follow
the flags that a state before it had. -/

namespace Sys2Proof.Machine

/-! ## Live values and flags -/

/-- The live values of an open activity are those of the rules (R111). -/
theorem liveValues_liveFits (r : RulesTable) (clock : Nat) (d : Driver) (o : OpenActivity) :
    liveFits r clock d o (d.liveValues r o clock) := by
  unfold liveFits Driver.liveValues
  dsimp only
  generalize (if o.kind = .rest then clock - o.start else 0) = rest
  generalize (if o.kind = .drive then clock - o.start else 0) = driven
  generalize (if d.firstTaken = true then r.splitSecond else r.breakFull) = base
  refine ⟨fun full => ⟨if_pos (.inl full), if_pos full⟩, fun short => ⟨if_neg (Nat.not_le.2 short),
    fun taken => if_pos (.inr taken), fun untaken => if_neg ?_⟩, rfl, rfl, rfl⟩
  rintro (full | taken) <;> omega

theorem drives_iff {d : Driver} {o : OpenActivity} (h : d.activity = some o) : d.drives = true ↔ o.kind = .drive := by
  unfold Driver.drives
  rw [h]
  exact beq_iff_eq

/-- Without rules or without an open activity there is nothing to judge (R112). -/
theorem judgedRecord_absent {rules : Option RulesTable} {clock : Nat} {d : Driver}
    (h : rules = none ∨ d.activity = none) :
    judgedRecord rules clock d ↔ d.live = none ∧ d.alerts = ⟨false, false, false⟩ := by
  unfold judgedRecord
  obtain rfl | closed := h
  · rfl
  · rw [closed]
    cases rules <;> rfl

theorem judgedRecord_open {r : RulesTable} {clock : Nat} {d : Driver} {o : OpenActivity} (h : d.activity = some o) :
    judgedRecord (some r) clock d ↔ ∃ l, d.live = some l ∧ liveFits r clock d o l ∧
      (d.alerts.prewarn = true ↔ o.kind = .drive ∧ 0 < l.rcd ∧ l.rcd ≤ r.prewarn) ∧
      (d.alerts.cdExceeded = true ↔ o.kind = .drive ∧ l.rcd = 0) ∧
      (d.alerts.ddExceeded = true ↔ o.kind = .drive ∧ l.rdd = 0) := by
  unfold judgedRecord
  rw [h]

theorem liveNow_absent {rules : Option RulesTable} {d : Driver} (h : rules = none ∨ d.activity = none) (clock : Nat) :
    d.liveNow rules clock = none := by
  unfold Driver.liveNow
  obtain rfl | closed := h
  · rfl
  · rw [closed]
    cases rules <;> rfl

theorem liveNow_open {d : Driver} {o : OpenActivity} (h : d.activity = some o) (r : RulesTable) (clock : Nat) :
    d.liveNow (some r) clock = some (d.liveValues r o clock) := by
  unfold Driver.liveNow
  rw [h]
  rfl

theorem alertsNow_absent {rules : Option RulesTable} {d : Driver} (h : rules = none ∨ d.activity = none)
    (clock : Nat) : d.alertsNow rules clock = ⟨false, false, false⟩ := by
  unfold Driver.alertsNow
  rw [liveNow_absent h]
  cases rules <;> rfl

theorem alertsNow_open {d : Driver} {o : OpenActivity} (h : d.activity = some o) (r : RulesTable) (clock : Nat)
    {l : Live} (hl : l = d.liveValues r o clock) : d.alertsNow (some r) clock =
      if d.drives then ⟨decide (0 < l.rcd ∧ l.rcd ≤ r.prewarn), decide (l.rcd = 0), decide (l.rdd = 0)⟩
      else ⟨false, false, false⟩ := by
  unfold Driver.alertsNow
  rw [liveNow_open h, hl]

/-- An evaluated record is judged (R111 to R113). -/
theorem evaluated_judgedRecord (d : Driver) (rules : Option RulesTable) (clock : Nat) :
    judgedRecord rules clock (d.evaluated rules clock) := by
  have absent : rules = none ∨ d.activity = none → judgedRecord rules clock (d.evaluated rules clock) := fun h =>
    (judgedRecord_absent (d := d.evaluated rules clock) h).2 ⟨liveNow_absent h clock, alertsNow_absent h clock⟩
  cases hr : rules with
  | none => exact hr ▸ absent (.inl hr)
  | some r =>
    cases ha : d.activity with
    | none => exact hr ▸ absent (.inr ha)
    | some o =>
      have flags := alertsNow_open ha r clock rfl
      have driving := drives_iff ha
      refine (judgedRecord_open (d := d.evaluated (some r) clock) ha).2
        ⟨_, liveNow_open ha r clock, liveValues_liveFits r clock d o, ?_⟩
      show ((d.alertsNow (some r) clock).prewarn = true ↔ _) ∧ ((d.alertsNow (some r) clock).cdExceeded = true ↔ _) ∧
        ((d.alertsNow (some r) clock).ddExceeded = true ↔ _)
      rw [flags, ← driving]
      by_cases drives : d.drives = true <;> simp [drives]

/-- The hours unit after an evaluation (R110, R115). -/
theorem evaluated_judged (h : Hours) (rules : Option RulesTable) (moving : Bool) :
    (h.evaluated rules moving).judged rules moving := by
  refine ⟨evaluated_judgedRecord _ _ _, evaluated_judgedRecord _ _ _, ?_⟩
  show h.undeclaredNow moving = true ↔ moving = true ∧ ¬h.driver1.drives = true ∧ ¬h.driver2.drives = true
  unfold Hours.undeclaredNow
  simp [and_assoc]

/-! ## Messages -/

/-- In an evaluation every alert's message follows its flag, and the messages of other units are spared. -/
theorem evaluateHours_follows {s : State} (single : s.stack.single) :
    (∀ id sev old new, (id, sev, old, new) ∈ alertList s.hours s.evaluateHours.hours →
      (old = false → new = true → s.evaluateHours.stack.keeps id sev) ∧
      (old = true → new = false → s.evaluateHours.stack.dropped id)) ∧
    ∀ other, other.origin ≠ .hours → Stack.Spares s.stack s.evaluateHours.stack other := by
  rw [State.evaluateHours_hours]
  generalize hn : s.hours.evaluated s.tables.rules s.speed.moving = new
  have fold : s.evaluateHours = (alertList s.hours new).foldl
      (fun s a => s.alert a.1 a.2.1 a.2.2.1 a.2.2.2) (s.withHours new) := by rw [← hn]; rfl
  obtain ⟨_, spares, follows⟩ := alerts_follow (alertList s.hours new) (s := s.withHours new) single
    (by simp [alertList]) (by simp [alertList]) _ fold
  refine ⟨follows, fun other origin => spares other fun listed => origin ?_⟩
  obtain ⟨a, listed, rfl⟩ := List.mem_map.1 listed
  revert a
  simp [alertList]

/-- The three alerts of a driver slot are among those that an evaluation judges. -/
theorem mem_alertList (old new : Hours) (d : DriverSlot) :
    (⟨246, .hours, d.number⟩, .amber, (old.driver d).alerts.prewarn, (new.driver d).alerts.prewarn) ∈
        alertList old new ∧
      (⟨247, .hours, d.number⟩, .red, (old.driver d).alerts.cdExceeded, (new.driver d).alerts.cdExceeded) ∈
        alertList old new ∧
      (⟨248, .hours, d.number⟩, .amber, (old.driver d).alerts.ddExceeded, (new.driver d).alerts.ddExceeded) ∈
        alertList old new := by
  cases d <;> simp [alertList, Hours.driver, DriverSlot.number]

/-- The two states have the same alerts of the hours unit. -/
structure SameAlerts (s u : State) : Prop where
  alerts : ∀ d, (u.hours.driver d).alerts = (s.hours.driver d).alerts
  undeclared : u.hours.undeclared = s.hours.undeclared

theorem SameAlerts.of_hours {s u : State} {h : Hours} (hs : s.hours = h) (hu : u.hours = h) : SameAlerts s u :=
  ⟨fun d => by rw [hs, hu], by rw [hs, hu]⟩

/-- The messages of an evaluation follow the flags of an earlier state that had the same. -/
theorem evaluateHours_alertsFollow_from {s u : State} (same : SameAlerts s u)
    (single : s.stack.single → u.stack.single) : alertsFollow s u.evaluateHours := by
  obtain ⟨⟨signals, _, undeclared⟩, _⟩ := u.evaluateHours_alertsFollow
  have follows := fun (capacity : s.stack.withinCapacity) =>
    (evaluateHours_follows (single (single_of_withinCapacity capacity))).1
  refine ⟨?_, ?_, same.undeclared ▸ undeclared⟩
  · rintro d _ _ rfl rfl
    obtain ⟨_, _, _, rises⟩ := signals d _ _ rfl rfl
    obtain ⟨prewarn, cdExceeded, ddExceeded⟩ := mem_alertList u.hours u.evaluateHours.hours d
    rw [same.alerts d] at rises prewarn cdExceeded ddExceeded
    exact ⟨fun capacity => follows capacity _ _ _ _ prewarn, fun capacity => follows capacity _ _ _ _ cdExceeded,
      fun capacity => follows capacity _ _ _ _ ddExceeded, rises⟩
  · rw [← same.undeclared]
    exact fun capacity => follows capacity _ _ _ _ (by simp [alertList])

/-- A flag that stays asks for nothing. -/
theorem messageFollows_same (s m : State) (id : Identity) (sev : Severity) (b : Bool) :
    messageFollows s m id sev b b :=
  fun _ => ⟨fun off on => absurd (off.symm.trans on) (by decide), fun on off => absurd (on.symm.trans off) (by decide)⟩

theorem alertsFollow_of_same {s u : State} (same : SameAlerts s u) : alertsFollow s u := by
  refine ⟨?_, same.undeclared ▸ messageFollows_same s u _ _ _, fun off on => ?_⟩
  · rintro d _ _ rfl rfl
    rw [same.alerts d]
    refine ⟨messageFollows_same s u _ _ _, messageFollows_same s u _ _ _, messageFollows_same s u _ _ _, ?_⟩
    rintro (⟨off, on⟩ | ⟨off, on⟩ | ⟨off, on⟩) <;> exact absurd (off.symm.trans on) (by decide)
  · rw [same.undeclared] at on
    exact absurd (off.symm.trans on) (by decide)

/-- An evaluation keeps every channel and its watchers' messages. -/
theorem evaluateHours_kept (s : State) (c : Fin 8) : ChannelKept c s s.evaluateHours :=
  ⟨by rw [State.evaluateHours_gauges], s.evaluateHours_alertsFollow.2,
    fun single _ _ _ => (evaluateHours_follows single).2 _ (by simp)⟩

end Sys2Proof.Machine
end

section
/-! SUPPORT and the settling of O47. SPEED_WINDOW and MOVING_SET: the speed, the standstill, the moving flag, and the
channels that show speed (R48, R54 to R56). -/

namespace Sys2Proof.Machine

/-! ## The speed of a window (R54, R55) -/

/-- A unit rests once it stands still, has met no edge, or has met none for 2 seconds. -/
theorem rests_iff (v : Speed) : v.rests = true ↔ v.standstill = true ∨ v.lastStamp = none ∨
    ∃ last, v.lastStamp = some last ∧ 2000000 ≤ (v.timer - last).toNat := by
  unfold Speed.rests
  rw [Bool.or_eq_true]
  cases v.lastStamp <;> simp

theorem endWindow_standstill_of_periods {v : Speed} (h : 0 < v.periods) : v.endWindow.standstill = v.standstill :=
  if_neg (by omega)

theorem endWindow_standstill_of_none {v : Speed} (h : v.periods = 0) : v.endWindow.standstill = v.rests := if_pos h

theorem endWindow_v_of_unset {v : Speed} (h : v.k = none) : v.endWindow.v = 0 := by
  unfold Speed.endWindow
  rw [h]
  rfl

theorem endWindow_v_of_set {v : Speed} {k : Nat} (h : v.k = some k) : v.endWindow.v = v.windowSpeed k := by
  unfold Speed.endWindow
  rw [h]
  rfl

theorem windowSpeed_of_periods {v : Speed} (h : 0 < v.periods) (k : Nat) :
    v.windowSpeed k = min (360000000000 * v.periods / (k * v.periodSum)) 25000 :=
  if_pos h

theorem windowSpeed_of_rest {v : Speed} (h : v.periods = 0) (rests : v.rests = true) (k : Nat) :
    v.windowSpeed k = 0 :=
  (if_neg (by omega)).trans (if_pos rests)

/-- Without a period the speed falls with the time since the last edge, and never rises. -/
theorem windowSpeed_of_gap {v : Speed} {last : BitVec 32} {gap : Nat} (h : v.periods = 0) (moves : v.rests = false)
    (known : v.lastStamp = some last) (hgap : gap = (v.timer - last).toNat) (passed : 0 < gap) (k : Nat) :
    v.windowSpeed k = min v.v (360000000000 / (k * gap)) := by
  have estimate : v.estimate k = some (speedNumerator / (k * gap)) := by
    unfold Speed.estimate
    rw [known, hgap]
    exact if_neg (by omega)
  unfold Speed.windowSpeed
  rw [if_neg (by omega), if_neg (by simp [moves]), estimate]
  show (if speedNumerator / (k * gap) < v.v then _ else _) = min v.v (speedNumerator / (k * gap))
  split <;> omega

/-- A window's judgement of the speed leaves all but the moving timer and flag. -/
theorem judgeMoving_eq (v : Speed) (least time : Nat) : v.judgeMoving least time =
    { v with
      movingTimer := (v.judgeMoving least time).movingTimer, moving := (v.judgeMoving least time).moving } := by
  unfold Speed.judgeMoving
  split <;> rfl

theorem judgeMoving_fast {v : Speed} {least : Nat} (h : least ≤ v.v) (time : Nat) :
    (v.judgeMoving least time).movingTimer = min (v.movingTimer + 100) time ∧
      ((v.judgeMoving least time).moving = true ↔ v.moving = true ∨ time ≤ v.movingTimer + 100) := by
  unfold Speed.judgeMoving
  rw [if_pos h]
  refine ⟨rfl, ?_⟩
  simp

theorem judgeMoving_slow {v : Speed} {least : Nat} (h : v.v < least) (time : Nat) :
    (v.judgeMoving least time).movingTimer = 0 ∧ (v.judgeMoving least time).moving = false := by
  unfold Speed.judgeMoving
  rw [if_neg (Nat.not_le.2 h)]
  exact ⟨rfl, rfl⟩

/-- MOVE_SPEED and MOVE_TIME in force (R56). -/
theorem moveRules {s : State} {least time : Nat} (h : s.tables.rules = none ∧ least = 500 ∧ time = 60000 ∨
    ∃ r, s.tables.rules = some r ∧ least = r.moveSpeed ∧ time = r.moveTime * 1000) :
    s.moveSpeed = least ∧ s.moveTime = time := by
  unfold State.moveSpeed State.moveTime
  obtain ⟨absent, rfl, rfl⟩ | ⟨r, loaded, rfl, rfl⟩ := h
  · rw [absent]
    exact ⟨rfl, rfl⟩
  · rw [loaded]
    exact ⟨rfl, rfl⟩

/-! ## The channels that show speed (R48) -/

/-- A round of a source's event keeps a channel with another source. -/
theorem forChannels_sourceEvent_kept {s : State} {src : Source} {c : Fin 8}
    (h : ∀ e, s.enabledEntry c = some e → e.source ≠ src) (old new : Condition) (reading : Bool) :
    ChannelKept c s (s.forChannels (State.sourceEvent src old new reading)) := by
  have round := foldl_relates (f := State.sourceEvent src old new reading)
    (R := fun a b => b.tables = a.tables ∧ (a.tables = s.tables → ChannelKept c a b))
    (fun a => ⟨rfl, fun _ => .refl c a⟩)
    (fun ab bd => ⟨bd.1.trans ab.1, fun ha => (ab.2 ha).trans (bd.2 (ab.1.trans ha))⟩)
    allChannels (fun a d _ => ⟨State.sourceEvent_tables .., fun ha => ?_⟩) s
  · exact round.2 rfl
  · by_cases ne : c = d
    · subst ne
      rw [sourceEvent_of_ne fun e he => h e ((enabledEntry_congr ha c).symm.trans he)]
      exact .refl c a
    · exact (turnOf_sourceEvent _ _ _ _ a d).kept ne

/-- With a calibration the speed is a reading that leaves its source GOOD, and otherwise none. -/
theorem forChannels_speedReading (s : State) : s.forChannels State.speedReading =
    if s.speed.k.isSome then s.forChannels (State.sourceEvent .speed .good .good true) else s := by
  unfold State.forChannels
  generalize allChannels = l
  induction l generalizing s with
  | nil => exact (ite_self s).symm
  | cons c l ih =>
    rw [List.foldl_cons, ih]
    by_cases set : s.speed.k.isSome = true
    · have event : s.speedReading c = State.sourceEvent .speed .good .good true s c := if_pos set
      rw [event, State.sourceEvent_speed, if_pos set, if_pos set, List.foldl_cons]
    · have stays : s.speedReading c = s := if_neg set
      rw [stays, if_neg set, if_neg set]

/-- A channel that shows speed has judged the reading, if there is one. -/
theorem speedReading_turn {s : State} {c : Fin 8} {e : GaugeEntry} (he : s.enabledEntry c = some e)
    (source : e.source = .speed) : ChannelTurn c e false .good .good
      (if s.speed.k.isSome then some (s.speed.v : Int) else none) s (s.forChannels State.speedReading) := by
  rw [forChannels_speedReading]
  by_cases set : s.speed.k.isSome = true
  · rw [if_pos set, if_pos set]
    have turn := forChannels_sourceEvent_turn he .good .good true (signed := false) (by rw [source]; exact fun _ => rfl)
    rw [source] at turn
    exact turn
  · rw [if_neg set, if_neg set]
    exact (ChannelKept.refl c s).turn e false .good

theorem speedReading_kept {s : State} {c : Fin 8} (h : ∀ e, s.enabledEntry c = some e → e.source ≠ .speed) :
    ChannelKept c s (s.forChannels State.speedReading) := by
  rw [forChannels_speedReading]
  split
  · exact forChannels_sourceEvent_kept h _ _ _
  · exact .refl c s

/-- A round of readings leaves every unit but the channels and the messages. -/
theorem speedReading_frame (s : State) :
    onlyMessages (s.withGauges (s.forChannels State.speedReading).gauges) (s.forChannels State.speedReading) ∧
      (s.stack.single → (s.forChannels State.speedReading).stack.single) := by
  rw [forChannels_speedReading]
  split
  · exact ⟨(onlyMessages_iff _ _).2 (by simp), (forChannels_sourceEvent_slotFrame s _ _ _ _).single⟩
  · exact ⟨rfl, id⟩

/-! ## The window -/

/-- The speed unit after a window. -/
def State.windowed (s : State) : Speed := s.speed.endWindow.judgeMoving s.moveSpeed s.moveTime

/-- The window before mode and hours are asked: the speed and the channels that show it. -/
def State.windowShown (s : State) : State := (s.withSpeed s.windowed).forChannels State.speedReading

theorem speedWindow_eq (s : State) : s.speedWindow =
    if s.windowed.moving ≠ s.speed.moving then s.windowShown.evaluateHours else s.windowShown := rfl

/-- The readings leave the speed and every unit but the channels and the messages. -/
theorem windowShown_frame (u : State) :
    onlyMessages ((u.withSpeed u.windowed).withGauges u.windowShown.gauges) u.windowShown ∧
      (u.stack.single → u.windowShown.stack.single) :=
  speedReading_frame (u.withSpeed u.windowed)

theorem windowShown_kept {u : State} {c : Fin 8} (h : ∀ e, u.enabledEntry c = some e → e.source ≠ .speed) :
    ChannelKept c u u.windowShown :=
  have put : ChannelKept c u (u.withSpeed u.windowed) := .of_eq rfl rfl
  put.trans (speedReading_kept h)

theorem windowShown_turn {u : State} {c : Fin 8} {e : GaugeEntry} (he : u.enabledEntry c = some e)
    (source : e.source = .speed) : ChannelTurn c e false .good .good
      (if u.windowed.k.isSome then some (u.windowed.v : Int) else none) u u.windowShown :=
  (speedReading_turn (s := u.withSpeed u.windowed) he source).after_kept (.of_eq rfl rfl)

/-- What a window leaves of the units. -/
structure WindowLeaves (u t : State) : Prop where
  frame : onlyMessages (((u.withSpeed u.windowed).withGauges t.gauges).withHours t.hours) t
  moved : u.windowed.moving ≠ u.speed.moving → t.hours.judged u.tables.rules u.windowed.moving
  stayed : u.windowed.moving = u.speed.moving → t.hours = u.hours
  alerts : ∀ s, SameAlerts s u → s.stack = u.stack → alertsFollow s t
  kept : ∀ c, (∀ e, u.enabledEntry c = some e → e.source ≠ .speed) → ChannelKept c u t
  turn : ∀ c e, u.enabledEntry c = some e → e.source = .speed → ChannelTurn c e false .good .good
    (if u.windowed.k.isSome then some (u.windowed.v : Int) else none) u t

theorem speedWindow_leaves (u : State) : WindowLeaves u u.speedWindow := by
  obtain ⟨frame, single⟩ := windowShown_frame u
  have kept := fun c => windowShown_kept (u := u) (c := c)
  have turn := fun c e => windowShown_turn (u := u) (c := c) (e := e)
  rw [speedWindow_eq]
  generalize u.windowShown = w at *
  obtain ⟨mode, xm, engine, tables, intake, _, speed, store, lamps, hours, others⟩ := (onlyMessages_iff _ _).1 frame
  have hours : w.hours = u.hours := hours
  have same : ∀ s, SameAlerts s u → SameAlerts s w := fun s h => ⟨hours ▸ h.alerts, hours ▸ h.undeclared⟩
  by_cases changes : u.windowed.moving ≠ u.speed.moving
  · rw [if_pos changes]
    refine ⟨?_, fun _ => ?_, fun stays => absurd stays changes, fun s h stack => ?_, fun c h => ?_,
      fun c e he source => ?_⟩
    · refine (onlyMessages_iff _ _).2 ?_
      simpa using ⟨mode, xm, engine, tables, intake, speed, store, lamps, others⟩
    · rw [State.evaluateHours_hours, tables, speed]
      exact evaluated_judged _ _ _
    · exact evaluateHours_alertsFollow_from (same s h) (stack ▸ single)
    · exact (kept c h).trans (evaluateHours_kept w c)
    · exact (turn c e he source).before_kept (evaluateHours_kept w c)
  · rw [if_neg changes]
    refine ⟨?_, fun moves => absurd moves changes, fun _ => hours, fun s h _ => alertsFollow_of_same (same s h),
      kept, turn⟩
    exact (onlyMessages_iff _ _).2 ⟨mode, xm, engine, tables, intake, rfl, speed, store, lamps, rfl, others⟩

/-! ## The commands -/

theorem exec_speedWindow {s : State} (awake : s.mode.mode ≠ .initial) (us : Nat) :
    exec (.speedWindow us) s = .next (s.elapse us).speedWindow :=
  congrArg _ (if_neg awake)

theorem exec_movingSet {s : State} (awake : s.mode.mode ≠ .initial) (still : s.speed.moving = false)
    (fast : s.moveSpeed ≤ s.speed.v) (due : s.moveTime ≤ s.speed.movingTimer + 100) : exec .movingSet s =
      .next (s.withSpeed { s.speed with movingTimer := s.moveTime, moving := true }).evaluateHours :=
  congrArg _ (if_pos ⟨awake, still, fast, due⟩)

/-- Time alone moves no alert of the hours unit. -/
theorem elapse_sameAlerts (us : Nat) (s : State) : SameAlerts s (s.elapse us) :=
  ⟨fun d => by cases d <;> rfl, rfl⟩

/-- The standstill flag at the end of a window (R54, R55, log 27). -/
theorem endWindow_standstill (v : Speed) :
    (0 < v.periods → v.endWindow.standstill = v.standstill) ∧
    (v.periods = 0 → v.standstill = true ∨ v.lastStamp = none → v.endWindow.standstill = true) ∧
    (∀ last, v.periods = 0 → v.standstill = false → v.lastStamp = some last →
      (v.endWindow.standstill = true ↔ 2000000 ≤ (v.timer - last).toNat)) := by
  refine ⟨endWindow_standstill_of_periods, fun empty rests => ?_, fun last empty moves known => ?_⟩
  · rw [endWindow_standstill_of_none empty, rests_iff]
    exact rests.imp_right .inl
  · rw [endWindow_standstill_of_none empty, rests_iff]
    simp [moves, known]

/-- The speed of a window with a calibration (R54). -/
theorem endWindow_v {v : Speed} {k : Nat} (h : v.k = some k) :
    (0 < v.periods → v.endWindow.v = min (360000000000 * v.periods / (k * v.periodSum)) 25000) ∧
    (v.periods = 0 → v.endWindow.standstill = true → v.endWindow.v = 0) ∧
    (∀ last gap, v.periods = 0 → v.endWindow.standstill = false → v.lastStamp = some last →
      gap = (v.timer - last).toNat → 0 < gap → v.endWindow.v = min v.v (360000000000 / (k * gap))) := by
  rw [endWindow_v_of_set h]
  refine ⟨fun counted => windowSpeed_of_periods counted k, fun empty rests => ?_,
    fun last gap empty moves known hgap passed => ?_⟩
  · exact windowSpeed_of_rest empty (endWindow_standstill_of_none empty ▸ rests) k
  · exact windowSpeed_of_gap empty (endWindow_standstill_of_none empty ▸ moves) known hgap passed k

theorem windowed_eq (s : State) : s.windowed =
    { s.speed.endWindow with movingTimer := s.windowed.movingTimer, moving := s.windowed.moving } :=
  judgeMoving_eq _ _ _

/-- The moving timer and flag at the end of a window (R56). -/
theorem windowed_moving (s : State) {least time : Nat} (h : s.tables.rules = none ∧ least = 500 ∧ time = 60000 ∨
    ∃ r, s.tables.rules = some r ∧ least = r.moveSpeed ∧ time = r.moveTime * 1000) :
    (least ≤ s.windowed.v → s.windowed.movingTimer = min (s.speed.movingTimer + 100) time ∧
      (s.windowed.moving = true ↔ s.speed.moving = true ∨ time ≤ s.speed.movingTimer + 100)) ∧
    (s.windowed.v < least → s.windowed.movingTimer = 0 ∧ s.windowed.moving = false) := by
  obtain ⟨rfl, rfl⟩ := moveRules h
  have v : s.windowed.v = s.speed.endWindow.v := by rw [windowed_eq]
  rw [v]
  exact ⟨fun fast => judgeMoving_fast fast _, fun slow => judgeMoving_slow slow _⟩

/-- The channels after a window: those that show speed have judged it, and the others are as they were. -/
theorem WindowLeaves.channels {u t : State} (h : WindowLeaves u t) (speed : t.speed = u.windowed) (c : Fin 8) :
    t.gauges[c] = { u.gauges[c] with alarm0 := t.gauges[c].alarm0, alarm1 := t.gauges[c].alarm1 } ∧
      (u.enabledEntry c = none → t.gauges[c] = u.gauges[c]) ∧
      ∀ e, u.enabledEntry c = some e →
        (e.source ≠ .speed → t.gauges[c] = u.gauges[c]) ∧
        (e.source = .speed → watchersFollow u t c e false
          (if u.speed.k.isSome then some (t.speed.v : Int) else none) False) := by
  have k : u.windowed.k = u.speed.k := by rw [windowed_eq]; rfl
  have never : (Condition.good = .good ∧ Condition.good ≠ .good) = False := by simp
  have others : ∀ e, u.enabledEntry c = some e → e.source ≠ .speed → t.gauges[c] = u.gauges[c] := fun e he other =>
    (h.kept c fun e' he' => Option.some.inj (he.symm.trans he') ▸ other).channel
  have disabled : u.enabledEntry c = none → t.gauges[c] = u.gauges[c] := fun off =>
    (h.kept c fun e he => absurd (off.symm.trans he) (by simp)).channel
  refine ⟨?_, disabled, fun e he => ⟨others e he, fun source => ?_⟩⟩
  · cases he : u.enabledEntry c with
    | none => rw [disabled he]
    | some e =>
      by_cases source : e.source = .speed
      · exact (h.turn c e he source).stayed rfl
      · rw [others e he source]
  · have follows := (h.turn c e he source).watchersFollow
    rwa [never, k, ← speed] at follows

theorem movingSet_moves {s : State} (awake : s.mode.mode ≠ .initial) (still : s.speed.moving = false)
    (fast : s.moveSpeed ≤ s.speed.v) (due : s.moveTime ≤ s.speed.movingTimer + 100) :
    ∃ t, exec .movingSet s = .next t ∧ t.speed = { s.speed with movingTimer := s.moveTime, moving := true } ∧
      onlyMessages ((s.withSpeed t.speed).withHours t.hours) t ∧ t.hours.judged s.tables.rules true ∧
      alertsFollow s t := by
  refine ⟨_, exec_movingSet awake still fast due, State.evaluateHours_speed _, (onlyMessages_iff _ _).2 (by simp), ?_,
    evaluateHours_alertsFollow_from (.of_hours rfl rfl) id⟩
  rw [State.evaluateHours_hours]
  exact evaluated_judged _ _ _

/-- Settles O47: the speed unit's window, then what it leaves of the channels, the hours unit and the messages. -/
theorem speedWindowComputesSpeedAndMoving : Obligations.SpeedWindowComputesSpeedAndMoving := by
  refine ⟨?_, fun s => movingSet_moves⟩
  rintro us s u rfl awake
  have leaves := speedWindow_leaves (s.elapse us)
  refine ⟨_, exec_speedWindow awake us, ?_⟩
  generalize (s.elapse us).speedWindow = t at leaves
  have speed : t.speed = (s.elapse us).windowed := by
    obtain ⟨_, _, _, _, _, _, speed, _⟩ := (onlyMessages_iff _ _).1 leaves.frame
    exact speed
  obtain ⟨counted, still, rests⟩ := endWindow_standstill (s.elapse us).speed
  have fields := windowed_eq (s.elapse us)
  rw [← speed] at fields
  have standstill : t.speed.standstill = (s.elapse us).speed.endWindow.standstill := by rw [fields]
  have v : t.speed.v = (s.elapse us).speed.endWindow.v := by rw [fields]
  refine ⟨speed ▸ leaves.frame, by rw [fields]; rfl, by rw [fields]; rfl, by rw [fields]; rfl, by rw [fields]; rfl,
    by rw [fields]; rfl, standstill ▸ counted, standstill ▸ still, standstill ▸ rests, fun unset => ?_, fun k set => ?_,
    fun least time rules => ?_, speed ▸ leaves.moved, speed ▸ leaves.stayed,
    leaves.alerts s (elapse_sameAlerts us s) rfl, leaves.channels speed⟩
  · rw [v]
    exact endWindow_v_of_unset unset
  · rw [v, standstill]
    exact endWindow_v (v := (s.elapse us).speed) set
  · rw [speed]
    exact windowed_moving (s.elapse us) rules

end Sys2Proof.Machine
end

section
/-! The settling of O57. Each of the three chime commands acts at one moment of the sound it names, and at no other
(R91, R92, log 1, log 3). -/

namespace Sys2Proof.Machine

/-! ## When each command acts -/

theorem exec_singleEnd_due {s : State} (playing : s.chime.playing = .single) (time : s.chime.time = 600) :
    exec .singleEnd s = .next (s.withChime s.chime.goOn) :=
  congrArg Host.Outcome.next (if_pos ⟨playing, time⟩)

theorem exec_singleEnd_early {s : State} (h : s.chime.playing ≠ .single ∨ s.chime.time ≠ 600) :
    exec .singleEnd s = .next s :=
  congrArg Host.Outcome.next (if_neg (not_and_or.2 h))

theorem exec_clickEnd_due {s : State} (playing : s.chime.playing = .click) (time : s.chime.time = 20) :
    exec .clickEnd s = .next (s.withChime { s.chime with playing := .silent, time := 0 }) :=
  congrArg Host.Outcome.next (if_pos ⟨playing, time⟩)

theorem exec_clickEnd_early {s : State} (h : s.chime.playing ≠ .click ∨ s.chime.time ≠ 20) :
    exec .clickEnd s = .next s :=
  congrArg Host.Outcome.next (if_neg (not_and_or.2 h))

theorem exec_continuousToneEdge_due {s : State} (playing : s.chime.playing = .continuous)
    (time : s.chime.time = 499 ∨ s.chime.time = 999) : exec .continuousToneEdge s =
      .next (s.withChime { s.chime with time := if s.chime.time < 500 then 500 else 0 }) :=
  congrArg Host.Outcome.next (if_pos ⟨playing, time⟩)

theorem exec_continuousToneEdge_early {s : State}
    (h : s.chime.playing ≠ .continuous ∨ s.chime.time ≠ 499 ∧ s.chime.time ≠ 999) :
    exec .continuousToneEdge s = .next s :=
  congrArg Host.Outcome.next (if_neg (by rwa [not_and_or, not_or]))

/-! ## What sounds -/

/-- A waiting SINGLE starts where a sound ends (R92). -/
theorem chimeGoOn_waiting {c : Chime} (h : c.waiting = true) :
    c.goOn = { c with playing := .single, time := 0, waiting := false } := if_pos h

theorem chimeGoOn_silent {c : Chime} (h : c.waiting = false) : c.goOn = { c with playing := .silent, time := 0 } :=
  if_neg (by simp [h])

/-- CONTINUOUS sounds in the first half of each second (R91). -/
theorem tone_continuous {c : Chime} (h : c.playing = .continuous) (time : Nat) :
    { c with time := time }.tone = decide (time < 500) := by
  unfold Chime.tone
  rw [h]

/-- At the edge behind each half second CONTINUOUS turns its tone over (R91). -/
theorem continuousToneEdge_turns {s : State} (playing : s.chime.playing = .continuous) {tone : Bool}
    (edge : s.chime.time = 499 ∧ tone = true ∨ s.chime.time = 999 ∧ tone = false) :
    s.chime.tone = tone ∧
      ∃ t, exec .continuousToneEdge s = .next t ∧ t = s.withChime { s.chime with time := t.chime.time } ∧
        t.chime.tone = !tone ∧ t.chime.time = (if tone then 500 else 0) := by
  have at_edge : s.chime.time = 499 ∨ s.chime.time = 999 := edge.imp And.left And.left
  refine ⟨(tone_continuous playing s.chime.time).trans ?_, _, exec_continuousToneEdge_due playing at_edge, rfl,
    (tone_continuous playing _).trans ?_, ?_⟩
  all_goals obtain ⟨time, rfl⟩ | ⟨time, rfl⟩ := edge <;> simp [time]

/-- Settles O57, command by command. -/
theorem chimeSoundsEndAndRepeat : Obligations.ChimeSoundsEndAndRepeat :=
  fun s => ⟨
    fun playing time waits => (exec_singleEnd_due playing time).trans (by rw [chimeGoOn_waiting waits]),
    fun playing time alone => (exec_singleEnd_due playing time).trans (by rw [chimeGoOn_silent alone]),
    exec_clickEnd_due,
    fun playing _ edge => continuousToneEdge_turns playing edge,
    exec_singleEnd_early, exec_clickEnd_early, exec_continuousToneEdge_early⟩

end Sys2Proof.Machine
end

section
/-! SUPPORT. The lamp unit: when an output is lit (R82, R83), and what a change of a lamp's fault state does to LAMP
FAULT, to the causes and to the chime (R88, R89). -/

namespace Sys2Proof.Machine

/-! ## Outputs (R82, R83) -/

theorem demand_lit_iff (d : Demand) (phase : Nat) : d.lit phase = true ↔ litAt d phase := by
  cases d <;> simp [Demand.lit, litAt]

theorem fault_dark_iff (f : LampFault) : f.dark = false ↔ f ≠ .shortWait ∧ f ≠ .latchedOff := by
  cases f <;> simp [LampFault.dark]

theorem litNow_iff (shown : Demand) (f : LampFault) (phase : Nat) :
    litNow shown f phase = true ↔ f ≠ .shortWait ∧ f ≠ .latchedOff ∧ litAt shown phase := by
  unfold litNow
  rw [Bool.and_eq_true, Bool.not_eq_true', fault_dark_iff, demand_lit_iff, and_assoc]

/-! ## Records -/

theorem setLamp_lamp (s : State) (n : Fin 40) (r : LampRec) : (s.setLamp n r).lamps.recs[n] = r :=
  getElem_putAt_self s.lamps.recs n r

theorem setLamp_others (s : State) {n m : Fin 40} (ne : m ≠ n) (r : LampRec) :
    (s.setLamp n r).lamps.recs[m] = s.lamps.recs[m] :=
  getElem_putAt_ne s.lamps.recs n m r ne

theorem setLampFault_lamp (s : State) (n : Fin 40) (r : LampRec) : (s.setLampFault n r).lamps.recs[n] = r := by
  rw [State.setLampFault_lamps]
  exact getElem_putAt_self s.lamps.recs n r

theorem setLampFault_others (s : State) {n m : Fin 40} (ne : m ≠ n) (r : LampRec) :
    (s.setLampFault n r).lamps.recs[m] = s.lamps.recs[m] := by
  rw [State.setLampFault_lamps]
  exact getElem_putAt_ne s.lamps.recs n m r ne

theorem reported_iff (r : LampRec) : r.fault.reported = true ↔ r.faulty := by
  unfold LampRec.faulty
  cases r.fault <;> simp [LampFault.reported]

/-! ## LAMP FAULT (R89) -/

theorem postLampFault_stack (s : State) (n : Fin 40) :
    (s.postLampFault n).stack = (s.post (msgLampFault n) s.faultSeverity).stack := by
  unfold State.postLampFault
  split <;> rfl

/-- LAMP FAULT of a lamp follows whether it is called for. -/
theorem lampFaultMessage_follows {s : State} (h : s.stack.single) (n : Fin 40) (old new : Bool) :
    Follows s (s.lampFaultMessage n old new) (msgLampFault n) s.faultSeverity old new := by
  obtain ⟨posted, keeps, postSpares⟩ := State.post_spec h (msgLampFault n) s.faultSeverity (by simp [msgLampFault])
  obtain ⟨cleared, dropped, clearSpares⟩ := State.clear_spec h (msgLampFault n)
  rw [← postLampFault_stack] at posted keeps postSpares
  unfold State.lampFaultMessage
  cases old <;> cases new
  · exact ⟨h, by simp, by simp, fun _ _ => .refl _ _⟩
  · exact ⟨posted, fun _ _ => keeps, by simp, postSpares⟩
  · exact ⟨cleared, by simp, fun _ _ => dropped, clearSpares⟩
  · exact ⟨h, by simp, by simp, fun _ _ => .refl _ _⟩

/-- LAMP FAULT is called for: the lamp is legal and its fault state is reported (R88). -/
def State.callsFor (s : State) (n : Fin 40) (f : LampFault) : Bool := s.legal n && f.reported

/-- A message follows in the stack alone. -/
theorem Follows.of_stack {s s' m m' : State} {id : Identity} {sev : Severity} {old new : Bool}
    (h : Follows s m id sev old new) (before : s'.stack = s.stack) (after : m'.stack = m.stack) :
    Follows s' m' id sev old new :=
  ⟨after ▸ h.single, after ▸ h.rises, after ▸ h.falls, by rw [before, after]; exact h.spares⟩

/-- At a change of a lamp's fault state its message follows. -/
theorem setLampFault_follows {s : State} (h : s.stack.single) (n : Fin 40) (r : LampRec) :
    Follows s (s.setLampFault n r) (msgLampFault n) s.faultSeverity (s.callsFor n (s.lamp n).fault)
      (s.callsFor n r.fault) := by
  refine (lampFaultMessage_follows (s := s.setLamp n r) h n _ _).of_stack rfl ?_
  unfold State.setLampFault
  dsimp only
  split <;> rfl

/-- The entry into a fault state sets LAMP_FAULT (R88). -/
theorem setLampFault_pends (s : State) (n : Fin 40) (r : LampRec) (changed : (s.lamp n).fault ≠ r.fault)
    (fault : r.fault ≠ .none) : pends (s.setLampFault n r) .lampFault := by
  unfold State.setLampFault
  rw [if_pos ⟨changed, fault⟩]
  exact pends_raise _ _

/-- A change between fault states that are not reported, into NONE, is a change of the record alone. -/
theorem setLampFault_of_quiet (s : State) (n : Fin 40) (r : LampRec) (old : (s.lamp n).fault.reported = false)
    (new : r.fault = .none) : s.setLampFault n r = s.setLamp n r := by
  have unreported : LampFault.none.reported = false := rfl
  unfold State.setLampFault State.lampFaultMessage
  simp [old, new, unreported]

end Sys2Proof.Machine
end

section
/-! The settling of O55 and O56. OVERCURRENT and the end of its wait (R85 to R87), TEST LAMPS, and the ends of the lamp
test, of the bulb check and of a quarter of the flash cycle (R80 to R82). -/

namespace Sys2Proof.Machine

/-! ## OVERCURRENT and SHORT_WAIT_END -/

theorem exec_overcurrent_lit {s : State} {n : Fin 40} (awake : s.mode.mode ≠ .initial)
    (lit : s.lamps.recs[n].lit = true) :
    exec (.overcurrent n) s = .next (s.setLampFault n s.lamps.recs[n].overcurrent) :=
  congrArg Host.Outcome.next (if_pos ⟨awake, lit⟩)

theorem exec_overcurrent_dark {s : State} {n : Fin 40} (dark : s.lamps.recs[n].lit = false) :
    exec (.overcurrent n) s = .next s :=
  congrArg Host.Outcome.next (if_neg fun ⟨_, lit⟩ => absurd (lit.symm.trans dark) (by decide))

theorem overcurrent_waits {r : LampRec} (h : r.shortCount + 1 < 3) : r.overcurrent =
    { r with lit := false, shortCount := r.shortCount + 1, cleanCount := 0, fault := .shortWait, wait := 0,
             openCount := 0, goodCount := 0 } := if_pos h

theorem overcurrent_latches {r : LampRec} (h : 3 ≤ r.shortCount + 1) : r.overcurrent =
    { r with lit := false, shortCount := 3, cleanCount := 0, fault := .latchedOff } := if_neg (Nat.not_lt.2 h)

/-- What every change of a lamp's fault state leaves: messages aside, the lamp's record alone. -/
theorem setLampFault_frame (s : State) (n : Fin 40) (r : LampRec) :
    onlyMessages (s.withLamps (s.setLampFault n r).lamps) (s.setLampFault n r) :=
  (onlyMessages_iff _ _).2 (by simp)

/-- An overcurrent below the third puts the lamp into SHORT_WAIT; a legal lamp that was OPEN loses its LAMP FAULT. -/
theorem overcurrent_shortWait {s : State} {n : Fin 40} {r : LampRec} (hr : r = s.lamps.recs[n])
    (few : r.shortCount + 1 < 3) :
    (s.setLampFault n r.overcurrent).lamps.recs[n] =
      { r with lit := false, shortCount := r.shortCount + 1, cleanCount := 0, fault := .shortWait, wait := 0,
               openCount := 0, goodCount := 0 } ∧
    (r.fault ≠ .shortWait → pends (s.setLampFault n r.overcurrent) .lampFault) ∧
    (r.fault = .open → s.legal n = true → s.stack.withinCapacity →
      (s.setLampFault n r.overcurrent).stack.dropped (msgLampFault n)) := by
  subst hr
  refine ⟨(setLampFault_lamp s n _).trans (overcurrent_waits few), fun entered => ?_, fun was legal capacity => ?_⟩
  · exact setLampFault_pends s n _ (by rw [overcurrent_waits few]; exact entered) (by rw [overcurrent_waits few]; simp)
  · refine (setLampFault_follows (single_of_withinCapacity capacity) n _).falls ?_ ?_
    · simp [State.callsFor, legal, State.lamp, show s.lamps.recs[n.val].fault = .open from was, LampFault.reported]
    · rw [overcurrent_waits few]
      simp [State.callsFor, LampFault.reported]

/-- The third overcurrent latches the lamp off; a legal lamp posts LAMP FAULT where none stood. -/
theorem overcurrent_latchedOff {s : State} {n : Fin 40} {r : LampRec} (hr : r = s.lamps.recs[n])
    (third : 3 ≤ r.shortCount + 1) :
    (s.setLampFault n r.overcurrent).lamps.recs[n] =
      { r with lit := false, shortCount := 3, cleanCount := 0, fault := .latchedOff } ∧
    (r.fault ≠ .latchedOff → pends (s.setLampFault n r.overcurrent) .lampFault) ∧
    (r.fault = .none ∨ r.fault = .shortWait → s.legal n = true → s.stack.withinCapacity →
      (s.setLampFault n r.overcurrent).stack.keeps (msgLampFault n) (if s.lamps.escalated = true then .red else .amber)) := by
  subst hr
  refine ⟨(setLampFault_lamp s n _).trans (overcurrent_latches third), fun entered => ?_, fun was legal capacity => ?_⟩
  · exact setLampFault_pends s n _ (by rw [overcurrent_latches third]; exact entered)
      (by rw [overcurrent_latches third]; simp)
  · refine (setLampFault_follows (single_of_withinCapacity capacity) n _).rises ?_ ?_
    · have quiet : s.lamps.recs[n].fault.reported = false := by
        obtain was | was := was <;> rw [was] <;> rfl
      exact (congrArg (s.legal n && ·) quiet).trans (Bool.and_false _)
    · rw [overcurrent_latches third]
      simp [State.callsFor, legal, LampFault.reported]

theorem exec_shortWaitEnd_due {s : State} {n : Fin 40} (awake : s.mode.mode ≠ .initial)
    (waiting : s.lamps.recs[n].fault = .shortWait) (due : 1000 ≤ s.lamps.recs[n].wait + 20) :
    exec (.shortWaitEnd n) s = .next (s.setLamp n { s.lamps.recs[n] with
      fault := .none, wait := 0, lit := litNow s.lamps.recs[n].shown .none s.lamps.phase }) := by
  rw [← setLampFault_of_quiet s n _ ((congrArg LampFault.reported waiting).trans rfl) rfl]
  exact congrArg Host.Outcome.next (if_pos ⟨awake, waiting, by
    have : 980 ≤ s.lamps.recs[n].wait := by omega
    exact this⟩)

/-- Settles O55: a dark output, the two outcomes of an overcurrent, and the end of the wait. -/
theorem overcurrentWaitsOrLatches : Obligations.OvercurrentWaitsOrLatches := by
  rintro s n r rfl awake
  refine ⟨exec_overcurrent_dark, fun lit => ?_, fun waiting due => ?_⟩
  · exact ⟨_, exec_overcurrent_lit awake lit, setLampFault_frame s n _, by rw [State.setLampFault_lamps],
      fun m ne => setLampFault_others s ne _, overcurrent_shortWait rfl, overcurrent_latchedOff rfl⟩
  · refine ⟨_, exec_shortWaitEnd_due awake waiting due, rfl, fun m ne => setLamp_others s ne _, ?_⟩
    rw [setLamp_lamp]
    refine ⟨rfl, (litNow_iff _ .none _).trans ?_⟩
    simp

/-! ## TEST LAMPS (R81) -/

theorem testLampsBody_due (s : State) (n : Strip) : testLampsBody s (s.orderArgs n .testLamps) =
    if s.mode.mode ≠ .running ∧ s.mode.mode ≠ .limp then refuse s .refusedMode
    else if s.argNum n 0 < 1 ∨ 100 < s.argNum n 0 then refuse s .badArgument
    else done (s.withLamps { s.lamps with testTimer := s.argNum n 0 * 100 }) := by
  unfold testLampsBody
  rw [arg_orderArgs s n .testLamps 0 (by decide)]

theorem testLamps_ends {s : State} {n : Strip} (h : due s n .testLamps) :
    (s.mode.mode ≠ .running → s.mode.mode ≠ .limp → endsOrder .testLamps s s n .testLamps 0x0500) ∧
    (s.mode.mode = .running ∨ s.mode.mode = .limp →
      (s.argNum n 0 = 0 ∨ 100 < s.argNum n 0 → endsOrder .testLamps s s n .testLamps 0x0200) ∧
      (1 ≤ s.argNum n 0 → s.argNum n 0 ≤ 100 → endsOrder .testLamps s
        (s.withLamps { s.lamps with testTimer := 100 * s.argNum n 0 }) n .testLamps 0x0000)) := by
  have body := testLampsBody_due s n
  refine ⟨fun running limp => ?_, fun lit => ?_⟩
  · exact order_ends h rfl (body.trans (if_pos ⟨running, limp⟩)) rfl
  · rw [if_neg (by tauto)] at body
    refine ⟨fun out => ?_, fun low high => ?_⟩
    · exact order_ends h rfl (body.trans (if_pos (by omega))) rfl
    · rw [if_neg (by omega), Nat.mul_comm] at body
      exact endsOrder_of_body h rfl body rfl (fun _ _ => rfl) h.2 rfl

/-! ## The ends of the timers (R80, R81) -/

theorem exec_lampTestEnd_due {s : State} (lit : s.mode.mode = .running ∨ s.mode.mode = .limp)
    (runs : 1 ≤ s.lamps.testTimer) (last : s.lamps.testTimer ≤ 20) :
    exec .lampTestEnd s = .next (s.withLamps { s.lamps with testTimer := 0 }) :=
  congrArg Host.Outcome.next (if_pos ⟨lit, runs, last⟩)

/-- The state at the end of the bulb check, before mode control judges. -/
def State.bulbChecked (s : State) : State := s.withLamps { s.lamps with bulbTimer := 0, bulbOver := true }

theorem exec_bulbCheckOver_due {s : State} (starting : s.mode.mode = .starting) (runs : 1 ≤ s.lamps.bulbTimer)
    (last : s.lamps.bulbTimer ≤ 20) : exec .bulbCheckOver s = .next s.bulbChecked.judgeRunning :=
  congrArg Host.Outcome.next (if_pos ⟨starting, runs, last⟩)

/-- The end of the bulb check does not touch what settles. -/
theorem bulbChecked_settling (s : State) : s.bulbChecked.settling = s.settling := settling_congr rfl rfl

theorem bulbChecked_settles {s : State} (settles : s.settling = true) :
    s.bulbChecked.judgeRunning = s.bulbChecked :=
  if_neg fun ⟨_, settled, _⟩ => absurd ((bulbChecked_settling s).symm.trans settled) (by simp [settles])

theorem bulbChecked_runs {s : State} (starting : s.mode.mode = .starting) (settled : s.settling = false) :
    s.bulbChecked.judgeRunning = s.bulbChecked.enterRunning :=
  if_pos ⟨starting, (bulbChecked_settling s).trans settled, rfl⟩

/-! ## The flash cycle (R82) -/

/-- The flash phase at the edge that a quarter ends with. -/
def State.nextQuarter (s : State) : Nat := (s.lamps.phase / 250 + 1) * 250 % 1000

theorem exec_flashEdge_due {s : State} (awake : s.mode.mode ≠ .initial) (last : s.lamps.phase % 250 = 249) :
    exec .flashEdge s = .next (s.withLamps { s.lamps with
      phase := s.nextQuarter, recs := s.lamps.recs.map (LampRec.edge s.nextQuarter) }) :=
  congrArg Host.Outcome.next (if_neg (by simp [awake, last]))

theorem exec_flashEdge_early {s : State} (h : s.mode.mode = .initial ∨ s.lamps.phase % 250 ≠ 249) :
    exec .flashEdge s = .next s :=
  congrArg Host.Outcome.next (if_pos h)

theorem edge_steady {r : LampRec} (h : r.shown = .off ∨ r.shown = .on) (phase : Nat) : r.edge phase = r := by
  unfold LampRec.edge
  obtain h | h := h <;> rw [h]

theorem edge_flashing {r : LampRec} (h : r.shown = .flashSlow ∨ r.shown = .flashFast) (phase : Nat) :
    r.edge phase = { r with lit := (r.edge phase).lit } ∧
      ((r.edge phase).lit = true ↔ r.fault ≠ .shortWait ∧ r.fault ≠ .latchedOff ∧ litAt r.shown phase) := by
  have edge : r.edge phase = { r with lit := litNow r.shown r.fault phase } := by
    unfold LampRec.edge
    obtain h | h := h <;> simp only [h]
  rw [edge]
  exact ⟨rfl, litNow_iff _ _ _⟩

/-- Settles O56, order and command by command. -/
theorem lampTimersAndTestAct : Obligations.LampTimersAndTestAct := by
  refine ⟨fun s n => testLamps_ends, fun s => exec_lampTestEnd_due, fun s starting runs last => ⟨?_, ?_⟩,
    fun s => exec_flashEdge_early, ?_⟩
  · exact fun settles => (exec_bulbCheckOver_due starting runs last).trans (congrArg _ (bulbChecked_settles settles))
  · exact fun settled =>
      (exec_bulbCheckOver_due starting runs last).trans (congrArg _ (bulbChecked_runs starting settled))
  · rintro s p awake last rfl
    refine ⟨_, exec_flashEdge_due awake last, rfl, ?_⟩
    rintro n r rfl
    have own : (s.lamps.recs.map (LampRec.edge s.nextQuarter))[n] = s.lamps.recs[n].edge s.nextQuarter :=
      Vector.getElem_map _ n.isLt
    refine ⟨fun steady => own.trans (edge_steady steady _), fun flashing => ?_⟩
    have edge := edge_flashing flashing s.nextQuarter
    rw [← own] at edge
    exact edge

end Sys2Proof.Machine
end

section
/-! SUPPORT. The chime and the lamp unit in a round over the lamps: what the turn of one lamp leaves alone (R89 to R92). -/

namespace Sys2Proof.Machine

/-! ## The gong (R92) -/

/-- A SINGLE sounds, or waits for the end of the CONTINUOUS that sounds. -/
def Chime.gong (c : Chime) : Prop := c.playing = .single ∨ (c.playing = .continuous ∧ c.waiting = true)

theorem gongGiven_iff (t : State) : gongGiven t ↔ t.chime.gong := Iff.rfl

theorem requestSingle_gong (c : Chime) : c.requestSingle.gong := by
  unfold Chime.requestSingle Chime.gong
  cases c.playing <;> simp

/-- A CONTINUOUS lets a SINGLE that sounds wait. -/
theorem requestContinuous_gong {c : Chime} (h : c.gong) : c.requestContinuous.gong := by
  unfold Chime.requestContinuous
  obtain single | ⟨continuous, waiting⟩ := h
  · simp [single, Chime.gong]
  · simp [continuous, waiting, Chime.gong]

theorem arrivals_gong (rings : List Severity) {c : Chime} (h : c.gong) : (c.arrivals rings).gong := by
  induction rings generalizing c with
  | nil => exact h
  | cons sev rings ih =>
    refine ih ?_
    cases sev with
    | red => exact requestContinuous_gong h
    | amber => exact requestSingle_gong c
    | info => exact h

theorem takeStack_gong (s : State) (r : Stack × List Severity) (h : gongGiven s) : gongGiven (s.takeStack r) := by
  rw [gongGiven_iff] at h ⊢
  unfold State.takeStack
  dsimp only
  split
  · exact arrivals_gong _ h
  · exact h

theorem request_gong {s : State} {f : Chime → Chime} (keeps : s.chime.gong → (f s.chime).gong) (h : gongGiven s) :
    gongGiven (s.request f) := by
  rw [gongGiven_iff] at h ⊢
  rw [State.request_chime]
  split
  · exact keeps h
  · exact h

theorem postLampFault_gong (s : State) (n : Fin 40) (h : gongGiven s) : gongGiven (s.postLampFault n) := by
  unfold State.postLampFault
  split
  · exact request_gong (fun _ => requestSingle_gong _) (takeStack_gong s _ h)
  · exact takeStack_gong s _ h

/-- While escalated LAMP FAULT comes with a SINGLE, in the modes in which the chime takes requests. -/
theorem postLampFault_rings {s : State} (n : Fin 40) (escalated : s.lamps.escalated = true)
    (chimes : s.mode.mode.chimes = true) : gongGiven (s.postLampFault n) := by
  unfold State.postLampFault
  rw [if_pos escalated, gongGiven_iff, State.request_chime, if_pos (by simpa using chimes)]
  exact requestSingle_gong _

theorem lampFaultMessage_gong (s : State) (n : Fin 40) (old new : Bool) (h : gongGiven s) :
    gongGiven (s.lampFaultMessage n old new) := by
  unfold State.lampFaultMessage
  split
  · exact postLampFault_gong s n h
  · split
    · exact takeStack_gong s _ h
    · exact h

/-! ## Turns of a round -/

/-- Messages and lamp records aside, `t` is `s`. -/
structure LampsAlone (s t : State) : Prop where
  frame : onlyMessages (s.withLamps t.lamps) t
  lamps : t.lamps = { s.lamps with recs := t.lamps.recs }

theorem LampsAlone.refl (s : State) : LampsAlone s s := ⟨(onlyMessages_iff _ _).2 (by simp), rfl⟩

theorem LampsAlone.trans {a b c : State} (h : LampsAlone a b) (k : LampsAlone b c) : LampsAlone a c := by
  have first := (onlyMessages_iff _ _).1 h.frame
  have second := (onlyMessages_iff _ _).1 k.frame
  exact ⟨(onlyMessages_iff _ _).2 (by simp_all), k.lamps.trans (by rw [h.lamps])⟩

/-- A frame that names the tables holds with other tables. -/
theorem LampsAlone.of_tables {s t : State} (h : LampsAlone s t) (tables : Tables) :
    LampsAlone (s.withTables tables) (t.withTables tables) := by
  obtain ⟨mode, xm, engine, _, others⟩ := (onlyMessages_iff _ _).1 h.frame
  exact ⟨(onlyMessages_iff _ _).2 ⟨mode, xm, engine, rfl, others⟩, h.lamps⟩

theorem LampsAlone.mode {s t : State} (h : LampsAlone s t) : t.mode = s.mode :=
  ((onlyMessages_iff _ _).1 h.frame).1

theorem LampsAlone.tables {s t : State} (h : LampsAlone s t) : t.tables = s.tables :=
  ((onlyMessages_iff _ _).1 h.frame).2.2.2.1

theorem LampsAlone.escalated {s t : State} (h : LampsAlone s t) : t.lamps.escalated = s.lamps.escalated := by
  rw [h.lamps]

/-- What the turn of lamp `n` leaves alone: the other lamps and their messages, and a gong once given. -/
structure LampTurn (n : Fin 40) (s t : State) : Prop extends LampsAlone s t where
  others : ∀ m, m ≠ n → t.lamps.recs[m] = s.lamps.recs[m]
  single : s.stack.single → t.stack.single
  spares : s.stack.single → ∀ m : Fin 40, m ≠ n → ∀ code, Stack.Spares s.stack t.stack ⟨code, .lamp, m.val⟩
  gong : gongGiven s → gongGiven t

/-- What the turns of the lamps other than `n` leave alone: lamp `n` and its messages, and a gong once given. -/
structure BesideLamp (n : Fin 40) (s t : State) : Prop extends LampsAlone s t where
  own : t.lamps.recs[n] = s.lamps.recs[n]
  single : s.stack.single → t.stack.single
  spares : s.stack.single → ∀ code, Stack.Spares s.stack t.stack ⟨code, .lamp, n.val⟩
  gong : gongGiven s → gongGiven t

theorem BesideLamp.refl (n : Fin 40) (s : State) : BesideLamp n s s :=
  ⟨.refl s, rfl, id, fun _ _ => .refl _ _, id⟩

theorem BesideLamp.trans {n : Fin 40} {a b c : State} (h : BesideLamp n a b) (k : BesideLamp n b c) :
    BesideLamp n a c where
  toLampsAlone := h.toLampsAlone.trans k.toLampsAlone
  own := k.own.trans h.own
  single x := k.single (h.single x)
  spares x code := (h.spares x code).trans (k.spares (h.single x) code)
  gong x := k.gong (h.gong x)

theorem LampTurn.beside {n m : Fin 40} {s t : State} (h : LampTurn m s t) (ne : m ≠ n) : BesideLamp n s t :=
  ⟨h.toLampsAlone, h.others n ne.symm, h.single, fun single => h.spares single n ne.symm, h.gong⟩

/-- In a round the turn of a lamp stands between turns of other lamps. -/
theorem allLamps_reach {f : State → Fin 40 → State} (turn : ∀ s n, LampTurn n s (f s n)) (n : Fin 40) (s : State) :
    ∃ u, BesideLamp n s u ∧ BesideLamp n (f u n) (allLamps.foldl f s) :=
  foldl_reaches (BesideLamp.refl n) BesideLamp.trans (fun s m ne => (turn s m).beside ne) nodup_allLamps
    (mem_allLamps n) s

theorem allLamps_alone {f : State → Fin 40 → State} (turn : ∀ s n, LampTurn n s (f s n)) (s : State) :
    LampsAlone s (allLamps.foldl f s) :=
  foldl_relates LampsAlone.refl LampsAlone.trans allLamps (fun s n _ => (turn s n).toLampsAlone) s

theorem setLamp_alone (s : State) (n : Fin 40) (r : LampRec) : LampsAlone s (s.setLamp n r) :=
  ⟨(onlyMessages_iff _ _).2 (by simp [State.setLamp]), rfl⟩

/-- A lamp's record replaced. -/
theorem lampTurn_setLamp (s : State) (n : Fin 40) (r : LampRec) : LampTurn n s (s.setLamp n r) :=
  ⟨setLamp_alone s n r, fun _ ne => setLamp_others s ne r, id, fun _ _ _ _ => .refl _ _, id⟩

theorem LampTurn.refl (n : Fin 40) (s : State) : LampTurn n s s :=
  ⟨.refl s, fun _ _ => rfl, id, fun _ _ _ _ => .refl _ _, id⟩

theorem LampTurn.trans {n : Fin 40} {a b c : State} (h : LampTurn n a b) (k : LampTurn n b c) : LampTurn n a c where
  toLampsAlone := h.toLampsAlone.trans k.toLampsAlone
  others m ne := (k.others m ne).trans (h.others m ne)
  single x := k.single (h.single x)
  spares x m ne code := (h.spares x m ne code).trans (k.spares (h.single x) m ne code)
  gong x := k.gong (h.gong x)

/-- A clear of a message of the lamp. -/
theorem lampTurn_clear (s : State) (n : Fin 40) (code : Nat) : LampTurn n s (s.clear ⟨code, .lamp, n.val⟩) where
  toLampsAlone := ⟨(onlyMessages_iff _ _).2 (by simp), rfl⟩
  others _ _ := rfl
  single h := (State.clear_spec h _).1
  spares h m ne code' := (State.clear_spec h _).2.2 _ fun e => ne (Fin.ext (congrArg Identity.arg e))
  gong := takeStack_gong s _

/-- LAMP FAULT of the lamp. -/
theorem lampTurn_lampFaultMessage (s : State) (n : Fin 40) (old new : Bool) :
    LampTurn n s (s.lampFaultMessage n old new) where
  toLampsAlone := ⟨(onlyMessages_iff _ _).2 (by simp), by simp⟩
  others _ _ := by simp
  single h := (lampFaultMessage_follows h n old new).single
  spares h m ne code' :=
    (lampFaultMessage_follows h n old new).spares _ fun e => ne (Fin.ext (congrArg Identity.arg e))
  gong := lampFaultMessage_gong s n old new

end Sys2Proof.Machine
end

section
/-! The settling of O43. The adoption of LAMP is a round that ends the messages on rise under the old table, then one
that gives each lamp its record under the new (R74, R89, R90, log 21). -/

namespace Sys2Proof.Machine

/-! ## The messages on rise end -/

/-- The lamp's entry is a matter of the LAMP table. -/
theorem lampEntry_congr {s t : State} (h : t.tables = s.tables) (n : Fin 40) : t.lampEntry n = s.lampEntry n := by
  unfold State.lampEntry
  rw [h]

/-- A lamp's record once its message on rise has ended. -/
def LampRec.quieted (r : LampRec) : LampRec := { r with riseActive := false }

theorem quieted_of_inactive {r : LampRec} (h : r.riseActive = false) : r.quieted = r := by
  cases r
  subst h
  rfl

/-- The message of the lamp under the table in use is cleared where it is active. -/
theorem dropRise_cases (s : State) (n : Fin 40) :
    (s.lamps.recs[n].riseActive = false ∧ s.dropRise n = s) ∨
    (s.lamps.recs[n].riseActive = true ∧ (s.lampEntry n).bind LampEntry.message = none ∧
      s.dropRise n = s.setLamp n s.lamps.recs[n].quieted) ∨
    (s.lamps.recs[n].riseActive = true ∧ ∃ code sev, (s.lampEntry n).bind LampEntry.message = some (code, sev) ∧
      s.dropRise n = (s.setLamp n s.lamps.recs[n].quieted).clear ⟨code, .lamp, n.val⟩) := by
  unfold State.dropRise
  by_cases active : (s.lamp n).riseActive = true
  · rw [if_pos active]
    cases message : (s.lampEntry n).bind LampEntry.message with
    | none => exact .inr (.inl ⟨active, rfl, rfl⟩)
    | some m => exact .inr (.inr ⟨active, m.1, m.2, rfl, rfl⟩)
  · rw [if_neg active]
    exact .inl ⟨Bool.eq_false_iff.2 active, rfl⟩

theorem lampTurn_dropRise (s : State) (n : Fin 40) : LampTurn n s (s.dropRise n) := by
  obtain ⟨inactive, same⟩ | ⟨_, _, same⟩ | ⟨_, code, _, _, same⟩ := dropRise_cases s n <;> rw [same]
  · exact .refl n s
  · exact lampTurn_setLamp s n _
  · exact (lampTurn_setLamp s n _).trans (lampTurn_clear _ n code)

theorem dropRise_lamp (s : State) (n : Fin 40) : (s.dropRise n).lamps.recs[n] = s.lamps.recs[n].quieted := by
  obtain ⟨inactive, same⟩ | ⟨_, _, same⟩ | ⟨_, _, _, _, same⟩ := dropRise_cases s n <;> rw [same]
  · exact (quieted_of_inactive inactive).symm
  · exact setLamp_lamp s n _
  · exact setLamp_lamp s n _

theorem dropRise_dropped {s : State} {n : Fin 40} {e : LampEntry} {code : Nat} {sev : Severity} (h : s.stack.single)
    (used : s.lampEntry n = some e) (message : e.message = some (code, sev))
    (active : s.lamps.recs[n].riseActive = true) : (s.dropRise n).stack.dropped ⟨code, .lamp, n.val⟩ := by
  have stands : (s.lampEntry n).bind LampEntry.message = some (code, sev) := by rw [used]; exact message
  obtain ⟨inactive, _⟩ | ⟨_, silent, _⟩ | ⟨_, code', sev', stands', same⟩ := dropRise_cases s n
  · exact absurd (active.symm.trans inactive) (by decide)
  · exact absurd (stands.symm.trans silent) (by simp)
  · obtain ⟨rfl, rfl⟩ := Prod.mk.inj (Option.some.inj (stands.symm.trans stands'))
    rw [same]
    exact (State.clear_spec (s := s.setLamp n s.lamps.recs[n].quieted) h _).2.1

/-! ## The records under the new table -/

theorem lampTurn_adoptLamp (old : Option LampTable) (s : State) (n : Fin 40) :
    LampTurn n s (State.adoptLamp old s n) :=
  (lampTurn_setLamp s n _).trans (lampTurn_lampFaultMessage _ n _ _)

/-- The entry of a lamp that an old table used. -/
def usedUnder (old : Option LampTable) (n : Fin 40) : Option LampEntry :=
  (old.map fun t => t.entries[n]).filter LampEntry.used

theorem lampEntry_eq (s : State) (n : Fin 40) : s.lampEntry n = usedUnder s.tables.lamp n := rfl

theorem usedUnder_some {t : LampTable} {n : Fin 40} (used : t.entries[n].used = true) :
    usedUnder (some t) n = some t.entries[n] := Option.filter_some_pos used

theorem usedUnder_none {t : LampTable} {n : Fin 40} (unused : t.entries[n].used = false) :
    usedUnder (some t) n = none := Option.filter_some_neg unused

/-- A lamp used under both tables loses its held demand where its link source changes. -/
theorem adopt_kept (r : LampRec) (o e : LampEntry) :
    r.adopt (some o) (some e) = { r with held := if o.link = e.link then r.held else .off } := by
  unfold LampRec.adopt
  dsimp only
  split <;> rfl

/-- A lamp that the new table does not use loses its fault fields. -/
theorem adopt_unused (r : LampRec) (was : Option LampEntry) : r.adopt was none =
    { r with fault := .none, openCount := 0, goodCount := 0, shortCount := 0, cleanCount := 0, wait := 0 } := by
  cases was <;> rfl

theorem adoptLamp_lamp (old : Option LampTable) (s : State) (n : Fin 40) :
    (State.adoptLamp old s n).lamps.recs[n] = s.lamps.recs[n].adopt (usedUnder old n) (s.lampEntry n) := by
  unfold State.adoptLamp
  rw [State.lampFaultMessage_lamps]
  exact setLamp_lamp s n _

/-- LAMP FAULT follows the legality under the two tables and the fault state under the two records (log 21). -/
theorem adoptLamp_follows (old : Option LampTable) {s : State} (h : s.stack.single) (n : Fin 40) :
    Follows s (State.adoptLamp old s n) (msgLampFault n) s.faultSeverity
      (legalUnder old n && s.lamps.recs[n].fault.reported)
      (s.legal n && (s.lamps.recs[n].adopt (usedUnder old n) (s.lampEntry n)).fault.reported) :=
  (lampFaultMessage_follows (s := s.setLamp n (s.lamps.recs[n].adopt (usedUnder old n) (s.lampEntry n))) h n _ _).of_stack
    rfl rfl

theorem adoptLamp_rings (old : Option LampTable) {s : State} {n : Fin 40} (escalated : s.lamps.escalated = true)
    (chimes : s.mode.mode.chimes = true) (was : (legalUnder old n && s.lamps.recs[n].fault.reported) = false)
    (now : (s.legal n && (s.lamps.recs[n].adopt (usedUnder old n) (s.lampEntry n)).fault.reported) = true) :
    gongGiven (State.adoptLamp old s n) := by
  have posts : State.adoptLamp old s n = State.postLampFault (s.setLamp n
      (s.lamps.recs[n].adopt (usedUnder old n) (s.lampEntry n))) n := by
    unfold State.adoptLamp State.lampFaultMessage
    exact if_pos (Bool.and_eq_true_iff.2 ⟨by rw [Bool.not_eq_true']; exact was, now⟩)
  rw [posts]
  exact postLampFault_rings n escalated chimes

/-! ## The adoption -/

/-- The state at the adoption, before its order ends. -/
def State.lampsAdopted (s : State) (t : LampTable) (len : Nat) (sum : Word) : State :=
  (allLamps.foldl (State.adoptLamp s.tables.lamp)
    ((allLamps.foldl State.dropRise s).install .lamp ⟨.lamp t, len, sum⟩)).reported .lamp .done

theorem exec_lampTableAdoption {s : State} {n : Strip} {t : LampTable} {len : Nat} {sum : Word}
    (h : awaits s n (.table .lamp) .loadTable) (hi : s.tables.incoming = some ⟨.lamp t, len, sum⟩) :
    exec .lampTableAdoption s = .next ((s.lampsAdopted t len sum).finish .done 0) := by
  show execLampTableAdoption s = _
  rw [execLampTableAdoption, awaited_of_awaits h, hi]
  exact congrArg Host.Outcome.next (endLoad_eq _ .lamp .done)

/-- The rounds leave of the part's other units what they were, and of the lamp unit all but the records. -/
theorem lampsAdopted_frame (s : State) (t : LampTable) (len : Nat) (sum : Word) :
    (s.lampsAdopted t len sum).tables =
      { s.tables with
        lamp := some t, incoming := none, report := ⟨2, 0, 0, 0⟩, dir := { s.tables.dir with lamp := ⟨true, len, sum⟩ } } ∧
    (s.lampsAdopted t len sum).lamps = { s.lamps with recs := (s.lampsAdopted t len sum).lamps.recs } ∧
    onlyMessages ((s.withTables (s.lampsAdopted t len sum).tables).withLamps (s.lampsAdopted t len sum).lamps)
      (s.lampsAdopted t len sum) := by
  have drops := allLamps_alone lampTurn_dropRise s
  have adopts := allLamps_alone (lampTurn_adoptLamp s.tables.lamp)
    ((allLamps.foldl State.dropRise s).install .lamp ⟨.lamp t, len, sum⟩)
  unfold State.lampsAdopted
  generalize allLamps.foldl State.dropRise s = u at *
  generalize allLamps.foldl (State.adoptLamp s.tables.lamp) (u.install .lamp ⟨.lamp t, len, sum⟩) = v at *
  have first := (onlyMessages_iff _ _).1 drops.frame
  have second := (onlyMessages_iff _ _).1 adopts.frame
  obtain ⟨mode, xm, engine, _, intake, gauges, speed, store, _, hours, panel, prescale, pending⟩ :=
    (onlyMessages_iff _ _).1 (drops.trans (adopts.of_tables u.tables)).frame
  refine ⟨?_, adopts.lamps.trans ?_, (onlyMessages_iff _ _).2 ?_⟩
  · show { v.tables with incoming := none, report := ⟨2, 0, 0, 0⟩ } = _
    rw [adopts.tables]
    show { u.tables.install (.lamp t) with
      incoming := none, report := ⟨2, 0, 0, 0⟩, dir := { u.tables.dir with lamp := ⟨true, len, sum⟩ } } = _
    rw [drops.tables]
    rfl
  · exact congrArg (fun l : Lamps => { l with recs := v.lamps.recs }) drops.lamps
  · exact ⟨mode, xm, engine, rfl, intake, gauges, speed, store, rfl, hours, panel, prescale, pending⟩

/-- The state in which lamp `n` takes its record under the new table. -/
structure AtAdoption (s : State) (t : LampTable) (n : Fin 40) (v : State) : Prop where
  table : v.tables.lamp = some t
  mode : v.mode = s.mode
  escalated : v.lamps.escalated = s.lamps.escalated
  record : v.lamps.recs[n] = s.lamps.recs[n].quieted
  single : s.stack.single → v.stack.single
  dropped : s.stack.single → ∀ e code sev, s.lampEntry n = some e → e.message = some (code, sev) →
    s.lamps.recs[n].riseActive = true → v.stack.dropped ⟨code, .lamp, n.val⟩

theorem AtAdoption.legal {s v : State} {t : LampTable} {n : Fin 40} (h : AtAdoption s t n v) :
    v.legal n = (t.entries[n].used && t.entries[n].legal) := by
  unfold State.legal
  rw [h.table]
  rfl

theorem AtAdoption.lampEntry {s v : State} {t : LampTable} {n : Fin 40} (h : AtAdoption s t n v) :
    v.lampEntry n = usedUnder (some t) n := by
  rw [lampEntry_eq, h.table]

/-- Between the round that ends the messages and the turn of lamp `n` under the new table stand other lamps' turns. -/
theorem lampsAdopted_reach (s : State) (t : LampTable) (len : Nat) (sum : Word) (n : Fin 40) :
    ∃ v w, AtAdoption s t n v ∧ BesideLamp n (State.adoptLamp s.tables.lamp v n) w ∧
      s.lampsAdopted t len sum = w.reported .lamp .done := by
  obtain ⟨u, before, dropped⟩ := allLamps_reach lampTurn_dropRise n s
  have own := lampTurn_dropRise u n
  obtain ⟨v, between, after⟩ := allLamps_reach (lampTurn_adoptLamp s.tables.lamp) n
    ((allLamps.foldl State.dropRise s).install .lamp ⟨.lamp t, len, sum⟩)
  unfold State.lampsAdopted
  refine ⟨v, _, ?_, after, rfl⟩
  clear after
  generalize allLamps.foldl State.dropRise s = ended at *
  constructor
  case table => exact congrArg Tables.lamp between.tables
  case mode => rw [between.mode]; exact dropped.mode.trans (own.mode.trans before.mode)
  case escalated => rw [between.escalated]; exact dropped.escalated.trans (own.escalated.trans before.escalated)
  case record =>
    rw [between.own]
    exact dropped.own.trans ((dropRise_lamp u n).trans (congrArg LampRec.quieted before.own))
  case single => exact fun h => between.single (dropped.single (own.single (before.single h)))
  case dropped =>
    intro h e code sev used message active
    have drops := dropRise_dropped (before.single h) ((lampEntry_congr before.tables n).trans used) message
      (by rw [before.own]; exact active)
    have still := (dropped.spares (own.single (before.single h)) code).dropped drops
    exact (between.spares (dropped.single (own.single (before.single h))) code).dropped still

/-- The record that a lamp takes. -/
theorem lampsAdopted_lamp (s : State) (t : LampTable) (len : Nat) (sum : Word) (n : Fin 40) :
    (s.lampsAdopted t len sum).lamps.recs[n] =
      s.lamps.recs[n].quieted.adopt (s.lampEntry n) (usedUnder (some t) n) := by
  obtain ⟨v, w, adopting, after, same⟩ := lampsAdopted_reach s t len sum n
  rw [same]
  refine after.own.trans ((adoptLamp_lamp _ _ _).trans ?_)
  rw [adopting.record, adopting.lampEntry]
  rfl

/-- The message on rise of a lamp, whose code lies below LAMP FAULT's, has ended. -/
theorem lampsAdopted_dropped {s : State} (t : LampTable) (len : Nat) (sum : Word) {n : Fin 40} {e : LampEntry}
    {code : Nat} {sev : Severity} (h : s.stack.single) (used : s.lampEntry n = some e)
    (message : e.message = some (code, sev)) (low : code < 240) (active : s.lamps.recs[n].riseActive = true) :
    (s.lampsAdopted t len sum).stack.dropped ⟨code, .lamp, n.val⟩ := by
  obtain ⟨v, w, adopting, after, same⟩ := lampsAdopted_reach s t len sum n
  have follows := adoptLamp_follows s.tables.lamp (adopting.single h) n
  have other : (⟨code, .lamp, n.val⟩ : Identity) ≠ msgLampFault n := fun e =>
    absurd (congrArg Identity.code e) (Nat.ne_of_lt (Nat.lt_trans low (Nat.lt_succ_self 240)))
  rw [same]
  exact (after.spares follows.single code).dropped
    ((follows.spares _ other).dropped (adopting.dropped h e code sev used message active))

/-- LAMP FAULT of a lamp is called for under a table and a record. -/
theorem legalFault_iff {b legal : Bool} {r : LampRec} {p : Prop} (h : b = true ↔ p ∧ r.faulty) (hp : legal = true ↔ p) :
    (legal && r.fault.reported) = b := by
  rw [Bool.eq_iff_iff, h, Bool.and_eq_true, hp, reported_iff]

theorem lampsAdopted_lampFault {s : State} (t : LampTable) (len : Nat) (sum : Word) (n : Fin 40) {was now : Bool}
    (hwas : was = true ↔ s.legal n = true ∧ s.lamps.recs[n].faulty)
    (hnow : now = true ↔ t.entries[n].used = true ∧ t.entries[n].legal = true ∧
      (s.lampsAdopted t len sum).lamps.recs[n].faulty) :
    messageFollows s (s.lampsAdopted t len sum) ⟨241, .lamp, n.val⟩
      (if s.lamps.escalated then .red else .amber) was now ∧
    (was = false → now = true → s.lamps.escalated = true → s.mode.mode.chimes = true →
      gongGiven (s.lampsAdopted t len sum)) := by
  obtain ⟨v, w, adopting, after, same⟩ := lampsAdopted_reach s t len sum n
  have before : (legalUnder s.tables.lamp n && v.lamps.recs[n].fault.reported) = was := by
    rw [adopting.record]
    exact legalFault_iff hwas Iff.rfl
  have behind :
      (v.legal n && (v.lamps.recs[n].adopt (usedUnder s.tables.lamp n) (v.lampEntry n)).fault.reported) = now := by
    rw [adopting.record, adopting.lampEntry, ← lampEntry_eq, ← lampsAdopted_lamp s t len sum n]
    exact legalFault_iff (hnow.trans and_assoc.symm) (by rw [adopting.legal, Bool.and_eq_true])
  have severity : v.faultSeverity = if s.lamps.escalated then .red else .amber := by
    unfold State.faultSeverity
    rw [adopting.escalated]
  rw [same]
  refine ⟨fun capacity => ?_, fun uncalled called escalated chimes => ?_⟩
  · have follows := adoptLamp_follows s.tables.lamp (adopting.single (single_of_withinCapacity capacity)) n
    rw [before, behind, severity] at follows
    have spares := after.spares follows.single 241
    exact ⟨fun a b => spares.keeps _ (by simp) (follows.rises a b), fun a b => spares.dropped (follows.falls a b)⟩
  · exact after.gong (adoptLamp_rings s.tables.lamp (adopting.escalated.trans escalated)
      (by rw [adopting.mode]; exact chimes) (before.trans uncalled) (behind.trans called))

/-- Settles O43: each lamp's part in the two rounds, then the record by the lamp's use before and after. -/
theorem lampAdoptionKeepsOrClearsRecords : Obligations.LampAdoptionKeepsOrClearsRecords := by
  intro s n t len sum h hi
  obtain ⟨tables, lamps, frame⟩ := lampsAdopted_frame s t len sum
  obtain ⟨_, xm, engine, _⟩ := (onlyMessages_iff _ _).1 frame
  refine ⟨_, awaits_ends h (exec_lampTableAdoption h hi) engine xm rfl, tables, lamps, frame,
    fun l => ⟨?_, ?_, ?_, ?_, ?_⟩⟩
  · exact fun e code sev used message low active capacity =>
      lampsAdopted_dropped t len sum (single_of_withinCapacity capacity) used message low active
  · exact fun was now => lampsAdopted_lampFault t len sum l
  · intro e before after
    rw [lampsAdopted_lamp, before, usedUnder_some after, adopt_kept]
    rfl
  · intro before after
    rw [lampsAdopted_lamp, before, usedUnder_some after]
    rfl
  · intro after
    rw [lampsAdopted_lamp, usedUnder_none after, adopt_unused]
    rfl

end Sys2Proof.Machine
end

section
/-! The refutation of O54. R72 holds the code of a lamp's message on rise below 240, and the statement asks no such
bound of the LAMP table in use where it speaks of LAMP FAULT. Under a table whose lamp 0 has LAMP FAULT's own code 241 on
rise, the end of the rise clears the LAMP FAULT that the escalation has just posted again. -/

namespace Sys2Proof.Machine

/-- A LAMP entry that demands nothing and posts nothing on rise. -/
def silentEntry : LampEntry := ⟨false, .red, false, false, false, none, .off, .off, .none, none⟩

/-- Lamp 0 is legal with code 241 for its message on rise; lamp 1 is the fault tell-tale. -/
def strayTable : LampTable :=
  ⟨(Vector.replicate 40 silentEntry).set 0
    { silentEntry with used := true, legal := true, message := some (241, .amber) }, 1⟩

/-- A lamp that an overcurrent has turned off for good. -/
def latchedLamp : LampRec := { LampRec.reset with fault := .latchedOff }

/-- Lamps 0 and 1 are LATCHED_OFF, and lamp 0's message on rise is active. -/
def strayLamps : Vector LampRec 40 :=
  ((Vector.replicate 40 LampRec.reset).set 0 { latchedLamp with riseActive := true }).set 1 latchedLamp

/-- The part in RUNNING with that table and those lamps, over an empty stack. -/
def strayState : State :=
  ((State.reset.withMode { State.reset.mode with mode := .running }).withTables
    { State.reset.tables with lamp := some strayTable }).withLamps { Lamps.reset with recs := strayLamps }

/-- What LAMP_EVALUATION leaves of it where the tell-tale is taken first. -/
def strayEvaluated : State := (strayState.lampRound [1] []).judgeRunning

theorem exec_strayState : exec (.lampEvaluation [1] []) strayState = .next strayEvaluated :=
  congrArg Host.Outcome.next (if_neg (by decide))

theorem strayState_withinCapacity : strayState.stack.withinCapacity :=
  ⟨by decide, by decide, by decide, fun e h => absurd h (List.not_mem_nil (a := e))⟩

/-- The escalation has risen with lamp 1's fault, lamp 0 is still LATCHED_OFF, and its LAMP FAULT is held inactive. -/
theorem strayEvaluated_outcome :
    strayEvaluated.lamps.escalated = true ∧ strayEvaluated.lamps.recs[0].fault = .latchedOff ∧
      strayEvaluated.stack = ⟨[⟨msgLampFault 0, .red, .new, false, 1, 0⟩], 1, []⟩ := by decide +kernel

theorem strayEvaluated_not_keeps (sev : Severity) : ¬strayEvaluated.stack.keeps (msgLampFault 0) sev := by
  obtain ⟨_, _, stack⟩ := strayEvaluated_outcome
  rw [Stack.keeps_iff, stack]
  simp [Stack.waits, Stack.status, Stack.find]

/-- Refutes O54: at a change of the escalation LAMP FAULT of lamp 0, legal and LATCHED_OFF before and after, is not kept
(log 38), because its code is also that of the lamp's message on rise, which no hypothesis excludes. -/
theorem not_lampEvaluationFormsDemandsAndOutputs : ¬ Obligations.LampEvaluationFormsDemandsAndOutputs := by
  intro h
  obtain ⟨t, runs, _, _, _, _, _, _, ⟨_, _, faults⟩, _⟩ := h [1] [] strayState (by decide)
  obtain rfl : strayEvaluated = t := Host.Outcome.next.inj (exec_strayState.symm.trans runs)
  obtain ⟨escalated, latched, _⟩ := strayEvaluated_outcome
  obtain ⟨_, _, again⟩ := faults 0 .red (by decide) (by rw [escalated]; rfl)
  obtain ⟨keeps, _⟩ := again (.inr (by decide)) (.inr latched) (by rw [escalated]; decide)
  exact strayEvaluated_not_keeps .red (keeps strayState_withinCapacity)

end Sys2Proof.Machine
end

section
/-! SUPPORT. The hours unit through the events of the other units: which of them leave it as it is, and which leave
its open activities (R101). -/

namespace Sys2Proof.Machine

/-! ## Orders -/

/-- The end of an order leaves the hours unit as the body left it. -/
@[simp] theorem State.closeOrder_hours (r : State × OrderEnd) : (State.closeOrder r).hours = r.1.hours := by
  obtain ⟨s, fin⟩ := r
  cases fin with
  | ended res detail => exact State.finish_hours s res detail
  | holds h => rfl

/-- What holds of the hours unit and what the body of an order leaves of it holds after the order's event. -/
theorem runOrder_hours {P : Hours → Prop} {s : State} {body : State → List Word → State × OrderEnd} (o : Order)
    (before : P s.hours) (after : ∀ args, P (body s args).1.hours) : P (s.runOrder o body).hours := by
  unfold State.runOrder
  split
  · exact before
  · split
    · rw [State.closeOrder_hours]
      exact after _
    · exact before

theorem startBody_hours (s : State) (args : List Word) : (startBody s args).1.hours = s.hours := by
  unfold startBody
  split
  · rfl
  · split
    · unfold done
      dsimp only
      split <;> simp
    · rfl

theorem setAttentionMaskBody_hours (s : State) (args : List Word) :
    (setAttentionMaskBody s args).1.hours = s.hours := by
  unfold setAttentionMaskBody
  dsimp only
  split <;> rfl

theorem copyOutBody_hours (s : State) (args : List Word) : (copyOutBody s args).1.hours = s.hours := by
  unfold copyOutBody
  dsimp only
  split
  · rfl
  · split
    · rfl
    · split <;> rfl

theorem setKFactorBody_hours (s : State) (args : List Word) : (setKFactorBody s args).1.hours = s.hours := by
  unfold setKFactorBody
  dsimp only
  split
  · rfl
  · split <;> rfl

theorem setOdometerBody_hours (s : State) (args : List Word) : (setOdometerBody s args).1.hours = s.hours := by
  unfold setOdometerBody
  split
  · rfl
  · split <;> rfl

theorem lockCalibrationBody_hours (s : State) (args : List Word) : (lockCalibrationBody s args).1.hours = s.hours := by
  unfold lockCalibrationBody
  split
  · rfl
  · split <;> rfl

theorem resetTripBody_hours (s : State) (args : List Word) : (resetTripBody s args).1.hours = s.hours := by
  unfold resetTripBody
  split <;> rfl

theorem postMessageBody_hours (s : State) (args : List Word) : (postMessageBody s args).1.hours = s.hours := by
  unfold postMessageBody State.hostPost
  dsimp only
  repeat' split
  all_goals rfl

theorem clearMessageBody_hours (s : State) (args : List Word) : (clearMessageBody s args).1.hours = s.hours := by
  unfold clearMessageBody
  dsimp only
  split <;> rfl

theorem ackMessageBody_hours (s : State) (args : List Word) : (ackMessageBody s args).1.hours = s.hours := by
  unfold ackMessageBody
  dsimp only
  split
  · rfl
  · split <;> rfl

theorem selectPageBody_hours (s : State) (args : List Word) : (selectPageBody s args).1.hours = s.hours := by
  unfold selectPageBody
  dsimp only
  split <;> rfl

@[simp] theorem State.writeWords_hours (s : State) (a : Nat) (ws : List Word) :
    (s.writeWords a ws).hours = s.hours := by
  induction ws generalizing s a with
  | nil => rfl
  | cons w ws ih => exact (ih _ _).trans (State.writeXm_hours s a w)

theorem takeKeysBody_hours (s : State) (args : List Word) : (takeKeysBody s args).1.hours = s.hours := by
  unfold takeKeysBody
  dsimp only
  split
  · rfl
  · exact State.writeWords_hours _ _ _

theorem testLampsBody_hours (s : State) (args : List Word) : (testLampsBody s args).1.hours = s.hours := by
  unfold testLampsBody
  dsimp only
  split
  · rfl
  · split <;> rfl

theorem loadTableBody_hours (s : State) (args : List Word) : (loadTableBody s args).1.hours = s.hours := by
  unfold loadTableBody State.takeImage
  dsimp only
  repeat' split
  all_goals rfl

/-! ## Adoptions -/

@[simp] theorem State.install_hours (s : State) (k : TableKind) (i : Incoming) : (s.install k i).hours = s.hours := rfl

@[simp] theorem State.endLoad_hours (s : State) (k : TableKind) (r : Result) : (s.endLoad k r).hours = s.hours := by
  simp [State.endLoad]

@[simp] theorem State.adoptSlot_hours (t : SlotsTable) (s : State) (i : Fin 64) :
    (State.adoptSlot t s i).hours = s.hours :=
  State.changeSlot_hours _ _ _ _

@[simp] theorem State.adoptChannel_hours (old : Option GaugeTable) (t : GaugeTable) (s : State) (c : Fin 8) :
    (State.adoptChannel old t s c).hours = s.hours := by
  unfold State.adoptChannel State.idleChannel State.enableChannel State.keepChannel State.rejudgeChannel
  dsimp only
  repeat' split
  all_goals simp

@[simp] theorem State.rearm_hours (s : State) : s.rearm.hours = s.hours := by
  unfold State.rearm
  split <;> simp

@[simp] theorem State.adoptLamp_hours (old : Option LampTable) (s : State) (n : Fin 40) :
    (State.adoptLamp old s n).hours = s.hours := by
  simp [State.adoptLamp]

@[simp] theorem State.adoptHeartbeat_hours (s : State) : s.adoptHeartbeat.hours = s.hours := rfl

/-- A round over the channels leaves the hours unit when each turn does. -/
theorem State.forChannels_hours {f : State → Fin 8 → State} (turn : ∀ s c, (f s c).hours = s.hours) (s : State) :
    (s.forChannels f).hours = s.hours :=
  foldl_keeps f State.hours turn allChannels s

theorem State.adoptGauges_hours (s : State) (t : GaugeTable) (i : Incoming) : (s.adoptGauges t i).hours = s.hours := by
  unfold State.adoptGauges
  dsimp only
  rw [State.judgeDormant_hours, State.judgeRunning_hours, State.endLoad_hours, State.rearm_hours,
    State.forChannels_hours (State.adoptChannel_hours _ t), State.install_hours, State.forChannels_disarm_hours]

theorem slotsAdopted_hours (s : State) (t : SlotsTable) :
    (allSlots.foldl (State.adoptSlot t) s).hours = s.hours :=
  foldl_keeps _ State.hours (State.adoptSlot_hours t) allSlots s

theorem lampsAdopted_hours (s : State) (old : Option LampTable) :
    (allLamps.foldl (State.adoptLamp old) s).hours = s.hours :=
  foldl_keeps _ State.hours (State.adoptLamp_hours old) allLamps s

/-! ## The odometer store -/

@[simp] theorem State.failStore_hours (s : State) : s.failStore.hours = s.hours := by
  unfold State.failStore
  dsimp only
  split <;> simp

@[simp] theorem State.odometerSet_hours (s : State) (v units : Nat) : (s.odometerSet v units).hours = s.hours := by
  unfold State.odometerSet
  dsimp only
  split <;> simp

@[simp] theorem State.endCommit_hours (s : State) (fixed : Option Nat) (units : Nat) (ok : Bool) :
    (s.endCommit fixed units ok).hours = s.hours := by
  unfold State.endCommit
  split
  · simp
  · split <;> simp

@[simp] theorem State.commitSignals_hours (s : State) (ok : Bool) : (s.commitSignals ok).hours = s.hours := by
  unfold State.commitSignals
  split
  · split <;> simp
  · simp

@[simp] theorem State.commitVerified_hours (s : State) (fixed : Option Nat) (value units : Nat) (ok : Bool) :
    (s.commitVerified fixed value units ok).hours = s.hours := by
  unfold State.commitVerified
  dsimp only
  split
  · simp
  · split <;> simp

@[simp] theorem State.firstK_hours (s : State) (k : Nat) : (s.firstK k).hours = s.hours :=
  (State.forChannels_hours (fun s c => State.sourceEvent_hours _ _ _ _ s c) _).trans
    (State.addUnits_hours _ (100 * s.speed.pulses / k))

@[simp] theorem State.calibrated_hours (s : State) (purpose : CalPurpose) (r : CalRecord) :
    (s.calibrated purpose r).hours = s.hours := by
  unfold State.calibrated
  cases purpose with
  | setK =>
    dsimp only
    rw [State.raise_hours]
    split <;> simp
  | lock | setOdometer => rfl

@[simp] theorem State.calibrationFailed_hours (s : State) : s.calibrationFailed.hours = s.hours := by
  simp [State.calibrationFailed]

/-! ## The intake -/

@[simp] theorem State.evaluateHeartbeat_hours (s : State) (accepted : Bool) :
    (s.evaluateHeartbeat accepted).hours = s.hours :=
  State.setHeartbeat_hours _ _

@[simp] theorem State.evaluateDataFault_hours (s : State) : s.evaluateDataFault.hours = s.hours := rfl

theorem State.readSlot_hours (mid : List MidAccess) (s : State) (i : Fin 64) :
    (s.readSlot mid i).1.hours = s.hours := by
  unfold State.readSlot
  dsimp only
  split
  · simp
  · split <;> simp

theorem State.scanSlot_hours (mid : List MidAccess) (s : State) (i : Fin 64) :
    (State.scanSlot mid s i).hours = s.hours := by
  unfold State.scanSlot
  dsimp only
  split <;> simp [State.readSlot_hours]

theorem State.scan_hours (s : State) (mid : List MidAccess) : (s.scan mid).hours = s.hours :=
  (State.evaluateDataFault_hours _).trans <|
    foldl_keeps _ State.hours (State.scanSlot_hours mid) allSlots s

/-! ## Speed -/

@[simp] theorem State.countPulse_hours (s : State) : s.countPulse.hours = s.hours := by
  unfold State.countPulse State.countEdge
  split
  · dsimp only
    split <;> simp
  · simp

@[simp] theorem State.speedEdge_hours (s : State) : s.speedEdge.hours = s.hours := by
  unfold State.speedEdge
  split <;> simp

theorem State.windowShown_hours (s : State) : s.windowShown.hours = s.hours :=
  State.forChannels_hours (fun s c => by unfold State.speedReading; split <;> simp) _

/-! ## Mode and lamps -/

theorem State.enterParking_hours (s : State) : s.enterParking.hours = s.hours := by
  unfold State.enterParking
  dsimp only
  rw [State.judgeDormant_hours, State.withStore_hours, State.stopChime_hours, State.dropRises_hours,
    State.withLamps_hours, State.forChannels_disarm_hours, State.forChannels_parkChannel_hours, State.setMode_hours]
  split <;> simp

@[simp] theorem State.ignitionOn_hours (s : State) : s.ignitionOn.hours = s.hours := by
  unfold State.ignitionOn
  split <;> simp

@[simp] theorem State.ignitionOff_hours (s : State) : s.ignitionOff.hours = s.hours := by
  unfold State.ignitionOff
  split
  · exact State.enterParking_hours _
  · exact State.enterParking_hours _
  · exact State.enterParking_hours _
  all_goals rfl

theorem State.lampRound_hours (s : State) (order opens : List (Fin 40)) :
    (s.lampRound order opens).hours = s.hours :=
  foldl_keeps _ State.hours (State.evaluateLamp_hours opens) _ s

/-! ## Keys -/

@[simp] theorem State.clearPageTrip_hours (s : State) : s.clearPageTrip.hours = s.hours := by
  unfold State.clearPageTrip
  split <;> rfl

@[simp] theorem State.pageKey_hours (s : State) (k : Key) (long : Bool) : (s.pageKey k long).hours = s.hours := by
  unfold State.pageKey
  split
  · simp
  · simp
  · split <;> simp
  all_goals simp

@[simp] theorem State.indexKey_hours (s : State) (k : Key) (long : Bool) : (s.indexKey k long).hours = s.hours := by
  unfold State.indexKey
  split <;> simp

@[simp] theorem State.keyAction_hours (s : State) (k : Key) (long : Bool) : (s.keyAction k long).hours = s.hours := by
  unfold State.keyAction
  split
  · split <;> simp
  · split <;> simp
  all_goals rfl

@[simp] theorem State.keyEvent_hours (s : State) (k : Key) (long : Bool) : (s.keyEvent k long).hours = s.hours := by
  unfold State.keyEvent
  dsimp only
  repeat' split
  all_goals simp

@[simp] theorem State.acceptRelease_hours (s : State) (k : Key) : (s.acceptRelease k).hours = s.hours := by
  unfold State.acceptRelease
  dsimp only
  split
  · split <;> simp
  · rfl

@[simp] theorem State.giveLong_hours (s : State) (k : Key) : (s.giveLong k).hours = s.hours := by
  unfold State.giveLong
  dsimp only
  split <;> simp

/-! ## The report pass and the end of INITIAL -/

theorem State.writePass_hours (mid : List MidAccess) (ws : List Word) (n : Nat) (s : State) :
    (State.writePass mid n ws s).hours = s.hours := by
  induction ws generalizing n s with
  | nil => rfl
  | cons w ws ih =>
    rw [State.writePass, ih]
    simp

@[simp] theorem State.reportPass_hours (s : State) (mid : List MidAccess) : (s.reportPass mid).hours = s.hours :=
  State.writePass_hours mid _ 0 _

@[simp] theorem State.postConditions_hours (s : State) : s.postConditions.hours = s.hours := by
  unfold State.postConditions
  dsimp only
  repeat' split
  all_goals simp

end Sys2Proof.Machine
end

section
/-! SUPPORT and the settling of O6. The records of the hours unit and their open activities (R101, R105): which
commands open or close one, and that two slots never drive. -/

namespace Sys2Proof.Machine

/-! ## Driver records -/

@[simp] theorem withDriver_driver (h : Hours) (slot : DriverSlot) (d : Driver) :
    (h.withDriver slot d).driver slot = d := by cases slot <;> rfl

@[simp] theorem withDriver_driver_other (h : Hours) (slot : DriverSlot) (d : Driver) :
    (h.withDriver slot d).driver slot.other = h.driver slot.other := by cases slot <;> rfl

@[simp] theorem withDriver_other_driver (h : Hours) (slot : DriverSlot) (d : Driver) :
    (h.withDriver slot.other d).driver slot = h.driver slot := by cases slot <;> rfl

@[simp] theorem advance_driver (h : Hours) (t : Nat) (slot : DriverSlot) :
    (h.advance t).driver slot = h.driver slot := by
  unfold Hours.advance
  split <;> cases slot <;> rfl

@[simp] theorem evaluated_driver (h : Hours) (rules : Option RulesTable) (moving : Bool) (slot : DriverSlot) :
    (h.evaluated rules moving).driver slot = (h.driver slot).evaluated rules h.clock := by cases slot <;> rfl

/-- An accepted order leaves the given records, evaluated. -/
theorem acceptHours_driver (s : State) (h : Hours) (t : Nat) (slot : DriverSlot) :
    (s.acceptHours h t).hours.driver slot =
      (h.driver slot).evaluated s.tables.rules (s.acceptHours h t).hours.clock := by
  rw [State.acceptHours, State.evaluateHours_hours, evaluated_driver, State.withHours_hours, advance_driver]
  rfl

/-! ## Open activities -/

/-- What each driver slot has open. -/
def Hours.activities (h : Hours) (slot : DriverSlot) : Option OpenActivity := (h.driver slot).activity

/-- An evaluation opens and closes nothing (R110). -/
@[simp] theorem evaluated_activities (h : Hours) (rules : Option RulesTable) (moving : Bool) :
    (h.evaluated rules moving).activities = h.activities := by
  funext slot
  cases slot <;> rfl

theorem evaluateHours_activities (s : State) : s.evaluateHours.hours.activities = s.hours.activities := by simp

/-- The time base opens and closes nothing. -/
@[simp] theorem elapse_activities (us : Nat) (s : State) : (s.elapse us).hours.activities = s.hours.activities := by
  funext slot
  cases slot <;> rfl

/-- A HARD reset leaves what is open (R119). -/
@[simp] theorem hardReset_activities (h : Hours) : h.hardReset.activities = h.activities := by
  funext slot
  cases slot <;> rfl

theorem speedWindow_activities (s : State) : s.speedWindow.hours.activities = s.hours.activities := by
  rw [speedWindow_eq]
  split
  · rw [evaluateHours_activities, State.windowShown_hours]
  · rw [State.windowShown_hours]

theorem minuteDue_activities (s : State) : s.minuteDue.hours.activities = s.hours.activities := by
  have kept : ∀ h : Hours, h.driver1 = s.hours.driver1 → h.driver2 = s.hours.driver2 →
      h.activities = s.hours.activities := fun h one two => by
    funext slot
    cases slot
    · exact congrArg Driver.activity one
    · exact congrArg Driver.activity two
  unfold State.minuteDue
  dsimp only
  split
  · split
    · exact kept _ rfl rfl
    · rw [evaluateHours_activities]
      exact kept _ rfl rfl
  · exact kept _ rfl rfl

theorem setTimeBody_activities (s : State) (args : List Word) :
    (setTimeBody s args).1.hours.activities = s.hours.activities := by
  unfold setTimeBody
  dsimp only
  split
  · rfl
  · refine (evaluateHours_activities _).trans ?_
    funext slot
    cases slot <;> rfl

theorem leaveInitial_activities (s : State) : s.leaveInitial.hours.activities = s.hours.activities := by
  unfold State.leaveInitial
  dsimp only
  rw [State.refreshPanel_hours, evaluateHours_activities, State.postConditions_hours]
  rfl

/-- A command answers a next state with the same open activities. -/
def KeepsActivities (c : Instr) : Prop :=
  ∀ s, ∃ t, exec c s = .next t ∧ t.hours.activities = s.hours.activities

namespace KeepsActivities
variable {c : Instr} {f : State → State}

theorem of_activities (runs : ∀ s, exec c s = .next (f s))
    (keeps : ∀ s, (f s).hours.activities = s.hours.activities) : KeepsActivities c :=
  fun s => ⟨f s, runs s, keeps s⟩

theorem of_hours (runs : ∀ s, exec c s = .next (f s)) (keeps : ∀ s, (f s).hours = s.hours) : KeepsActivities c :=
  of_activities runs fun s => by rw [keeps]

/-- An order whose body leaves the hours unit as it is. -/
theorem of_order {o : Order} {body : State → List Word → State × OrderEnd}
    (runs : ∀ s, exec c s = .next (s.runOrder o body)) (keeps : ∀ s args, (body s args).1.hours = s.hours) :
    KeepsActivities c :=
  of_hours runs fun s => runOrder_hours (P := fun h => h = s.hours) o rfl (keeps s)

end KeepsActivities

open KeepsActivities

/-! ### Commands whose event falls on one of several states -/

theorem endOrder_keepsActivities : KeepsActivities .endOrder :=
  of_hours (fun _ => rfl) fun s => by split <;> simp

theorem slotsTableAdoption_keepsActivities : KeepsActivities .slotsTableAdoption :=
  of_hours (fun _ => rfl) fun s => by split <;> simp [slotsAdopted_hours]

theorem gaugeTableAdoption_keepsActivities : KeepsActivities .gaugeTableAdoption :=
  of_hours (fun _ => rfl) fun s => by
    split
    · split <;> simp [State.adoptGauges_hours]
    · rfl

theorem lampTableAdoption_keepsActivities : KeepsActivities .lampTableAdoption :=
  of_hours (fun _ => rfl) fun s => by split <;> simp [lampsAdopted_hours]

theorem panelTableAdoption_keepsActivities : KeepsActivities .panelTableAdoption :=
  of_hours (fun _ => rfl) fun s => by split <;> simp

theorem glyphTableAdoption_keepsActivities : KeepsActivities .glyphTableAdoption :=
  of_hours (fun _ => rfl) fun s => by split <;> simp

/-- The adoption of RULES makes an evaluation (R100). -/
theorem rulesTableAdoption_keepsActivities : KeepsActivities .rulesTableAdoption :=
  of_activities (fun _ => rfl) fun s => by
    split
    · rw [State.endLoad_hours, evaluateHours_activities, State.install_hours]
    · rfl

theorem copyOutSnapshot_keepsActivities : KeepsActivities .copyOutSnapshot :=
  of_hours (fun _ => rfl) fun s => by split <;> simp

theorem sectorEraseDone_keepsActivities : KeepsActivities .sectorEraseDone :=
  of_hours (fun _ => rfl) fun s => by split <;> simp

theorem commitVerifyDone_keepsActivities (ok : Bool) : KeepsActivities (.commitVerifyDone ok) :=
  of_hours (fun _ => rfl) fun s => by split <;> simp

theorem calibrationWriteDone_keepsActivities (ok : Bool) : KeepsActivities (.calibrationWriteDone ok) :=
  of_hours (fun _ => rfl) fun s => by
    split
    · split
      · simp
      · split <;> simp
    all_goals rfl

theorem restoreDone_keepsActivities (ok : Bool) : KeepsActivities (.restoreDone ok) :=
  of_hours (fun _ => rfl) fun s => by
    split
    · rw [State.judgeDormant_hours]
      split <;> simp
    all_goals rfl

theorem homingEnd_keepsActivities (c : Fin 8) : KeepsActivities (.homingEnd c) :=
  of_hours (fun _ => rfl) fun s => by
    split
    · rfl
    · split <;> simp

theorem holdTimeExpired_keepsActivities (c : Fin 8) : KeepsActivities (.holdTimeExpired c) :=
  of_hours (fun _ => rfl) fun s => by
    split
    · rfl
    · split <;> simp

theorem gaugeUpdate_keepsActivities (order : List (Fin 8)) : KeepsActivities (.gaugeUpdate order) :=
  of_hours (fun _ => rfl) fun s => by
    split
    · rfl
    · rw [State.judgeDormant_hours, State.judgeRunning_hours]
      exact foldl_keeps _ State.hours State.updateChannel_hours _ s

theorem speedWindow_keepsActivities (us : Nat) : KeepsActivities (.speedWindow us) :=
  of_activities (fun _ => rfl) fun s => by split <;> simp [speedWindow_activities]

/-! ### All commands -/

/-- The commands that open or close an activity: the orders of R104, R106 and R107, and the reset that empties the
records. -/
def setsActivity : Instr → Bool
  | .powerOnReset _ _ | .cardIn | .cardOut | .activity => true
  | _ => false

/-- Every other command leaves what is open. -/
theorem keepsActivities_of_not_setsActivity {c : Instr} (h : setsActivity c = false) : KeepsActivities c := by
  cases c with
  | powerOnReset | cardIn | cardOut | activity => exact nomatch h
  | hardReset spoiled written =>
    exact of_activities (fun _ => rfl) fun s => hardReset_activities s.hours
  | resetCauseEnd =>
    exact of_activities (fun _ => rfl) fun s => by
      split
      · exact hardReset_activities s.hours
      · rfl
  | initialEnd mid => exact of_activities (fun _ => rfl) fun s => by split <;> simp [leaveInitial_activities]
  | wctlWrite | wadrWrite | wdatRead | wdatWrite | causeWrite | handOver | withdraw =>
    exact of_hours (fun _ => rfl) fun s => State.access_hours s _
  | registerWriteOther => exact of_hours (fun _ => rfl) fun _ => rfl
  | endOrder => exact endOrder_keepsActivities
  | loadTable => exact of_order (fun _ => rfl) loadTableBody_hours
  | slotsTableAdoption => exact slotsTableAdoption_keepsActivities
  | gaugeTableAdoption => exact gaugeTableAdoption_keepsActivities
  | lampTableAdoption => exact lampTableAdoption_keepsActivities
  | panelTableAdoption => exact panelTableAdoption_keepsActivities
  | glyphTableAdoption => exact glyphTableAdoption_keepsActivities
  | rulesTableAdoption => exact rulesTableAdoption_keepsActivities
  | start => exact of_order (fun _ => rfl) startBody_hours
  | setAttentionMask => exact of_order (fun _ => rfl) setAttentionMaskBody_hours
  | copyOut => exact of_order (fun _ => rfl) copyOutBody_hours
  | copyOutSnapshot => exact copyOutSnapshot_keepsActivities
  | setTime => exact of_activities (fun _ => rfl) fun s =>
      runOrder_hours (P := fun h => h.activities = s.hours.activities) .setTime rfl (setTimeBody_activities s)
  | setKFactor => exact of_order (fun _ => rfl) setKFactorBody_hours
  | setOdometer => exact of_order (fun _ => rfl) setOdometerBody_hours
  | lockCalibration => exact of_order (fun _ => rfl) lockCalibrationBody_hours
  | resetTrip => exact of_order (fun _ => rfl) resetTripBody_hours
  | postMessage => exact of_order (fun _ => rfl) postMessageBody_hours
  | clearMessage => exact of_order (fun _ => rfl) clearMessageBody_hours
  | ackMessage => exact of_order (fun _ => rfl) ackMessageBody_hours
  | selectPage => exact of_order (fun _ => rfl) selectPageBody_hours
  | takeKeys => exact of_order (fun _ => rfl) takeKeysBody_hours
  | testLamps => exact of_order (fun _ => rfl) testLampsBody_hours
  | sectorEraseDone => exact sectorEraseDone_keepsActivities
  | commitVerifyDone ok => exact commitVerifyDone_keepsActivities ok
  | calibrationWriteDone ok => exact calibrationWriteDone_keepsActivities ok
  | restoreDone ok => exact restoreDone_keepsActivities ok
  | speedEdge us => exact of_activities (fun _ => rfl) fun s => by simp
  | speedWindow us => exact speedWindow_keepsActivities us
  | movingSet => exact of_activities (fun _ => rfl) fun s => by split <;> simp
  | intakeScan mid => exact of_hours (fun _ => rfl) fun s => by split <;> simp [State.scan_hours]
  | slotStale | heartbeatLost => exact of_hours (fun _ => rfl) fun s => by split <;> simp
  | gaugeUpdate order => exact gaugeUpdate_keepsActivities order
  | homingEnd channel => exact homingEnd_keepsActivities channel
  | holdTimeExpired channel => exact holdTimeExpired_keepsActivities channel
  | lampEvaluation => exact of_hours (fun _ => rfl) fun s => by split <;> simp [State.lampRound_hours]
  | overcurrent | bulbCheckOver | lampTestEnd | flashEdge =>
    exact of_hours (fun _ => rfl) fun s => by split <;> simp
  | shortWaitEnd => exact of_hours (fun _ => rfl) fun s => by dsimp only; split <;> simp
  | singleEnd | clickEnd | continuousToneEdge => exact of_hours (fun _ => rfl) fun s => by split <;> simp
  | minuteDue => exact of_activities (fun _ => rfl) fun s => by split <;> simp [minuteDue_activities]
  | stackTick | shownTimeExpired | panelRefresh =>
    exact of_hours (fun _ => rfl) fun s => by split <;> simp
  | keyInput => exact of_hours (fun _ => rfl) fun s => by simp
  | acceptedPress => exact of_hours (fun _ => rfl) fun s => by dsimp only; split <;> simp
  | acceptedRelease | longKeyEvent => exact of_activities (fun _ => rfl) fun s => by simp
  | reportRefresh => exact of_hours (fun _ => rfl) fun s => by split <;> simp
  | ignInput => exact of_hours (fun _ => rfl) fun _ => rfl
  | ignitionOnEvent | ignitionOffEvent => exact of_hours (fun _ => rfl) fun s => by split <;> simp

/-! ## Who drives (R105) -/

theorem drives_congr {d d' : Driver} (h : d'.activity = d.activity) : d'.drives = d.drives := by
  unfold Driver.drives
  rw [h]

/-- Which slots drive is a matter of the open activities. -/
theorem driver_drives_congr {h h' : Hours} (same : h'.activities = h.activities) (slot : DriverSlot) :
    (h'.driver slot).drives = (h.driver slot).drives :=
  drives_congr (congrFun same slot)

theorem oneDrives_iff (h : Hours) (slot : DriverSlot) :
    h.oneDrives ↔ ¬((h.driver slot).drives = true ∧ (h.driver slot.other).drives = true) := by
  cases slot
  · rfl
  · exact not_congr and_comm

/-- Where one slot does not drive, at most one drives. -/
theorem oneDrives_of_idle {h : Hours} {slot : DriverSlot} (idle : (h.driver slot).drives = false) : h.oneDrives := by
  rw [oneDrives_iff h slot, idle]
  simp

theorem oneDrives_congr {h h' : Hours} (same : h'.activities = h.activities) : h'.oneDrives ↔ h.oneDrives := by
  rw [oneDrives_iff h' .one, oneDrives_iff h .one, driver_drives_congr same, driver_drives_congr same]

theorem acceptHours_oneDrives (s : State) (h : Hours) (t : Nat) :
    (s.acceptHours h t).hours.oneDrives ↔ h.oneDrives := by
  refine oneDrives_congr (funext fun slot => ?_)
  unfold Hours.activities
  rw [acceptHours_driver]
  rfl

/-- An activity that is not DRIVE does not drive. -/
theorem drives_of_kind {d : Driver} {o : OpenActivity} (h : d.activity = some o) (kind : o.kind ≠ .drive) :
    d.drives = false :=
  Bool.eq_false_iff.2 fun drives => kind ((drives_iff h).1 drives)

theorem drives_of_closed {d : Driver} (h : d.activity = none) : d.drives = false := by
  unfold Driver.drives
  rw [h]
  rfl

theorem cardIn_activity (d : Driver) (rules : Option RulesTable) (card t : Nat) :
    (d.cardIn rules card t).activity = some ⟨.unknown, t⟩ := by
  unfold Driver.cardIn
  split <;> rfl

/-- A record that has one slot not driving, accepted, leaves at most one slot driving. -/
theorem acceptHours_withDriver_oneDrives (s : State) (slot : DriverSlot) {d : Driver} (idle : d.drives = false)
    (t : Nat) : (s.acceptHours (s.hours.withDriver slot d) t).hours.oneDrives :=
  (acceptHours_oneDrives _ _ _).2 (oneDrives_of_idle (slot := slot) (by rwa [withDriver_driver]))

/-- What the checks common to the orders of driver hours leave to the order (R103). -/
theorem hoursOrder_keeps {P : State → Prop} {s : State} {body : DriverSlot → State × OrderEnd} (slot : Nat)
    (before : P s) (after : ∀ d, P (body d).1) : P (hoursOrder s slot body).1 := by
  unfold hoursOrder
  split
  · split
    · exact before
    · exact after _
  · exact before

/-- A CARD IN opens UNKNOWN in its slot. -/
theorem cardInBody_oneDrives {s : State} (one : s.hours.oneDrives) (args : List Word) :
    (cardInBody s args).1.hours.oneDrives := by
  refine hoursOrder_keeps (P := fun s => s.hours.oneDrives) _ one fun slot => ?_
  dsimp only
  split_ifs with occupied twin early
  · exact one
  · exact one
  · exact one
  · exact acceptHours_withDriver_oneDrives s slot (drives_of_kind (cardIn_activity _ _ _ _) (by simp)) _

/-- A CARD OUT leaves nothing open in its slot. -/
theorem cardOutBody_oneDrives {s : State} (one : s.hours.oneDrives) (args : List Word) :
    (cardOutBody s args).1.hours.oneDrives := by
  refine hoursOrder_keeps (P := fun s => s.hours.oneDrives) _ one fun slot => ?_
  dsimp only
  split
  · exact one
  · split_ifs with early
    · exact one
    · exact acceptHours_withDriver_oneDrives s slot (drives_of_closed rfl) _

/-- A crew swap leaves the other slot AVAILABLE. -/
theorem crewSwap_oneDrives (s : State) (slot : DriverSlot) (t : Nat) : (s.crewSwap slot t).hours.oneDrives := by
  refine (acceptHours_oneDrives _ _ _).2 (oneDrives_of_idle (slot := slot.other) ?_)
  rw [withDriver_driver]
  exact drives_of_kind rfl (by simp)

/-- A change that is no crew swap opens DRIVE only where the other slot does not drive. -/
theorem switch_oneDrives (s : State) {slot : DriverSlot} {kind : Activity}
    (alone : ¬(kind = .drive ∧ (s.hours.driver slot.other).drives = true)) (t : Nat) :
    (s.acceptHours
      (s.hours.withDriver slot ((s.hours.driver slot).switch s.tables.rules kind t)) t).hours.oneDrives := by
  by_cases drive : kind = .drive
  · have other : (s.hours.driver slot.other).drives = false :=
      Bool.eq_false_iff.2 fun drives => alone ⟨drive, drives⟩
    refine (acceptHours_oneDrives _ _ _).2 (oneDrives_of_idle (slot := slot.other) ?_)
    rwa [withDriver_driver_other]
  · exact acceptHours_withDriver_oneDrives s slot (drives_of_kind rfl drive) _

/-- An ACTIVITY changes one slot where the other lets it, or swaps the crew. -/
theorem activityBody_oneDrives {s : State} (one : s.hours.oneDrives) (args : List Word) :
    (activityBody s args).1.hours.oneDrives := by
  refine hoursOrder_keeps (P := fun s => s.hours.oneDrives) _ one fun slot => ?_
  dsimp only
  split
  · exact one
  · exact one
  · split
    · exact one
    · split_ifs with early again swap late
      · exact one
      · exact one
      · exact one
      · exact crewSwap_oneDrives s slot _
      · exact switch_oneDrives s swap _

theorem exec_keeps_oneDrives (c : Instr) {s : State} (one : s.hours.oneDrives) :
    ∃ t, exec c s = .next t ∧ t.hours.oneDrives := by
  cases sets : setsActivity c with
  | false =>
    obtain ⟨t, runs, same⟩ := keepsActivities_of_not_setsActivity sets s
    exact ⟨t, runs, (oneDrives_congr same).2 one⟩
  | true =>
    cases c with
    | powerOnReset => exact ⟨_, rfl, oneDrives_of_idle (slot := .one) (drives_of_closed rfl)⟩
    | cardIn => exact ⟨_, rfl, runOrder_hours .cardIn one (cardInBody_oneDrives one)⟩
    | cardOut => exact ⟨_, rfl, runOrder_hours .cardOut one (cardOutBody_oneDrives one)⟩
    | activity => exact ⟨_, rfl, runOrder_hours .activity one (activityBody_oneDrives one)⟩
    | _ => exact nomatch sets

/-- Settles O6: of the commands that set an activity none leaves both slots driving, and the others and the time base
leave what is open. -/
theorem stepKeepsOneDriverDriving : Obligations.StepKeepsOneDriverDriving := by
  intro s t one runs
  unfold step at runs
  split at runs
  · obtain rfl := Host.Outcome.next.inj runs
    exact (oneDrives_congr (elapse_activities idleTime s)).2 one
  · rename_i c rest _
    obtain ⟨u, next, kept⟩ := exec_keeps_oneDrives c (s := s.withPending rest) one
    obtain rfl := Host.Outcome.next.inj (runs.symm.trans next)
    exact kept

end Sys2Proof.Machine
end

section
/-! SUPPORT. The orders of driver hours (R96, R97, R102 to R109): what closing an activity counts, and what an accepted
order leaves of the hours unit. -/

namespace Sys2Proof.Machine

/-! ## Closing an activity (R102, R108, R109) -/

/-- A closed REST moves the counters and the break stage alone. -/
theorem rested_eq (d : Driver) (rules : Option RulesTable) (len : Nat) :
    d.rested rules len = { d with
      cd := (d.rested rules len).cd, dd := (d.rested rules len).dd
      firstTaken := (d.rested rules len).firstTaken } := by
  unfold Driver.rested
  repeat' split
  all_goals rfl

theorem account_eq (d : Driver) (rules : Option RulesTable) (kind : Activity) (len : Nat) :
    d.account rules kind len = { d with
      cd := (d.account rules kind len).cd, dd := (d.account rules kind len).dd
      firstTaken := (d.account rules kind len).firstTaken } := by
  cases kind with
  | drive | work | available | unknown => rfl
  | rest => exact rested_eq d rules len

/-- Closing an activity moves the counters, the break stage and the history alone. -/
theorem close_eq (d : Driver) (rules : Option RulesTable) (kind : Activity) (start t : Nat) :
    d.close rules kind start t = { d with
      cd := (d.close rules kind start t).cd, dd := (d.close rules kind start t).dd
      firstTaken := (d.close rules kind start t).firstTaken, history := (d.close rules kind start t).history } := by
  unfold Driver.close
  split
  · rfl
  · generalize d.history = old
    rw [account_eq]

theorem close_card (d : Driver) (rules : Option RulesTable) (kind : Activity) (start t : Nat) :
    (d.close rules kind start t).card = d.card := by rw [close_eq]

theorem close_alerts (d : Driver) (rules : Option RulesTable) (kind : Activity) (start t : Nat) :
    (d.close rules kind start t).alerts = d.alerts := by rw [close_eq]

theorem rested_restCounted (d : Driver) (rules : Option RulesTable) (len : Nat) :
    restCounted d (d.rested rules len) rules len := by
  cases rules with
  | none => exact ⟨rfl, rfl, rfl⟩
  | some r =>
    unfold restCounted Driver.rested
    dsimp only
    by_cases daily : r.dailyRest ≤ len
    · simp [daily]
    · by_cases full : r.breakFull ≤ len
      · simp [daily, full]
      · cases first : d.firstTaken with
        | false => by_cases part : r.splitFirst ≤ len <;> simp [daily, full, first, part]
        | true => by_cases part : r.splitSecond ≤ len <;> simp [daily, full, first, part]

theorem appendHistory_eq (h : List HistoryEntry) (e : HistoryEntry) :
    appendHistory h e = (if h.length < 32 then h else h.drop 1) ++ [e] := by
  unfold appendHistory
  split <;> rfl

/-- The record after an activity has closed is as the statements say. -/
theorem close_closedInto (d : Driver) (rules : Option RulesTable) (kind : Activity) (start t : Nat) :
    closedInto d (d.close rules kind start t) rules kind start t := by
  refine ⟨fun early => ?_, fun late => ?_⟩
  · have same : d.close rules kind start t = d := if_pos (Nat.sub_eq_zero_of_le early)
    rw [same]
    exact ⟨rfl, rfl, rfl, rfl⟩
  · have closes : d.close rules kind start t =
        ({ d with history := appendHistory d.history ⟨kind, start, min (t - start) 8191⟩ }).account rules kind
          (t - start) := if_neg (by omega)
    rw [closes]
    refine ⟨?_, ?_⟩
    · rw [account_eq]
      exact appendHistory_eq _ _
    · cases kind with
      | drive | work | available | unknown => exact ⟨rfl, rfl, rfl⟩
      | rest => exact rested_restCounted { d with history := _ } rules (t - start)

theorem closeOpen_of_open {d : Driver} {o : OpenActivity} (h : d.activity = some o) (rules : Option RulesTable)
    (t : Nat) : d.closeOpen rules t = d.close rules o.kind o.start t := by
  unfold Driver.closeOpen
  rw [h]

theorem closeOpen_card (d : Driver) (rules : Option RulesTable) (t : Nat) : (d.closeOpen rules t).card = d.card := by
  unfold Driver.closeOpen
  split
  · rfl
  · exact close_card _ _ _ _ _

theorem closeOpen_alerts (d : Driver) (rules : Option RulesTable) (t : Nat) :
    (d.closeOpen rules t).alerts = d.alerts := by
  unfold Driver.closeOpen
  split
  · rfl
  · exact close_alerts _ _ _ _ _

theorem closeOpen_closedInto {d : Driver} {o : OpenActivity} (h : d.activity = some o) (rules : Option RulesTable)
    (t : Nat) : closedInto d (d.closeOpen rules t) rules o.kind o.start t := by
  rw [closeOpen_of_open h]
  exact close_closedInto d rules o.kind o.start t

/-! ## An accepted order -/

theorem evaluated_sameRecord (d : Driver) (rules : Option RulesTable) (clock : Nat) :
    sameRecord d (d.evaluated rules clock) := rfl

/-- An evaluation of other records with the same alerts settles the hours unit. -/
theorem evaluateHours_settled {s : State} {h : Hours} (same : SameAlerts s (s.withHours h)) :
    hoursSettled s (s.withHours h).evaluateHours := by
  refine ⟨(onlyMessages_iff _ _).2 (by simp), ?_, evaluateHours_alertsFollow_from same id⟩
  rw [State.evaluateHours_hours]
  exact evaluated_judged _ _ _

/-- Two hours units that differ in driver records alone, and not in their alerts. -/
structure RecordsDiffer (h h' : Hours) : Prop where
  clockSet : h'.clockSet = h.clockSet
  clock : h'.clock = h.clock
  minuteCount : h'.minuteCount = h.minuteCount
  undeclared : h'.undeclared = h.undeclared
  alerts : ∀ slot, (h'.driver slot).alerts = (h.driver slot).alerts

theorem eq_or_eq_other (slot d : DriverSlot) : d = slot ∨ d = slot.other := by
  cases slot <;> cases d <;> simp [DriverSlot.other]

theorem RecordsDiffer.refl (h : Hours) : RecordsDiffer h h := ⟨rfl, rfl, rfl, rfl, fun _ => rfl⟩

theorem RecordsDiffer.withDriver {h h' : Hours} (r : RecordsDiffer h h') {slot : DriverSlot} {d : Driver}
    (alerts : d.alerts = (h.driver slot).alerts) : RecordsDiffer h (h'.withDriver slot d) := by
  obtain ⟨clockSet, clock, minuteCount, undeclared, others⟩ := r
  refine ⟨?_, ?_, ?_, ?_, fun other => ?_⟩
  · cases slot <;> exact clockSet
  · cases slot <;> exact clock
  · cases slot <;> exact minuteCount
  · cases slot <;> exact undeclared
  · obtain rfl | rfl := eq_or_eq_other slot other
    · rw [withDriver_driver, alerts]
    · rw [withDriver_driver_other]
      exact others _

theorem advance_clockFollows (h : Hours) (t : Nat) :
    (h.advance t).clockSet = h.clockSet ∧ (h.advance t).clock = max h.clock t ∧
      (h.advance t).minuteCount = if h.clock < t then 0 else h.minuteCount := by
  unfold Hours.advance
  split
  · exact ⟨rfl, by dsimp only; omega, rfl⟩
  · exact ⟨rfl, by omega, rfl⟩

theorem advance_undeclared (h : Hours) (t : Nat) : (h.advance t).undeclared = h.undeclared := by
  unfold Hours.advance
  split <;> rfl

theorem acceptHours_settled {s : State} {h : Hours} (r : RecordsDiffer s.hours h) (t : Nat) :
    hoursSettled s (s.acceptHours h t) :=
  evaluateHours_settled ⟨fun slot => (congrArg Driver.alerts (advance_driver h t slot)).trans (r.alerts slot),
    (advance_undeclared h t).trans r.undeclared⟩

theorem acceptHours_clockFollows {s : State} {h : Hours} (r : RecordsDiffer s.hours h) (t : Nat) :
    clockFollows s (s.acceptHours h t) t := by
  unfold clockFollows
  rw [← r.clockSet, ← r.clock, ← r.minuteCount, State.acceptHours, State.evaluateHours_hours]
  exact advance_clockFollows h t

/-- An order that accepts records at a minute ends with them evaluated, the clock following. -/
theorem order_accepts {c : Instr} {s : State} {n : Strip} {o : Order} {h : Hours} {t : Nat} {r : Result} {w : Word}
    {body : State → List Word → State × OrderEnd} (hdue : due s n o) (runs : exec c s = .next (s.runOrder o body))
    (ends : body s (s.orderArgs n o) = (s.acceptHours h t, .ended r 0)) (word : resultWord r 0 = w)
    (records : RecordsDiffer s.hours h) :
    endsOrder c s (s.acceptHours h t) n o w ∧ hoursSettled s (s.acceptHours h t) ∧
      clockFollows s (s.acceptHours h t) t := by
  refine ⟨?_, acceptHours_settled records t, acceptHours_clockFollows records t⟩
  have xm : (s.acceptHours h t).xm = s.xm := State.evaluateHours_xm _
  obtain ⟨_, wf⟩ := id hdue
  exact endsOrder_of_body hdue runs ends (State.evaluateHours_engine _) (fun a _ => readXm_congr xm a) (xm ▸ wf) word

/-- An order that accepts one record, which keeps its alerts, leaves it evaluated and the other slot's as it was. -/
theorem order_acceptsRecord {c : Instr} {s : State} {n : Strip} {o : Order} {slot : DriverSlot} {d : Driver} {t : Nat}
    {body : State → List Word → State × OrderEnd} (hdue : due s n o) (runs : exec c s = .next (s.runOrder o body))
    (ends : body s (s.orderArgs n o) = done (s.acceptHours (s.hours.withDriver slot d) t))
    (alerts : d.alerts = (s.hours.driver slot).alerts) :
    ∃ m, endsOrder c s m n o 0x0000 ∧ hoursSettled s m ∧ clockFollows s m t ∧
      sameRecord (s.hours.driver slot.other) (m.hours.driver slot.other) ∧
      m.hours.driver slot = d.evaluated s.tables.rules m.hours.clock := by
  obtain ⟨order, settled, follows⟩ :=
    order_accepts (w := 0x0000) hdue runs ends rfl ((RecordsDiffer.refl s.hours).withDriver alerts)
  refine ⟨_, order, settled, follows, ?_, ?_⟩
  · rw [acceptHours_driver, withDriver_driver_other]
    exact evaluated_sameRecord _ _ _
  · rw [acceptHours_driver, withDriver_driver]

/-! ## The checks common to the orders (R103) -/

theorem ofCode_number (d : DriverSlot) : DriverSlot.ofCode d.number = some d := by cases d <;> rfl

theorem ofCode_eq_none {n : Nat} (one : n ≠ 1) (two : n ≠ 2) : DriverSlot.ofCode n = none := by
  unfold DriverSlot.ofCode
  split
  · exact absurd rfl one
  · exact absurd rfl two
  · rfl

theorem hoursOrder_unset {s : State} (unset : s.hours.clockSet = false) (slot : Nat)
    (body : DriverSlot → State × OrderEnd) : hoursOrder s slot body = refuse s .clockUnset :=
  if_neg (by simp [unset])

theorem hoursOrder_noSlot {s : State} (set : s.hours.clockSet = true) {slot : Nat} (one : slot ≠ 1) (two : slot ≠ 2)
    (body : DriverSlot → State × OrderEnd) : hoursOrder s slot body = refuse s .badArgument := by
  unfold hoursOrder
  rw [if_pos set, ofCode_eq_none one two]

theorem hoursOrder_slot {s : State} (set : s.hours.clockSet = true) {slot : Nat} {d : DriverSlot}
    (h : slot = d.number) (body : DriverSlot → State × OrderEnd) : hoursOrder s slot body = body d := by
  unfold hoursOrder
  rw [if_pos set, h, ofCode_number]

end Sys2Proof.Machine
end

section
/-! The settling of O26. SET TIME and the minute (R95, R96). -/

namespace Sys2Proof.Machine

/-- The card was withdrawn after a minute. -/
theorem withdrawnAfter_iff (d : Driver) (m : Nat) :
    (d.withdrawal.any fun w => decide (m < w)) = true ↔ ∃ w, d.withdrawal = some w ∧ m < w := by
  cases d.withdrawal <;> simp

theorem dependsAfter_iff (d : Driver) (m : Nat) : d.dependsAfter m = true ↔
    (∃ o, d.activity = some o ∧ m < o.start) ∨ (d.activity = none ∧ ∃ w, d.withdrawal = some w ∧ m < w) := by
  unfold Driver.dependsAfter
  cases d.activity with
  | some o => simp
  | none => simpa using withdrawnAfter_iff d m

/-- A record of one of the slots depends on a later minute. -/
theorem someDependsAfter_iff (h : Hours) (m : Nat) :
    (h.driver1.dependsAfter m || h.driver2.dependsAfter m) = true ↔
      ∃ d : DriverSlot, (h.driver d).dependsAfter m = true := by
  rw [Bool.or_eq_true]
  refine ⟨fun either => either.elim (fun one => ⟨.one, one⟩) fun two => ⟨.two, two⟩, ?_⟩
  rintro ⟨_ | _, after⟩
  · exact .inl after
  · exact .inr after

theorem setTimeBody_due (s : State) (n : Strip) : setTimeBody s (s.orderArgs n .setTime) =
    if s.hours.driver1.dependsAfter (s.argLong n 0) || s.hours.driver2.dependsAfter (s.argLong n 0) then
      refuse s .timeBeforeRecord
    else done (s.withHours
      { s.hours with clock := s.argLong n 0, clockSet := true, minuteCount := 0 }).evaluateHours := by
  unfold setTimeBody
  rw [arg2_orderArgs s n .setTime 0 (by decide)]

/-- An evaluation of the same records under another clock settles the hours unit and leaves the records. -/
theorem clockMoved_settled (s : State) (set : Bool) (clock count : Nat) {t : State}
    (ht : t = (s.withHours
      { s.hours with clock := clock, clockSet := set, minuteCount := count }).evaluateHours) :
    hoursSettled s t ∧ t.hours.clockSet = set ∧ t.hours.clock = clock ∧ t.hours.minuteCount = count ∧
      ∀ d, sameRecord (s.hours.driver d) (t.hours.driver d) := by
  subst ht
  refine ⟨evaluateHours_settled ⟨fun d => by cases d <;> rfl, rfl⟩, ?_⟩
  rw [State.evaluateHours_hours]
  refine ⟨rfl, rfl, rfl, fun d => ?_⟩
  cases d <;> exact evaluated_sameRecord _ _ _

/-- SET TIME (R96). -/
theorem setTime_sets {s : State} {n : Strip} (h : due s n .setTime)
    (free : ¬∃ d : DriverSlot, (s.hours.driver d).dependsAfter (s.argLong n 0) = true) :
    ∃ m, endsOrder .setTime s m n .setTime 0x0000 ∧ hoursSettled s m ∧ m.hours.clockSet = true ∧
      m.hours.clock = s.argLong n 0 ∧ m.hours.minuteCount = 0 ∧
      ∀ d, sameRecord (s.hours.driver d) (m.hours.driver d) := by
  have ends := setTimeBody_due s n
  rw [if_neg (fun after => free ((someDependsAfter_iff _ _).1 after))] at ends
  obtain ⟨_, wf⟩ := id h
  refine ⟨_, endsOrder_of_body h rfl ends (State.evaluateHours_engine _)
    (fun a _ => readXm_congr (State.evaluateHours_xm _) a) ?_ rfl, clockMoved_settled s true (s.argLong n 0) 0 rfl⟩
  rw [State.evaluateHours_xm]
  exact wf

theorem exec_minuteDue_early {s : State} (early : s.hours.minuteCount ≠ 59999) : exec .minuteDue s = .next s :=
  congrArg Host.Outcome.next (if_neg early)

theorem exec_minuteDue {s : State} (full : s.hours.minuteCount = 59999) : exec .minuteDue s = .next s.minuteDue :=
  congrArg Host.Outcome.next (if_pos full)

theorem minuteDue_of_stopped {s : State} (stopped : s.hours.clockSet = false ∨ max32 ≤ s.hours.clock) :
    s.minuteDue = s.withHours { s.hours with minuteCount := 0 } := by
  refine if_neg ?_
  rintro ⟨set, runs⟩
  obtain unset | last := stopped
  · exact absurd (unset.symm.trans set) (by decide)
  · exact absurd runs (Nat.not_lt.2 last)

theorem minuteDue_of_runs {s : State} (set : s.hours.clockSet = true) (runs : s.hours.clock < max32) :
    s.minuteDue = if s.mode.mode = .initial then
        s.withHours { s.hours with minuteCount := 0, clock := s.hours.clock + 1 }
      else (s.withHours { s.hours with minuteCount := 0, clock := s.hours.clock + 1 }).evaluateHours :=
  if_pos ⟨set, runs⟩

/-- Settles O26: the order by its check, the minute by the clock's state and the mode. -/
theorem clockIsSetAndSteps : Obligations.ClockIsSetAndSteps := by
  refine ⟨fun s n h late hlate => ?_, fun s => exec_minuteDue_early, fun s full => ?_⟩
  · have after : late ↔ ∃ d : DriverSlot, (s.hours.driver d).dependsAfter (s.argLong n 0) = true :=
      hlate.trans (exists_congr fun d => (dependsAfter_iff _ _).symm)
    refine ⟨fun isLate => order_ends (r := .timeBeforeRecord) (d := 0) h rfl ?_ rfl,
      fun inTime => setTime_sets h (fun d => inTime (after.2 d))⟩
    rw [setTimeBody_due, if_pos ((someDependsAfter_iff _ _).2 (after.1 isLate))]
    rfl
  · rw [exec_minuteDue full]
    refine ⟨fun stopped => by rw [minuteDue_of_stopped stopped], fun set runs initial => ?_, fun set runs awake => ?_⟩
    · rw [minuteDue_of_runs set runs, if_pos initial]
    · rw [minuteDue_of_runs set runs, if_neg awake]
      exact ⟨_, rfl, set ▸ clockMoved_settled s s.hours.clockSet (s.hours.clock + 1) 0 rfl⟩

end Sys2Proof.Machine
end

section
/-! The settling of O27. CARD IN (R97, R103, R106). -/

namespace Sys2Proof.Machine

/-! ## The record -/

/-- The activity that the gap since a withdrawal counts as (R106). -/
def gapActivity (rules : Option RulesTable) : Activity := if rules.any RulesTable.gapAsRest then .rest else .unknown

theorem gapActivity_eq (rules : Option RulesTable) [Decidable (∃ r, rules = some r ∧ r.gapAsRest = true)] :
    gapActivity rules = if ∃ r, rules = some r ∧ r.gapAsRest = true then .rest else .unknown := by
  unfold gapActivity
  refine if_congr ?_ rfl rfl
  cases rules <;> simp

theorem cardIn_of_new {d : Driver} {card : Nat} (new : d.card ≠ some card) (rules : Option RulesTable) (t : Nat) :
    d.cardIn rules card t = { d with
      card := some card, activity := some ⟨.unknown, t⟩, cd := 0, dd := 0, firstTaken := false, withdrawal := none
      history := [] } := if_neg new

theorem cardIn_of_same {d : Driver} {card : Nat} (same : d.card = some card) (fresh : d.withdrawal = none)
    (rules : Option RulesTable) (t : Nat) :
    d.cardIn rules card t = { d with withdrawal := none, activity := some ⟨.unknown, t⟩ } := by
  unfold Driver.cardIn
  rw [if_pos same, fresh]

theorem cardIn_of_return {d : Driver} {card w : Nat} (same : d.card = some card) (drawn : d.withdrawal = some w)
    (rules : Option RulesTable) (t : Nat) :
    d.cardIn rules card t =
      { d.close rules (gapActivity rules) w t with withdrawal := none, activity := some ⟨.unknown, t⟩ } := by
  unfold Driver.cardIn
  rw [if_pos same, drawn]
  rfl

/-- What every CARD IN leaves, whatever the card (R106). -/
theorem cardIn_fields (d : Driver) (rules : Option RulesTable) (card t : Nat) :
    (d.cardIn rules card t).card = some card ∧ (d.cardIn rules card t).withdrawal = none ∧
      (d.cardIn rules card t).alerts = d.alerts := by
  by_cases same : d.card = some card
  · cases drawn : d.withdrawal with
    | none =>
      rw [cardIn_of_same same drawn]
      exact ⟨same, rfl, rfl⟩
    | some w =>
      rw [cardIn_of_return same drawn]
      exact ⟨(close_card _ _ _ _ _).trans same, rfl, close_alerts _ _ _ _ _⟩
  · rw [cardIn_of_new same]
    exact ⟨rfl, rfl, rfl⟩

/-! ## The order -/

theorem cardInBody_due {s : State} {n : Strip} {d : DriverSlot} (set : s.hours.clockSet = true)
    (slot : s.argNum n 0 = d.number) : cardInBody s (s.orderArgs n .cardIn) =
      if (s.hours.driver d).activity.isSome then refuse s .slotOccupied
      else if (s.hours.driver d.other).activity.isSome ∧ (s.hours.driver d.other).card = some (s.argLong n 1) then
        refuse s .duplicateCard
      else if (s.hours.driver d).withdrawal.any fun w => decide (s.argLong n 3 < w) then refuse s .outOfOrder
      else done (s.acceptHours (s.hours.withDriver d
        ((s.hours.driver d).cardIn s.tables.rules (s.argLong n 1) (s.argLong n 3))) (s.argLong n 3)) := by
  unfold cardInBody
  rw [arg_orderArgs s n .cardIn 0 (by decide), hoursOrder_slot set slot, arg2_orderArgs s n .cardIn 1 (by decide),
    arg2_orderArgs s n .cardIn 3 (by decide)]

/-- Settles O27: the checks in their order, then the record by the card it had. -/
theorem cardInOpensUnknownOrIsRefused : Obligations.CardInOpensUnknownOrIsRefused := by
  intro s n h
  have refused : ∀ {r w}, cardInBody s (s.orderArgs n .cardIn) = refuse s r → resultWord r 0 = w →
      endsOrder .cardIn s s n .cardIn w := fun ends word => order_ends h rfl ends word
  have number := arg_orderArgs s n .cardIn 0 (by decide)
  refine ⟨fun unset => refused (hoursOrder_unset unset _ _) rfl,
    fun set one two => refused (hoursOrder_noSlot set (number ▸ one) (number ▸ two) _) rfl, ?_⟩
  rintro d card t set slot rfl rfl twin htwin
  have body := cardInBody_due set slot
  have vacant : (s.hours.driver d).activity = none → ¬(s.hours.driver d).activity.isSome = true :=
    fun closed => by simp [closed]
  have drawnAfter := withdrawnAfter_iff (s.hours.driver d) (s.argLong n 3)
  refine ⟨fun occupied => ?_, fun closed same => ?_, fun w closed single drawn early => ?_,
    fun closed single inTime => ?_⟩
  · exact refused (body.trans (if_pos (Option.isSome_iff_ne_none.2 occupied))) rfl
  · rw [if_neg (vacant closed), if_pos (htwin.1 same)] at body
    exact refused body rfl
  · rw [if_neg (vacant closed), if_neg (mt htwin.2 single), if_pos (drawnAfter.2 ⟨w, drawn, early⟩)] at body
    exact refused body rfl
  · have notAfter := fun after =>
      have ⟨w, drawn, early⟩ := drawnAfter.1 after
      Nat.not_lt.2 (inTime w drawn) early
    rw [if_neg (vacant closed), if_neg (mt htwin.2 single), if_neg notAfter] at body
    obtain ⟨hasCard, present, alerts⟩ := cardIn_fields (s.hours.driver d) s.tables.rules (s.argLong n 1) (s.argLong n 3)
    obtain ⟨m, order, settled, follows, other, record⟩ := order_acceptsRecord (c := .cardIn) h rfl body alerts
    refine ⟨m, order, settled, follows, other, ?_⟩
    rw [record]
    refine ⟨cardIn_activity _ _ _ _, hasCard, present, fun new => ?_, fun same fresh => ?_, fun w same drawn => ?_⟩
    · rw [cardIn_of_new new]
      exact ⟨rfl, rfl, rfl, rfl⟩
    · rw [cardIn_of_same same fresh]
      exact ⟨rfl, rfl, rfl, rfl⟩
    · rw [cardIn_of_return same drawn, ← gapActivity_eq]
      exact close_closedInto _ _ _ _ _

end Sys2Proof.Machine
end

section
/-! The settling of O28. CARD OUT (R97, R103, R107). -/

namespace Sys2Proof.Machine

theorem cardOutBody_due {s : State} {n : Strip} {d : DriverSlot} (set : s.hours.clockSet = true)
    (slot : s.argNum n 0 = d.number) :
    ((s.hours.driver d).activity = none → cardOutBody s (s.orderArgs n .cardOut) = refuse s .noCard) ∧
    ∀ o, (s.hours.driver d).activity = some o → cardOutBody s (s.orderArgs n .cardOut) =
      if s.argLong n 1 < o.start then refuse s .outOfOrder
      else done (s.acceptHours (s.hours.withDriver d
        ((s.hours.driver d).cardOut s.tables.rules (s.argLong n 1))) (s.argLong n 1)) := by
  unfold cardOutBody
  rw [arg_orderArgs s n .cardOut 0 (by decide), hoursOrder_slot set slot, arg2_orderArgs s n .cardOut 1 (by decide)]
  dsimp only
  exact ⟨fun closed => by rw [closed], fun o opened => by rw [opened]⟩

/-- Settles O28: the checks in their order, then the record with its activity closed. -/
theorem cardOutClosesActivityOrIsRefused : Obligations.CardOutClosesActivityOrIsRefused := by
  intro s n h
  have refused : ∀ {r w}, cardOutBody s (s.orderArgs n .cardOut) = refuse s r → resultWord r 0 = w →
      endsOrder .cardOut s s n .cardOut w := fun ends word => order_ends h rfl ends word
  have number := arg_orderArgs s n .cardOut 0 (by decide)
  refine ⟨fun unset => refused (hoursOrder_unset unset _ _) rfl,
    fun set one two => refused (hoursOrder_noSlot set (number ▸ one) (number ▸ two) _) rfl, ?_⟩
  rintro d t set slot rfl
  obtain ⟨noCard, present⟩ := cardOutBody_due set slot
  refine ⟨fun closed => refused (noCard closed) rfl, fun o opened early => ?_, fun o opened inTime => ?_⟩
  · exact refused ((present o opened).trans (if_pos early)) rfl
  · obtain ⟨m, order, settled, follows, other, record⟩ := order_acceptsRecord (c := .cardOut) h rfl
      ((present o opened).trans (if_neg (Nat.not_lt.2 inTime))) (closeOpen_alerts _ _ _)
    refine ⟨m, order, settled, follows, other, ?_⟩
    rw [record]
    exact ⟨rfl, rfl, closeOpen_card _ _ _, closeOpen_closedInto opened _ _⟩

end Sys2Proof.Machine
end

section
/-! The settling of O29. ACTIVITY (R97, R103 to R105). -/

namespace Sys2Proof.Machine

theorem ofCode_code (kind : Activity) : Activity.ofCode kind.code = some kind := by cases kind <;> rfl

/-- A code above 3 names UNKNOWN or nothing, and ACTIVITY takes neither. -/
theorem ofCode_of_high {k : Nat} (h : 3 < k) : Activity.ofCode k = none ∨ Activity.ofCode k = some .unknown := by
  by_cases four : k = 4
  · exact .inr (four ▸ rfl)
  · obtain ⟨j, rfl⟩ : ∃ j, k = j + 5 := ⟨k - 5, by omega⟩
    exact .inl rfl

theorem activityBody_badArgument {s : State} {n : Strip} (set : s.hours.clockSet = true)
    (bad : (s.argNum n 0 ≠ 1 ∧ s.argNum n 0 ≠ 2) ∨ 3 < s.argNum n 1) :
    activityBody s (s.orderArgs n .activity) = refuse s .badArgument := by
  have refuses : ∀ d : DriverSlot, s.argNum n 0 = d.number → 3 < s.argNum n 1 →
      activityBody s (s.orderArgs n .activity) = refuse s .badArgument := fun d slot high => by
    unfold activityBody
    rw [arg_orderArgs s n .activity 0 (by decide), hoursOrder_slot set slot, arg_orderArgs s n .activity 1 (by decide)]
    dsimp only
    obtain code | code := ofCode_of_high high <;> rw [code]
  have number := arg_orderArgs s n .activity 0 (by decide)
  by_cases one : s.argNum n 0 = 1
  · exact refuses .one one (bad.resolve_left fun none => none.1 one)
  · by_cases two : s.argNum n 0 = 2
    · exact refuses .two two (bad.resolve_left fun none => none.2 two)
    · exact hoursOrder_noSlot set (number ▸ one) (number ▸ two) _

theorem activityBody_due {s : State} {n : Strip} {d : DriverSlot} {kind : Activity} (set : s.hours.clockSet = true)
    (slot : s.argNum n 0 = d.number) (code : s.argNum n 1 = kind.code) (known : kind ≠ .unknown) :
    ((s.hours.driver d).activity = none → activityBody s (s.orderArgs n .activity) = refuse s .noCard) ∧
    ∀ o, (s.hours.driver d).activity = some o → activityBody s (s.orderArgs n .activity) =
      if s.argLong n 2 < o.start then refuse s .outOfOrder
      else if kind = o.kind then done s
      else if kind = .drive ∧ (s.hours.driver d.other).drives = true then
        (if (s.hours.driver d.other).drivesSinceAfter (s.argLong n 2) then refuse s .outOfOrder
        else (s.crewSwap d (s.argLong n 2), .ended .doneCrewSwap 0))
      else done (s.acceptHours (s.hours.withDriver d
        ((s.hours.driver d).switch s.tables.rules kind (s.argLong n 2))) (s.argLong n 2)) := by
  unfold activityBody
  rw [arg_orderArgs s n .activity 0 (by decide), hoursOrder_slot set slot, arg_orderArgs s n .activity 1 (by decide),
    arg2_orderArgs s n .activity 2 (by decide), code, ofCode_code]
  dsimp only
  cases kind with
  | unknown => exact absurd rfl known
  | drive | work | available | rest => exact ⟨fun closed => by rw [closed], fun o opened => by rw [opened]⟩

theorem switch_alerts (d : Driver) (rules : Option RulesTable) (kind : Activity) (t : Nat) :
    (d.switch rules kind t).alerts = d.alerts := closeOpen_alerts d rules t

/-- A crew swap (R105): both records change at the minute. -/
theorem crewSwap_swaps {s : State} {n : Strip} (h : due s n .activity) {d : DriverSlot} {t : Nat}
    (ends : activityBody s (s.orderArgs n .activity) = (s.crewSwap d t, .ended .doneCrewSwap 0)) :
    endsOrder .activity s (s.crewSwap d t) n .activity 0x0100 ∧ hoursSettled s (s.crewSwap d t) ∧
      clockFollows s (s.crewSwap d t) t ∧
      (s.crewSwap d t).hours.driver d =
        ((s.hours.driver d).switch s.tables.rules .drive t).evaluated s.tables.rules (s.crewSwap d t).hours.clock ∧
      (s.crewSwap d t).hours.driver d.other =
        ((s.hours.driver d.other).switch s.tables.rules .available t).evaluated s.tables.rules
          (s.crewSwap d t).hours.clock := by
  obtain ⟨order, settled, follows⟩ := order_accepts (c := .activity) (w := 0x0100) h rfl ends rfl
    (((RecordsDiffer.refl s.hours).withDriver (switch_alerts _ _ _ _)).withDriver (switch_alerts _ _ _ _))
  refine ⟨order, settled, follows, (acceptHours_driver _ _ _ _).trans ?_, (acceptHours_driver _ _ _ _).trans ?_⟩
  · rw [withDriver_other_driver, withDriver_driver]
    rfl
  · rw [withDriver_driver]
    rfl

/-- Settles O29: the checks in their order, then a report again, a change, or a crew swap. -/
theorem activityChangesSwapsOrIsRefused : Obligations.ActivityChangesSwapsOrIsRefused := by
  intro s n h
  have ended : ∀ {r w}, activityBody s (s.orderArgs n .activity) = (s, .ended r 0) → resultWord r 0 = w →
      endsOrder .activity s s n .activity w := fun ends word => order_ends h rfl ends word
  refine ⟨fun unset => ended (hoursOrder_unset unset _ _) rfl,
    fun set bad => ended (activityBody_badArgument set bad) rfl, ?_⟩
  rintro d kind t set slot code known rfl
  obtain ⟨noCard, present⟩ := activityBody_due set slot code known
  refine ⟨fun closed => ended (noCard closed) rfl, fun o opened => ?_⟩
  have body := present o opened
  refine ⟨fun early => ended (body.trans (if_pos early)) rfl, fun inTime again => ?_, fun inTime change alone => ?_,
    fun since inTime drive change swap => ?_⟩
  · rw [if_neg (Nat.not_lt.2 inTime), if_pos again] at body
    exact ended body rfl
  · rw [if_neg (Nat.not_lt.2 inTime), if_neg change, if_neg] at body
    · obtain ⟨m, order, settled, follows, other, record⟩ :=
        order_acceptsRecord (c := .activity) h rfl body (switch_alerts _ _ _ _)
      refine ⟨m, order, settled, follows, other, ?_⟩
      rw [record]
      exact ⟨rfl, closeOpen_card _ _ _, closeOpen_closedInto opened _ _⟩
    · rintro ⟨drive, drives⟩
      exact alone.elim (fun other => other drive) fun still => absurd (still.symm.trans drives) (by decide)
  · subst drive
    rw [if_neg (Nat.not_lt.2 inTime), if_neg (Ne.symm change), if_pos ⟨rfl, (drives_iff swap).2 rfl⟩] at body
    have after : (s.hours.driver d.other).drivesSinceAfter (s.argLong n 2) = decide (s.argLong n 2 < since) := by
      unfold Driver.drivesSinceAfter
      rw [swap]
      rfl
    rw [after] at body
    refine ⟨fun early => ?_, fun reached => ?_⟩
    · rw [if_pos (decide_eq_true early)] at body
      exact ended body rfl
    · rw [if_neg (by simpa using reached)] at body
      obtain ⟨order, settled, follows, record, otherRecord⟩ := crewSwap_swaps h body
      refine ⟨_, order, settled, follows, ?_⟩
      rw [record, otherRecord]
      exact ⟨rfl, rfl, closeOpen_closedInto opened _ _, closeOpen_closedInto swap _ _⟩

end Sys2Proof.Machine
end

section
/-! SUPPORT. The operations of the message stack, each said once (R121 to R127): what it leaves of the entries, the
counter and the pending list. -/

namespace Sys2Proof.Machine

/-! ## The entry with an identity -/

theorem Stack.find_eq_none_iff {k : Stack} {id : Identity} : k.find id = none ↔ ∀ e ∈ k.entries, e.id ≠ id := by
  simp [Stack.find]

theorem Stack.status_eq_none_iff {k : Stack} {id : Identity} : k.status id = none ↔ k.find id = none :=
  Option.map_eq_none_iff

theorem Stack.drop_of_find_none {k : Stack} {id : Identity} (absent : k.find id = none) : k.drop id = k := by
  have all : k.entries.filter (fun e => e.id != id) = k.entries :=
    List.filter_eq_self.2 fun e he => bne_iff_ne.2 (Stack.find_eq_none_iff.1 absent e he)
  unfold Stack.drop
  rw [all]

/-- Where no identity is held twice, the stack is the entry with an identity and the rest. -/
theorem Stack.perm_of_find {k : Stack} (h : k.single) {id : Identity} {e : Entry} (found : k.find id = some e) :
    k.entries.Perm (e :: (k.drop id).entries) := by
  obtain ⟨held, rfl⟩ := Stack.find_some found
  have rest : (k.drop e.id).entries = k.entries.erase e := by
    rw [(List.Nodup.of_map _ h).erase_eq_filter]
    refine List.filter_congr fun b hb => ?_
    by_cases same : b.id = e.id
    · have : b = e := List.inj_on_of_nodup_map h hb held same
      subst this
      simp
    · have : b ≠ e := fun eq => same (congrArg Entry.id eq)
      rw [bne_iff_ne.2 same, bne_iff_ne.2 this]
  rw [rest]
  exact List.perm_cons_erase held

theorem Stack.length_of_find {k : Stack} (h : k.single) {id : Identity} {e : Entry} (found : k.find id = some e) :
    k.entries.length = (k.drop id).entries.length + 1 :=
  (Stack.perm_of_find h found).length_eq

theorem Stack.nonRedCount_of_find {k : Stack} (h : k.single) {id : Identity} {e : Entry}
    (found : k.find id = some e) :
    k.nonRedCount = (k.drop id).nonRedCount + if e.severity = .red then 0 else 1 := by
  have count := ((Stack.perm_of_find h found).filter Entry.nonRed).length_eq
  unfold Stack.nonRedCount
  rw [count, List.filter_cons]
  by_cases red : e.severity = .red <;> simp [Entry.nonRed, red]

theorem Stack.nonRedCount_drop_le (k : Stack) (id : Identity) : (k.drop id).nonRedCount ≤ k.nonRedCount :=
  (List.filter_sublist.filter Entry.nonRed).length_le

theorem Stack.length_drop_le (k : Stack) (id : Identity) : (k.drop id).entries.length ≤ k.entries.length :=
  List.filter_sublist.length_le

/-- An arrival takes one of the places for AMBER and INFO where it is not RED. -/
theorem nonRed_append_arrival (es : List Entry) (id : Identity) (sev : Severity) (number : Nat) :
    ((es ++ [(⟨id, sev, .new, true, number, 0⟩ : Entry)]).filter Entry.nonRed).length =
      (es.filter Entry.nonRed).length + if sev = .red then 0 else 1 := by
  rw [List.filter_append, List.length_append]
  cases sev <;> rfl

/-! ## Evictions (R124) -/

@[simp] theorem Stack.evict_entries (k : Stack) (v : Entry) : (k.evict v).entries = (k.drop v.id).entries := by
  unfold Stack.evict Stack.wait
  repeat' split
  all_goals rfl

@[simp] theorem Stack.evict_counter (k : Stack) (v : Entry) : (k.evict v).counter = k.counter := by
  unfold Stack.evict Stack.wait
  repeat' split
  all_goals rfl

theorem Stack.evict_waiting (k : Stack) (v : Entry) : (k.evict v).waiting = k.waiting ++
    if v.active = true ∧ v.id.origin ≠ .link ∧ k.waits v.id = false then [(v.id, v.severity)] else [] := by
  have waits : (k.drop v.id).waits v.id = k.waits v.id := rfl
  unfold Stack.evict Stack.wait
  rw [waits]
  by_cases unit : (v.active && v.id.origin != .link) = true
  · rw [if_pos unit]
    obtain ⟨active, origin⟩ : v.active = true ∧ v.id.origin ≠ .link := by simpa using unit
    by_cases listed : k.waits v.id = true
    · rw [if_pos listed, if_neg (by simp [listed]), List.append_nil]
      rfl
    · rw [if_neg listed, if_pos ⟨active, origin, Bool.eq_false_iff.2 listed⟩]
      rfl
  · rw [if_neg unit, if_neg (by rintro ⟨active, origin, _⟩; exact unit (by simp [active, origin])), List.append_nil]
    rfl

theorem Stack.find_evict (k : Stack) (v : Entry) {id : Identity} (ne : v.id ≠ id) : (k.evict v).find id = k.find id := by
  unfold Stack.find
  rw [Stack.evict_entries, Stack.drop, List.find?_filter]
  congr 1
  funext e
  by_cases same : e.id = id
  · simp [same, ne.symm]
  · simp [same]

end Sys2Proof.Machine
end

section
/-! SUPPORT. The capacity of the message stack (R121 to R123): every operation of the stack keeps it. -/

namespace Sys2Proof.Machine

/-! ## What keeps the capacity -/

/-- Entries that leave, and a counter that does not fall, keep the capacity. -/
theorem Stack.withinCapacity_of_sublist {k k' : Stack} (h : k.withinCapacity) (sub : k'.entries.Sublist k.entries)
    (counter : k.counter ≤ k'.counter) : k'.withinCapacity := by
  obtain ⟨length, nonRed, single, arrivals⟩ := h
  exact ⟨sub.length_le.trans length, (sub.filter _).length_le.trans nonRed, single.sublist (sub.map _),
    fun e he => (arrivals e (sub.subset he)).trans counter⟩

/-- Entries that keep identity and severity, with numbers that the counter bounds, keep the capacity. -/
theorem Stack.withinCapacity_of_map {k k' : Stack} (h : k.withinCapacity) {f : Entry → Entry}
    (entries : k'.entries = k.entries.map f) (same : ∀ e, (f e).id = e.id ∧ (f e).severity = e.severity)
    (arrivals : ∀ e ∈ k.entries, (f e).arrival ≤ k'.counter) : k'.withinCapacity := by
  obtain ⟨length, nonRed, single, _⟩ := h
  have kinds : Entry.nonRed ∘ f = Entry.nonRed := by
    funext e
    simp [Entry.nonRed, (same e).2]
  refine ⟨by rwa [entries, List.length_map], ?_, ?_, ?_⟩
  · unfold Stack.nonRedCount at *
    rwa [entries, List.filter_map, List.length_map, kinds]
  · have ids : Entry.id ∘ f = Entry.id := funext fun e => (same e).1
    rwa [entries, List.map_map, ids]
  · rw [entries]
    exact List.forall_mem_map.2 arrivals

theorem Stack.drop_withinCapacity {k : Stack} (h : k.withinCapacity) (id : Identity) : (k.drop id).withinCapacity :=
  withinCapacity_of_sublist h List.filter_sublist le_rfl

theorem Stack.evict_withinCapacity {k : Stack} (h : k.withinCapacity) (v : Entry) : (k.evict v).withinCapacity :=
  withinCapacity_of_sublist h (by rw [evict_entries]; exact List.filter_sublist) (by rw [evict_counter])

/-- The capacity does not depend on the pending list. -/
theorem Stack.withinCapacity_of_entries {k k' : Stack} (h : k.withinCapacity) (entries : k'.entries = k.entries)
    (counter : k'.counter = k.counter) : k'.withinCapacity :=
  withinCapacity_of_sublist h (by rw [entries]) (by rw [counter])

/-! ## Room (R122, R123) -/

/-- An entry with an identity and a severity has room beside the entries of the other identities. -/
def Stack.fits (k : Stack) (id : Identity) (sev : Severity) : Prop :=
  (k.drop id).entries.length < 16 ∧ (sev ≠ .red → (k.drop id).nonRedCount < 12)

theorem Stack.fits_of_free {k : Stack} {id : Identity} {sev : Severity} (length : k.entries.length < 16)
    (nonRed : sev ≠ .red → k.nonRedCount < 12) : k.fits id sev :=
  ⟨(k.length_drop_le id).trans_lt length, fun ne => (k.nonRedCount_drop_le id).trans_lt (nonRed ne)⟩

/-- A held entry takes a severity in the place that it has, where it does not become one of the entries that are not
RED. -/
theorem Stack.fits_of_held {k : Stack} (h : k.withinCapacity) {id : Identity} {e : Entry} (found : k.find id = some e)
    {sev : Severity} (lowered : e.severity = .red → sev ≠ .red → k.nonRedCount < 12) : k.fits id sev := by
  obtain ⟨length, nonRed, single, _⟩ := h
  have one := Stack.length_of_find single found
  refine ⟨by omega, fun ne => ?_⟩
  by_cases red : e.severity = .red
  · exact (k.nonRedCount_drop_le id).trans_lt (lowered red ne)
  · have count := Stack.nonRedCount_of_find single found
    rw [if_neg red] at count
    omega

/-- Where an entry leaves, a place is free; where it is not RED, one of the places for those. -/
theorem Stack.evict_frees {k : Stack} (h : k.withinCapacity) {v : Entry} (held : v ∈ k.entries) :
    (k.evict v).entries.length < 16 ∧ (v.severity ≠ .red → (k.evict v).nonRedCount < 12) := by
  obtain ⟨length, nonRed, single, _⟩ := h
  have found := Stack.find_of_mem single held
  have one := Stack.length_of_find single found
  have count := Stack.nonRedCount_of_find single found
  have same : (k.evict v).nonRedCount = (k.drop v.id).nonRedCount := by
    unfold Stack.nonRedCount
    rw [evict_entries]
  refine ⟨by rw [evict_entries]; omega, fun ne => ?_⟩
  rw [if_neg ne] at count
  omega

/-- The entry evicted for an AMBER or INFO one is another and is not RED. -/
theorem Stack.nonRedVictim_some {k : Stack} {id : Identity} {v : Entry} (h : k.nonRedVictim id = some v) :
    v ∈ k.entries ∧ v.id ≠ id ∧ v.severity ≠ .red := by
  unfold Stack.nonRedVictim at h
  split at h
  · rename_i u first
    obtain rfl := Option.some.inj h
    obtain ⟨held, kind⟩ := oldest_mem first
    simp only [Entry.nonRed, Bool.and_eq_true, bne_iff_ne] at kind
    exact ⟨held, kind.1.1, kind.2⟩
  · obtain ⟨held, kind⟩ := oldest_mem h
    simp only [Bool.and_eq_true, bne_iff_ne, beq_iff_eq] at kind
    exact ⟨held, kind.1.1, by simp [kind.2]⟩

theorem Stack.makeNonRedRoom_frees {k k' : Stack} (h : k.withinCapacity) {id : Identity} {adding : Bool}
    (room : k.makeNonRedRoom id adding = some k') :
    k'.withinCapacity ∧ k'.find id = k.find id ∧ k'.nonRedCount < 12 ∧ (adding = true → k'.entries.length < 16) := by
  unfold Stack.makeNonRedRoom at room
  split at room
  · rename_i free
    obtain rfl := Option.some.inj room
    exact ⟨h, rfl, free⟩
  · obtain ⟨v, victim, rfl⟩ := Option.map_eq_some_iff.1 room
    obtain ⟨held, other, nonRed⟩ := Stack.nonRedVictim_some victim
    obtain ⟨length, count⟩ := Stack.evict_frees h held
    exact ⟨evict_withinCapacity h v, Stack.find_evict k v other, count nonRed, fun _ => length⟩

theorem Stack.redVictim_mem {k : Stack} {unit : Bool} {v : Entry} (h : k.redVictim unit = some v) : v ∈ k.entries := by
  unfold Stack.redVictim at h
  split at h
  · rename_i first
    exact (oldest_mem (first.trans h)).1
  · split at h
    · rename_i second
      exact (oldest_mem (second.trans h)).1
    · split at h
      · rename_i third
        exact (oldest_mem (third.trans h)).1
      · split at h
        · exact (oldest_mem h).1
        · exact nomatch h

theorem Stack.makeRedRoom_frees {k k' : Stack} (h : k.withinCapacity) {unit : Bool}
    (room : k.makeRedRoom unit = some k') : k'.withinCapacity ∧ k'.entries.length < 16 := by
  unfold Stack.makeRedRoom at room
  split at room
  · rename_i free
    obtain rfl := Option.some.inj room
    exact ⟨h, free⟩
  · obtain ⟨v, victim, rfl⟩ := Option.map_eq_some_iff.1 room
    exact ⟨evict_withinCapacity h v, (Stack.evict_frees h (Stack.redVictim_mem victim)).1⟩

/-! ## Arrivals and posts (R121, R125) -/

theorem Stack.bump_withinCapacity {k : Stack} (h : k.withinCapacity) :
    k.bump.withinCapacity ∧ ∀ e ∈ k.bump.entries, e.arrival < k.bump.counter := by
  unfold Stack.bump
  split
  · obtain ⟨length, nonRed, single, arrivals⟩ := h
    exact ⟨⟨length, nonRed, single, fun e he => Nat.le_succ_of_le (arrivals e he)⟩,
      fun e he => Nat.lt_succ_of_le (arrivals e he)⟩
  · have numbers : ∀ b ∈ k.entries,
        1 + (k.entries.filter fun x => decide (x.arrival < b.arrival)).length < k.entries.length + 1 := by
      intro b hb
      have fewer : (k.entries.filter fun x => decide (x.arrival < b.arrival)).length < k.entries.length :=
        List.length_filter_lt_length_iff_exists.2 ⟨b, hb, by simp⟩
      omega
    exact ⟨withinCapacity_of_map h rfl (fun _ => ⟨rfl, rfl⟩) fun e he => Nat.le_of_lt (numbers e he),
      List.forall_mem_map.2 numbers⟩

/-- The renumbering gives no place away. -/
theorem Stack.bump_fits {k : Stack} {id : Identity} {sev : Severity} (room : k.fits id sev) : k.bump.fits id sev := by
  unfold Stack.bump
  split
  · exact room
  · simpa [renumber, Stack.fits, Stack.drop, Stack.nonRedCount, List.filter_map, Function.comp_def, Entry.nonRed]
      using room

theorem Stack.arrive_withinCapacity {k : Stack} (h : k.withinCapacity) {id : Identity} {sev : Severity}
    (room : k.fits id sev) : (k.arrive id sev).withinCapacity := by
  obtain ⟨_, nonRed, _, arrivals⟩ := drop_withinCapacity (bump_withinCapacity h).1 id
  obtain ⟨place, nonRedPlace⟩ := bump_fits room
  refine ⟨?_, ?_, Stack.single_arrive h.2.2.1 id sev, ?_⟩
  · simp only [Stack.arrive, List.length_append, List.length_singleton]
    omega
  · unfold Stack.nonRedCount at *
    rw [Stack.arrive, nonRed_append_arrival]
    split
    · exact nonRed
    · exact nonRedPlace ‹_›
  · intro e he
    rcases List.mem_append.1 he with old | new
    · exact arrivals e old
    · rw [List.mem_singleton.1 new]
      exact le_rfl

/-- What is done to one identity's entry does not show beside it. -/
theorem filter_map_at {id : Identity} {f : Entry → Entry} (keeps : ∀ e, (f e).id = e.id) (es : List Entry) :
    (es.map fun e => if e.id = id then f e else e).filter (fun e => e.id != id) = es.filter fun e => e.id != id := by
  induction es with
  | nil => rfl
  | cons e es ih =>
    rw [List.map_cons, List.filter_cons, List.filter_cons, ih]
    by_cases same : e.id = id
    · simp [same, keeps]
    · simp [same]

theorem Stack.find_setSeverity {k : Stack} {id : Identity} {e : Entry} (found : k.find id = some e) (sev : Severity) :
    (k.setSeverity id sev).find id = some { e with severity := sev } := by
  have held := (Stack.find_some found).2
  unfold Stack.find Stack.setSeverity at *
  rw [Stack.find_map _ (fun e => by split <;> rfl), found, Option.map_some, if_pos held]

theorem Stack.setSeverity_withinCapacity {k : Stack} (h : k.withinCapacity) {id : Identity} {e : Entry}
    (found : k.find id = some e) {sev : Severity} (room : k.fits id sev) : (k.setSeverity id sev).withinCapacity := by
  obtain ⟨length, nonRed, single, arrivals⟩ := h
  have after := Stack.single_setSeverity single id sev
  refine ⟨by simpa [Stack.setSeverity] using length, ?_, after, ?_⟩
  · have count := Stack.nonRedCount_of_find after (find_setSeverity found sev)
    have rest : ((k.setSeverity id sev).drop id).nonRedCount = (k.drop id).nonRedCount :=
      congrArg (fun es => (es.filter Entry.nonRed).length) 
        (filter_map_at (f := fun e => { e with severity := sev }) (fun _ => rfl) k.entries)
    have fewer := k.nonRedCount_drop_le id
    dsimp only at count
    split at count
    · omega
    · have place := room.2 ‹_›
      omega
  · refine List.forall_mem_map.2 fun b hb => ?_
    have bound := arrivals b hb
    split <;> exact bound

theorem Stack.offer_withinCapacity {k : Stack} (h : k.withinCapacity) (id : Identity) (sev : Severity) :
    (k.offer id sev).1.withinCapacity := by
  unfold Stack.offer
  split
  · split
    · rename_i k' room
      split at room
      · obtain ⟨within, free⟩ := makeRedRoom_frees h room
        exact arrive_withinCapacity within (fits_of_free free fun ne => absurd ‹_› ne)
      · obtain ⟨within, _, nonRed, free⟩ := makeNonRedRoom_frees h room
        exact arrive_withinCapacity within (fits_of_free (free rfl) fun _ => nonRed)
    · exact h
  · rename_i e found
    split
    · exact h
    · split
      · rename_i k' room
        obtain ⟨within, held, fits⟩ : k'.withinCapacity ∧ k'.find id = some e ∧ k'.fits id sev := by
          split at room
          · obtain ⟨within, same, nonRed, _⟩ := makeNonRedRoom_frees h room
            exact ⟨within, same.trans found, fits_of_held within (same.trans found) fun _ _ => nonRed⟩
          · rename_i raised
            obtain rfl := Option.some.inj room
            exact ⟨h, found, fits_of_held h found fun red ne => absurd ⟨red, ne⟩ raised⟩
        split
        · exact setSeverity_withinCapacity within held fits
        · exact arrive_withinCapacity within fits
      · exact h

/-! ## The events of the stack -/

theorem Stack.rewait_withinCapacity {k : Stack} (h : k.withinCapacity) (id : Identity) (sev : Severity) :
    (k.rewait id sev).withinCapacity :=
  withinCapacity_of_entries h rfl rfl

theorem Stack.unwait_withinCapacity {k : Stack} (h : k.withinCapacity) (id : Identity) :
    (k.unwait id).withinCapacity :=
  withinCapacity_of_entries h rfl rfl

theorem Stack.wait_withinCapacity {k : Stack} (h : k.withinCapacity) (id : Identity) (sev : Severity) :
    (k.wait id sev).withinCapacity := by
  unfold Stack.wait
  split
  · exact h
  · exact withinCapacity_of_entries h rfl rfl

theorem Stack.retry_withinCapacity {k : Stack} (h : k.withinCapacity) : k.retry.1.withinCapacity := by
  refine foldl_invariant Stack.retryOne (fun acc => acc.1.withinCapacity) (fun acc w within => ?_) _ (k, []) h
  unfold Stack.retryOne
  split
  · exact within
  · rename_i k' o _ offered
    have offer := offer_withinCapacity within w.1 w.2
    rw [offered] at offer
    exact unwait_withinCapacity offer w.1

theorem Stack.settle_withinCapacity {k : Stack} (h : k.withinCapacity) (rings : List Severity) (again : Bool) :
    (k.settle rings again).1.withinCapacity := by
  unfold Stack.settle
  split
  · exact retry_withinCapacity h
  · exact h

theorem Stack.offerSettled_withinCapacity {k : Stack} (h : k.withinCapacity) (id : Identity) (sev : Severity) :
    (k.offerSettled id sev).1.1.withinCapacity :=
  settle_withinCapacity (offer_withinCapacity h id sev) _ _

theorem Stack.unitPost_withinCapacity {k : Stack} (h : k.withinCapacity) (id : Identity) (sev : Severity) :
    (k.unitPost id sev).1.withinCapacity := by
  have after : ∀ o, (k.afterOffer (k.offer id sev).1 id sev o).withinCapacity := fun o => by
    cases o with
    | noRoom =>
      unfold Stack.afterOffer
      dsimp only
      split
      · exact rewait_withinCapacity h id sev
      · exact wait_withinCapacity h id sev
    | added | renewed | updated | unchanged => exact unwait_withinCapacity (offer_withinCapacity h id sev) id
  unfold Stack.unitPost
  split
  · exact rewait_withinCapacity h id sev
  · exact settle_withinCapacity (after _) _ _

/-- A change that keeps identity, severity and number. -/
theorem Stack.change_withinCapacity {k : Stack} (h : k.withinCapacity) (id : Identity) {f : Entry → Entry}
    (same : ∀ e, (f e).id = e.id ∧ (f e).severity = e.severity ∧ (f e).arrival = e.arrival) :
    (k.change id f).withinCapacity := by
  have mapped : Stack.withinCapacity { k with entries := k.entries.map fun e => if e.id = id then f e else e } := by
    refine withinCapacity_of_map h rfl (fun e => ?_) fun e he => ?_
    · split
      · exact ⟨(same e).1, (same e).2.1⟩
      · exact ⟨rfl, rfl⟩
    · split
      · exact (same e).2.2.le.trans (h.2.2.2 e he)
      · exact h.2.2.2 e he
  exact withinCapacity_of_sublist mapped List.filter_sublist le_rfl

theorem Stack.clear_withinCapacity {k : Stack} (h : k.withinCapacity) (id : Identity) :
    (k.clear id).1.withinCapacity := by
  unfold Stack.clear
  split
  · refine settle_withinCapacity (change_withinCapacity (unwait_withinCapacity h id) id ?_) _ _
    exact fun _ => ⟨rfl, rfl, rfl⟩
  · exact unwait_withinCapacity h id

theorem Stack.acknowledge_withinCapacity {k : Stack} (h : k.withinCapacity) (id : Identity) :
    (k.acknowledge id).1.withinCapacity := by
  refine settle_withinCapacity (change_withinCapacity h id ?_) _ _
  exact fun _ => ⟨rfl, rfl, rfl⟩

theorem Stack.display_withinCapacity {k : Stack} (h : k.withinCapacity) (id : Identity) :
    (k.display id).withinCapacity := by
  refine withinCapacity_of_map h rfl (fun e => ?_) fun e he => ?_
  · split <;> exact ⟨rfl, rfl⟩
  · split <;> exact h.2.2.2 e he

theorem Stack.tick_withinCapacity {k : Stack} (h : k.withinCapacity) : k.tick.1.withinCapacity := by
  have aged : Stack.withinCapacity { k with entries := k.entries.map Entry.age } := by
    refine withinCapacity_of_map h rfl (fun e => ?_) fun e he => ?_
    · unfold Entry.age
      split <;> exact ⟨rfl, rfl⟩
    · unfold Entry.age
      split <;> exact h.2.2.2 e he
  have left : Stack.withinCapacity
      { k with entries := (k.entries.map Entry.age).filter fun e => !(e.state == .shown && e.gone) } :=
    withinCapacity_of_sublist aged List.filter_sublist le_rfl
  exact settle_withinCapacity left _ _

theorem Stack.expire_withinCapacity {k : Stack} (h : k.withinCapacity) (id : Identity) :
    (k.expire id).1.withinCapacity := by
  unfold Stack.expire
  split
  · refine settle_withinCapacity (change_withinCapacity h id ?_) _ _
    exact fun _ => ⟨rfl, rfl, rfl⟩
  · exact h

end Sys2Proof.Machine
end

section
/-! SUPPORT. The capacity of the message stack through the events of every unit (R121, R122): each posts, clears and
acknowledges only, or leaves the stack as it is. -/

namespace Sys2Proof.Machine

variable {s : State}

/-! ## The stack within the part -/

theorem post_withinCapacity {id : Identity} {sev : Severity} (h : s.stack.withinCapacity) :
    (s.post id sev).stack.withinCapacity := Stack.unitPost_withinCapacity h id sev

theorem clear_withinCapacity {id : Identity} (h : s.stack.withinCapacity) : (s.clear id).stack.withinCapacity :=
  Stack.clear_withinCapacity h id

theorem acknowledge_withinCapacity {id : Identity} (h : s.stack.withinCapacity) :
    (s.acknowledge id).stack.withinCapacity := Stack.acknowledge_withinCapacity h id

theorem keyAcknowledge_withinCapacity {displayed : Option Identity} (h : s.stack.withinCapacity) :
    (s.keyAcknowledge displayed).stack.withinCapacity := by
  unfold State.keyAcknowledge
  split
  · split
    · exact acknowledge_withinCapacity h
    · exact h
  · exact h

/-! ## Gauge channels (R39 to R51) -/

theorem faultMessage_withinCapacity {c : Fin 8} {old new : ChannelState} (h : s.stack.withinCapacity) :
    (s.faultMessage c old new).stack.withinCapacity := by
  unfold State.faultMessage
  split_ifs
  · exact post_withinCapacity h
  · exact clear_withinCapacity h
  · exact h

theorem enterWith_withinCapacity {c : Fin 8} {ch : Channel} {st : ChannelState} (h : s.stack.withinCapacity) :
    (s.enterWith c ch st).stack.withinCapacity :=
  faultMessage_withinCapacity h

theorem enterState_withinCapacity {c : Fin 8} {st : ChannelState} (h : s.stack.withinCapacity) :
    (s.enterState c st).stack.withinCapacity :=
  enterWith_withinCapacity h

theorem enterSweep_withinCapacity {c : Fin 8} (h : s.stack.withinCapacity) : (s.enterSweep c).stack.withinCapacity :=
  enterWith_withinCapacity h

theorem enterHoming_withinCapacity {c : Fin 8} {e : GaugeEntry} {after : AfterHoming} (h : s.stack.withinCapacity) :
    (s.enterHoming c e after).stack.withinCapacity :=
  enterWith_withinCapacity h

theorem follow_withinCapacity {c : Fin 8} {e : GaugeEntry} {cond : Condition} (h : s.stack.withinCapacity) :
    (s.follow c e cond).stack.withinCapacity := by
  unfold State.follow
  split
  · cases cond with
    | good => exact h
    | stale =>
      dsimp only
      split
      · exact enterState_withinCapacity h
      · exact enterWith_withinCapacity h
    | error | notAvailable | never => exact enterState_withinCapacity h
  · cases cond with
    | stale => exact h
    | good | error | notAvailable | never => exact enterState_withinCapacity h
  · cases cond with
    | good => exact enterState_withinCapacity h
    | stale | error | notAvailable | never => exact h
  all_goals exact h

theorem watcherMessage_withinCapacity {c : Fin 8} {w : Watcher} {e : WatcherEntry} {old new : Bool}
    (h : s.stack.withinCapacity) : (s.watcherMessage c w e old new).stack.withinCapacity := by
  unfold State.watcherMessage
  split
  · exact h
  · split_ifs
    · exact post_withinCapacity h
    · exact clear_withinCapacity h
    · exact h

theorem setAlarm_withinCapacity {c : Fin 8} {e : GaugeEntry} {w : Watcher} {b : Bool} (h : s.stack.withinCapacity) :
    (s.setAlarm c e w b).stack.withinCapacity :=
  watcherMessage_withinCapacity h

theorem evaluateWatchers_withinCapacity {c : Fin 8} {e : GaugeEntry} {x : Int} (h : s.stack.withinCapacity) :
    (s.evaluateWatchers c e x).stack.withinCapacity := by
  unfold State.evaluateWatchers
  split
  · exact setAlarm_withinCapacity (setAlarm_withinCapacity h)
  · exact h

theorem failWatcher_withinCapacity {c : Fin 8} {e : GaugeEntry} {w : Watcher} (h : s.stack.withinCapacity) :
    (s.failWatcher c e w).stack.withinCapacity := by
  unfold State.failWatcher
  split
  · exact setAlarm_withinCapacity h
  · exact h

theorem failWatchers_withinCapacity {c : Fin 8} {e : GaugeEntry} (h : s.stack.withinCapacity) :
    (s.failWatchers c e).stack.withinCapacity := by
  unfold State.failWatchers
  split
  · exact failWatcher_withinCapacity (failWatcher_withinCapacity h)
  · exact h

theorem disarm_withinCapacity {c : Fin 8} (h : s.stack.withinCapacity) : (s.disarm c).stack.withinCapacity := by
  unfold State.disarm
  dsimp only
  rw [State.setChannel_stack]
  split
  · exact h
  · exact setAlarm_withinCapacity (setAlarm_withinCapacity h)

theorem arm_withinCapacity {c : Fin 8} (h : s.stack.withinCapacity) : (s.arm c).stack.withinCapacity := by
  unfold State.arm
  split
  · exact h
  · have disarmed := disarm_withinCapacity (c := c) h
    dsimp only
    split
    · exact evaluateWatchers_withinCapacity disarmed
    · exact failWatchers_withinCapacity disarmed

/-- A round over the channels keeps the capacity when each turn does. -/
theorem forChannels_withinCapacity {f : State → Fin 8 → State}
    (turn : ∀ s c, s.stack.withinCapacity → (f s c).stack.withinCapacity) (h : s.stack.withinCapacity) :
    (s.forChannels f).stack.withinCapacity :=
  foldl_invariant f (fun s => s.stack.withinCapacity) turn allChannels s h

theorem sourceEvent_withinCapacity {src : Source} {old new : Condition} {reading : Bool} {c : Fin 8}
    (h : s.stack.withinCapacity) : (State.sourceEvent src old new reading s c).stack.withinCapacity := by
  unfold State.sourceEvent
  split
  · exact h
  · rename_i e _
    have followed : (if old = new then s else s.follow c e new).stack.withinCapacity := by
      split
      · exact h
      · exact follow_withinCapacity h
    dsimp only
    generalize (if old = new then s else s.follow c e new) = u at *
    split_ifs
    · exact evaluateWatchers_withinCapacity followed
    · exact failWatchers_withinCapacity followed
    · exact followed
    · exact h

theorem startChannel_withinCapacity {sweep : Bool} {c : Fin 8} (h : s.stack.withinCapacity) :
    (State.startChannel sweep s c).stack.withinCapacity := by
  unfold State.startChannel
  split
  · exact h
  · split
    · exact enterHoming_withinCapacity h
    · split <;> exact h
    · split
      · exact h
      · exact enterState_withinCapacity h
    · split
      · exact enterSweep_withinCapacity h
      · exact enterState_withinCapacity h
    all_goals exact h

theorem parkChannel_withinCapacity {c : Fin 8} (h : s.stack.withinCapacity) :
    (s.parkChannel c).stack.withinCapacity := by
  unfold State.parkChannel
  split
  · exact h
  · split
    case h_1 => exact enterHoming_withinCapacity h
    case h_3 | h_4 | h_5 | h_6 => exact enterState_withinCapacity h
    all_goals exact h

theorem endHoming_withinCapacity {c : Fin 8} {e : GaugeEntry} (h : s.stack.withinCapacity) :
    (s.endHoming c e).stack.withinCapacity := by
  unfold State.endHoming
  dsimp only
  split
  · exact enterSweep_withinCapacity h
  · exact enterState_withinCapacity h
  · exact enterState_withinCapacity h

theorem updateChannel_withinCapacity {c : Fin 8} (h : s.stack.withinCapacity) :
    (s.updateChannel c).stack.withinCapacity := by
  unfold State.updateChannel
  split
  · exact h
  · split
    case h_4 =>
      unfold State.updateHoming
      dsimp only
      split
      · exact endHoming_withinCapacity h
      · exact h
    case h_5 =>
      unfold State.updateSweep
      split
      · exact h
      · dsimp only
        split
        · exact enterState_withinCapacity h
        · exact h
    case h_7 =>
      unfold State.updateHolding
      dsimp only
      split
      · exact enterState_withinCapacity h
      · exact h
    case h_9 =>
      unfold State.updateParking
      dsimp only
      split
      · exact enterState_withinCapacity h
      · exact h
    all_goals exact h

/-! ## Driver hours (R95, R97, R110, R114) -/

theorem alert_withinCapacity {id : Identity} {sev : Severity} {old new : Bool} (h : s.stack.withinCapacity) :
    (s.alert id sev old new).stack.withinCapacity := by
  unfold State.alert
  split_ifs
  · exact post_withinCapacity h
  · exact clear_withinCapacity h
  · exact h

theorem slotAlerts_withinCapacity {slot : Nat} {old new : Alerts} (h : s.stack.withinCapacity) :
    (s.slotAlerts slot old new).stack.withinCapacity :=
  alert_withinCapacity (alert_withinCapacity (alert_withinCapacity h))

theorem evaluateHours_withinCapacity (h : s.stack.withinCapacity) : s.evaluateHours.stack.withinCapacity := by
  unfold State.evaluateHours
  exact alert_withinCapacity (slotAlerts_withinCapacity (slotAlerts_withinCapacity h))

theorem acceptHours_withinCapacity {hours : Hours} {t : Nat} (h : s.stack.withinCapacity) :
    (s.acceptHours hours t).stack.withinCapacity := by
  unfold State.acceptHours
  exact evaluateHours_withinCapacity h

theorem minuteDue_withinCapacity (h : s.stack.withinCapacity) : s.minuteDue.stack.withinCapacity := by
  unfold State.minuteDue
  dsimp only
  split_ifs
  · exact h
  · exact evaluateHours_withinCapacity h
  · exact h

/-! ## Lamps (R76, R87 to R90) -/

theorem postLampFault_withinCapacity {n : Fin 40} (h : s.stack.withinCapacity) :
    (s.postLampFault n).stack.withinCapacity := by
  rw [postLampFault_stack]
  exact post_withinCapacity h

theorem lampFaultMessage_withinCapacity {n : Fin 40} {old new : Bool} (h : s.stack.withinCapacity) :
    (s.lampFaultMessage n old new).stack.withinCapacity := by
  unfold State.lampFaultMessage
  split_ifs
  · exact postLampFault_withinCapacity h
  · exact clear_withinCapacity h
  · exact h

theorem setLampFault_withinCapacity {n : Fin 40} {r : LampRec} (h : s.stack.withinCapacity) :
    (s.setLampFault n r).stack.withinCapacity := by
  unfold State.setLampFault
  dsimp only
  split
  · exact lampFaultMessage_withinCapacity h
  · exact lampFaultMessage_withinCapacity h

theorem repostLampFault_withinCapacity {sev : Severity} {n : Fin 40} (h : s.stack.withinCapacity) :
    (State.repostLampFault sev s n).stack.withinCapacity := by
  unfold State.repostLampFault
  split
  · exact post_withinCapacity h
  · exact h

/-- A round over lamps keeps the capacity when each turn does. -/
theorem lamps_withinCapacity {f : State → Fin 40 → State} {order : List (Fin 40)}
    (turn : ∀ s n, s.stack.withinCapacity → (f s n).stack.withinCapacity) (h : s.stack.withinCapacity) :
    (order.foldl f s).stack.withinCapacity :=
  foldl_invariant f (fun s => s.stack.withinCapacity) turn order s h

theorem judgeEscalation_withinCapacity {n : Fin 40} (h : s.stack.withinCapacity) :
    (s.judgeEscalation n).stack.withinCapacity := by
  have reposted : ∀ sev : Severity, ∀ l : Lamps,
      (allLamps.foldl (State.repostLampFault sev) (s.withLamps l)).stack.withinCapacity := fun sev l =>
    lamps_withinCapacity (fun _ _ h => repostLampFault_withinCapacity h) h
  unfold State.judgeEscalation
  dsimp only
  split_ifs
  · rw [State.request_stack]
    exact reposted .red _
  · exact reposted .red _
  · exact reposted .amber _
  · exact h
  · exact h

theorem riseMessage_withinCapacity {n : Fin 40} {e : LampEntry} (h : s.stack.withinCapacity) :
    (s.riseMessage n e).stack.withinCapacity := by
  unfold State.riseMessage
  split
  · exact h
  · dsimp only
    split_ifs
    · exact clear_withinCapacity h
    · exact h
    · exact h
    · exact post_withinCapacity h

theorem dropRise_withinCapacity {n : Fin 40} (h : s.stack.withinCapacity) : (s.dropRise n).stack.withinCapacity := by
  unfold State.dropRise
  split
  · dsimp only
    split
    · exact h
    · exact clear_withinCapacity h
  · exact h

theorem riseLamp_withinCapacity {n : Fin 40} (h : s.stack.withinCapacity) : (s.riseLamp n).stack.withinCapacity := by
  unfold State.riseLamp
  dsimp only
  rw [State.setLamp_stack]
  split
  · exact h
  · refine riseMessage_withinCapacity ?_
    split <;> exact h

theorem evaluateLamp_withinCapacity {opens : List (Fin 40)} {n : Fin 40} (h : s.stack.withinCapacity) :
    (State.evaluateLamp opens s n).stack.withinCapacity := by
  have driven : ((((s.judgeEscalation n).formDemands n).riseLamp n).driveLamp n).stack.withinCapacity := by
    rw [State.driveLamp_stack]
    refine riseLamp_withinCapacity ?_
    rw [State.formDemands_stack]
    exact judgeEscalation_withinCapacity h
  unfold State.evaluateLamp State.sampleLamp
  generalize (((s.judgeEscalation n).formDemands n).riseLamp n).driveLamp n = u at *
  split
  · exact setLampFault_withinCapacity driven
  · exact driven

theorem lampRound_withinCapacity {order opens : List (Fin 40)} (h : s.stack.withinCapacity) :
    (s.lampRound order opens).stack.withinCapacity := by
  unfold State.lampRound
  dsimp only
  rw [State.withLamps_stack]
  exact lamps_withinCapacity (fun _ _ h => evaluateLamp_withinCapacity h) h

/-! ## The odometer store and the speed unit (R54 to R57, R63 to R69) -/

theorem failStore_withinCapacity (h : s.stack.withinCapacity) : s.failStore.stack.withinCapacity := by
  unfold State.failStore
  dsimp only
  split
  · rw [State.finish_stack]
    exact post_withinCapacity h
  · exact post_withinCapacity h
  · exact post_withinCapacity h

theorem endCommit_stack (s : State) (fixed : Option Nat) (units : Nat) (ok : Bool) :
    (s.endCommit fixed units ok).stack = s.stack := by
  unfold State.endCommit State.odometerSet State.endOperation
  dsimp only
  repeat' split
  all_goals simp

theorem commitSignals_withinCapacity {ok : Bool} (h : s.stack.withinCapacity) :
    (s.commitSignals ok).stack.withinCapacity := by
  unfold State.commitSignals
  split_ifs
  · exact clear_withinCapacity h
  · exact h
  · exact h

theorem commitVerified_withinCapacity {fixed : Option Nat} {value units : Nat} {ok : Bool}
    (h : s.stack.withinCapacity) : (s.commitVerified fixed value units ok).stack.withinCapacity := by
  have signalled : ((s.withStore (s.store.verified value ok)).commitSignals ok).stack.withinCapacity :=
    commitSignals_withinCapacity h
  unfold State.commitVerified
  dsimp only
  generalize (s.withStore (s.store.verified value ok)).commitSignals ok = u at *
  split_ifs
  · rw [endCommit_stack]
    exact failStore_withinCapacity signalled
  · rw [endCommit_stack]
    exact signalled
  · exact signalled

theorem calibrated_withinCapacity {purpose : CalPurpose} {r : CalRecord} (h : s.stack.withinCapacity) :
    (s.calibrated purpose r).stack.withinCapacity := by
  cases purpose with
  | setK =>
    unfold State.calibrated
    dsimp only
    rw [State.raise_stack]
    split
    · exact h
    · exact forChannels_withinCapacity (fun _ _ h => sourceEvent_withinCapacity h) (clear_withinCapacity h)
  | lock | setOdometer => exact h

theorem calibrationFailed_stack (s : State) : s.calibrationFailed.stack = s.stack := by
  unfold State.calibrationFailed
  rw [State.finish_stack]
  rfl

theorem speedWindow_withinCapacity (h : s.stack.withinCapacity) : s.speedWindow.stack.withinCapacity := by
  have turn : ∀ s c, s.stack.withinCapacity → (State.speedReading s c).stack.withinCapacity := fun s c h => by
    unfold State.speedReading
    split
    · exact sourceEvent_withinCapacity h
    · exact h
  unfold State.speedWindow
  dsimp only
  split
  · exact evaluateHours_withinCapacity (forChannels_withinCapacity turn h)
  · exact forChannels_withinCapacity turn h

theorem speedEdge_stack (s : State) : s.speedEdge.stack = s.stack := by
  unfold State.speedEdge State.countPulse State.countEdge
  dsimp only
  repeat' split
  all_goals rfl

/-! ## Mode control (R159 to R164) -/

theorem enterStarting_withinCapacity {sweep : Bool} (h : s.stack.withinCapacity) :
    (s.enterStarting sweep).stack.withinCapacity := by
  unfold State.enterStarting
  dsimp only
  refine lamps_withinCapacity (fun _ _ h => setLampFault_withinCapacity h) ?_
  rw [State.withLamps_stack]
  refine forChannels_withinCapacity (fun _ _ h => arm_withinCapacity h) ?_
  exact forChannels_withinCapacity (fun _ _ h => startChannel_withinCapacity h) h

theorem enterParking_withinCapacity (h : s.stack.withinCapacity) : s.enterParking.stack.withinCapacity := by
  unfold State.enterParking
  dsimp only
  rw [State.judgeDormant_stack, State.withStore_stack, State.stopChime_stack]
  refine lamps_withinCapacity (fun _ _ h => dropRise_withinCapacity h) ?_
  rw [State.withLamps_stack]
  refine forChannels_withinCapacity (fun _ _ h => disarm_withinCapacity h) ?_
  refine forChannels_withinCapacity (fun _ _ h => parkChannel_withinCapacity h) ?_
  rw [State.setMode_stack]
  split
  · exact clear_withinCapacity h
  · exact h

theorem ignitionOn_withinCapacity (h : s.stack.withinCapacity) : s.ignitionOn.stack.withinCapacity := by
  unfold State.ignitionOn
  split
  · exact enterStarting_withinCapacity h
  · exact enterStarting_withinCapacity h
  all_goals exact h

theorem ignitionOff_withinCapacity (h : s.stack.withinCapacity) : s.ignitionOff.stack.withinCapacity := by
  unfold State.ignitionOff
  split
  · exact enterParking_withinCapacity h
  · exact enterParking_withinCapacity h
  · exact enterParking_withinCapacity h
  all_goals exact h

/-! ## The intake (R6 to R15) -/

theorem changeSlot_withinCapacity {i : Fin 64} {r : SlotRec} {reading : Bool} (h : s.stack.withinCapacity) :
    (s.changeSlot i r reading).stack.withinCapacity := by
  unfold State.changeSlot
  exact forChannels_withinCapacity (fun _ _ h => sourceEvent_withinCapacity h) h

theorem ageSlot_withinCapacity {i : Fin 64} (h : s.stack.withinCapacity) : (s.ageSlot i).stack.withinCapacity := by
  unfold State.ageSlot
  refine changeSlot_withinCapacity ?_
  split <;> exact h

theorem readSlot_withinCapacity {mid : List MidAccess} {i : Fin 64} (h : s.stack.withinCapacity) :
    (s.readSlot mid i).1.stack.withinCapacity := by
  have landed : (State.accessesAt mid (2 * i.val + 1) (State.accessesAt mid (2 * i.val) s)).stack.withinCapacity := by
    rw [State.accessesAt_stack, State.accessesAt_stack]
    exact h
  unfold State.readSlot
  dsimp only
  split_ifs
  · exact landed
  · exact changeSlot_withinCapacity landed
  · exact ageSlot_withinCapacity landed

theorem setHeartbeat_withinCapacity {beat : Heartbeat} (h : s.stack.withinCapacity) :
    (s.setHeartbeat beat).stack.withinCapacity := by
  unfold State.setHeartbeat State.enterLimp State.leaveLimp
  dsimp only
  split_ifs
  · exact post_withinCapacity h
  · exact h
  · exact clear_withinCapacity h
  · exact h
  · exact h

theorem scanSlot_withinCapacity {mid : List MidAccess} {i : Fin 64} (h : s.stack.withinCapacity) :
    (State.scanSlot mid s i).stack.withinCapacity := by
  unfold State.scanSlot
  dsimp only
  split
  · exact setHeartbeat_withinCapacity (readSlot_withinCapacity h)
  · exact readSlot_withinCapacity h

theorem scan_withinCapacity {mid : List MidAccess} (h : s.stack.withinCapacity) :
    (s.scan mid).stack.withinCapacity := by
  unfold State.scan State.evaluateDataFault
  rw [State.withIntake_stack]
  exact foldl_invariant _ (fun s => s.stack.withinCapacity) (fun _ _ h => scanSlot_withinCapacity h) allSlots s h

/-! ## Adoptions (R15, R38, R74) -/

theorem endLoad_stack (s : State) (k : TableKind) (r : Result) : (s.endLoad k r).stack = s.stack := by
  unfold State.endLoad
  rw [State.finish_stack, State.withTables_stack]

theorem slotsAdopted_withinCapacity {t : SlotsTable} (h : s.stack.withinCapacity) :
    (allSlots.foldl (State.adoptSlot t) s).stack.withinCapacity :=
  foldl_invariant _ (fun s => s.stack.withinCapacity) (fun _ _ h => changeSlot_withinCapacity h) allSlots s h

theorem rejudgeChannel_withinCapacity {c : Fin 8} {old new : GaugeEntry} (h : s.stack.withinCapacity) :
    (s.rejudgeChannel c old new).stack.withinCapacity := by
  unfold State.rejudgeChannel
  split
  case h_1 | h_2 =>
    split
    · exact h
    · exact enterState_withinCapacity h
  case h_3 =>
    split_ifs
    · exact enterState_withinCapacity h
    · exact h
    · exact enterState_withinCapacity h
  all_goals exact h

theorem adoptChannel_withinCapacity {old : Option GaugeTable} {t : GaugeTable} {c : Fin 8}
    (h : s.stack.withinCapacity) : (State.adoptChannel old t s c).stack.withinCapacity := by
  unfold State.adoptChannel
  split
  · split
    · have unhomed := enterState_withinCapacity (c := c) (st := .unhomed) h
      unfold State.enableChannel
      dsimp only
      split
      case h_1 | h_2 | h_3 | h_4 => exact enterHoming_withinCapacity unhomed
      all_goals exact unhomed
    · exact rejudgeChannel_withinCapacity h
  · exact enterWith_withinCapacity h

theorem adoptGauges_withinCapacity {t : GaugeTable} {i : Incoming} (h : s.stack.withinCapacity) :
    (s.adoptGauges t i).stack.withinCapacity := by
  have adopted : (((s.forChannels State.disarm).install .gauge i).forChannels
      (State.adoptChannel s.tables.gauge t)).stack.withinCapacity := by
    refine forChannels_withinCapacity (fun _ _ h => adoptChannel_withinCapacity h) ?_
    exact forChannels_withinCapacity (fun _ _ h => disarm_withinCapacity h) h
  unfold State.adoptGauges State.rearm
  dsimp only
  rw [State.judgeDormant_stack, State.judgeRunning_stack, endLoad_stack]
  split
  · exact forChannels_withinCapacity (fun _ _ h => arm_withinCapacity h) adopted
  · exact adopted

theorem lampsAdopted_withinCapacity {old : Option LampTable} {i : Incoming} (h : s.stack.withinCapacity) :
    (allLamps.foldl (State.adoptLamp old)
      ((allLamps.foldl State.dropRise s).install .lamp i)).stack.withinCapacity := by
  have dropped : (allLamps.foldl State.dropRise s).stack.withinCapacity :=
    lamps_withinCapacity (fun _ _ h => dropRise_withinCapacity h) h
  generalize allLamps.foldl State.dropRise s = u at *
  refine lamps_withinCapacity (fun v n h => ?_) dropped
  unfold State.adoptLamp
  exact lampFaultMessage_withinCapacity h

/-! ## The panel, the report pass and the end of INITIAL (R138, R150, R151, R156, R172) -/

theorem refreshPanel_withinCapacity (h : s.stack.withinCapacity) : s.refreshPanel.stack.withinCapacity := by
  unfold State.refreshPanel
  dsimp only
  split
  · exact h
  · exact Stack.display_withinCapacity h _

theorem clearPageTrip_stack (s : State) : s.clearPageTrip.stack = s.stack := by
  unfold State.clearPageTrip
  split <;> rfl

theorem pageKey_stack (s : State) (k : Key) (long : Bool) : (s.pageKey k long).stack = s.stack := by
  unfold State.pageKey
  split
  case h_3 => split <;> rfl
  case h_4 => exact clearPageTrip_stack s
  all_goals rfl

theorem indexKey_stack (s : State) (k : Key) (long : Bool) : (s.indexKey k long).stack = s.stack := by
  unfold State.indexKey
  split
  case h_4 => exact clearPageTrip_stack s
  all_goals rfl

theorem keyAction_withinCapacity {k : Key} {long : Bool} (h : s.stack.withinCapacity) :
    (s.keyAction k long).stack.withinCapacity := by
  unfold State.keyAction
  split
  · split
    · exact keyAcknowledge_withinCapacity h
    · exact h
  · split
    · rwa [indexKey_stack]
    · rwa [pageKey_stack]
  all_goals exact h

theorem keyEvent_withinCapacity {k : Key} {long : Bool} (h : s.stack.withinCapacity) :
    (s.keyEvent k long).stack.withinCapacity := by
  unfold State.keyEvent
  dsimp only
  split_ifs
  · exact keyAction_withinCapacity h
  · exact h
  · exact keyAction_withinCapacity h
  · exact h

theorem acceptRelease_withinCapacity {k : Key} (h : s.stack.withinCapacity) :
    (s.acceptRelease k).stack.withinCapacity := by
  unfold State.acceptRelease
  dsimp only
  split_ifs
  · exact h
  · exact keyEvent_withinCapacity h
  · exact h

theorem giveLong_withinCapacity {k : Key} (h : s.stack.withinCapacity) : (s.giveLong k).stack.withinCapacity := by
  unfold State.giveLong
  dsimp only
  split
  · exact keyEvent_withinCapacity h
  · exact h

theorem writePass_stack (mid : List MidAccess) (ws : List Word) (n : Nat) (s : State) :
    (State.writePass mid n ws s).stack = s.stack := by
  induction ws generalizing n s with
  | nil => rfl
  | cons w ws ih =>
    rw [State.writePass, ih]
    simp

theorem reportPass_stack (s : State) (mid : List MidAccess) : (s.reportPass mid).stack = s.stack :=
  writePass_stack mid _ 0 _

theorem postConditions_withinCapacity (h : s.stack.withinCapacity) : s.postConditions.stack.withinCapacity := by
  have posted : ∀ (b : Bool) (u : State) (id : Identity), u.stack.withinCapacity →
      (if b = true then u.post id .amber else u).stack.withinCapacity := fun b u id h => by
    split
    · exact post_withinCapacity h
    · exact h
  unfold State.postConditions
  exact posted _ _ _ (posted _ _ _ (posted _ _ _ h))

theorem leaveInitial_withinCapacity (h : s.stack.withinCapacity) : s.leaveInitial.stack.withinCapacity := by
  unfold State.leaveInitial
  dsimp only
  exact refreshPanel_withinCapacity (evaluateHours_withinCapacity (postConditions_withinCapacity h))

end Sys2Proof.Machine
end

section
/-! The settling of O5. Every command and the time base keep the capacity of the message stack (R121, R122). -/

namespace Sys2Proof.Machine

/-! ## Orders -/

theorem closeOrder_stack (r : State × OrderEnd) : (State.closeOrder r).stack = r.1.stack := by
  obtain ⟨s, fin⟩ := r
  cases fin with
  | ended res detail => exact State.finish_stack s res detail
  | holds h => rfl

theorem runOrder_withinCapacity {s : State} {o : Order} {body : State → List Word → State × OrderEnd}
    (before : s.stack.withinCapacity) (after : ∀ args, (body s args).1.stack.withinCapacity) :
    (s.runOrder o body).stack.withinCapacity := by
  unfold State.runOrder
  split
  · exact before
  · split
    · rw [closeOrder_stack]
      exact after _
    · exact before

theorem loadTableBody_stack (s : State) (args : List Word) : (loadTableBody s args).1.stack = s.stack := by
  unfold loadTableBody State.takeImage
  dsimp only
  repeat' split
  all_goals rfl

theorem setAttentionMaskBody_stack (s : State) (args : List Word) :
    (setAttentionMaskBody s args).1.stack = s.stack := by
  unfold setAttentionMaskBody
  dsimp only
  split <;> rfl

theorem copyOutBody_stack (s : State) (args : List Word) : (copyOutBody s args).1.stack = s.stack := by
  unfold copyOutBody
  dsimp only
  repeat' split
  all_goals rfl

theorem setKFactorBody_stack (s : State) (args : List Word) : (setKFactorBody s args).1.stack = s.stack := by
  unfold setKFactorBody
  dsimp only
  split_ifs <;> rfl

theorem setOdometerBody_stack (s : State) (args : List Word) : (setOdometerBody s args).1.stack = s.stack := by
  unfold setOdometerBody
  split_ifs <;> rfl

theorem lockCalibrationBody_stack (s : State) (args : List Word) : (lockCalibrationBody s args).1.stack = s.stack := by
  unfold lockCalibrationBody
  split
  · rfl
  · split <;> rfl

theorem resetTripBody_stack (s : State) (args : List Word) : (resetTripBody s args).1.stack = s.stack := by
  unfold resetTripBody
  split <;> rfl

theorem selectPageBody_stack (s : State) (args : List Word) : (selectPageBody s args).1.stack = s.stack := by
  unfold selectPageBody
  dsimp only
  split <;> rfl

theorem writeWords_stack (s : State) (a : Nat) (ws : List Word) : (s.writeWords a ws).stack = s.stack := by
  induction ws generalizing s a with
  | nil => rfl
  | cons w ws ih => exact (ih _ _).trans (State.writeXm_stack s a w)

theorem takeKeysBody_stack (s : State) (args : List Word) : (takeKeysBody s args).1.stack = s.stack := by
  unfold takeKeysBody
  dsimp only
  split
  · rfl
  · exact writeWords_stack _ _ _

theorem testLampsBody_stack (s : State) (args : List Word) : (testLampsBody s args).1.stack = s.stack := by
  unfold testLampsBody
  dsimp only
  split_ifs <;> rfl

section
variable {s : State} {args : List Word}

theorem startBody_withinCapacity (h : s.stack.withinCapacity) : (startBody s args).1.stack.withinCapacity := by
  have started : (if s.mode.ignition then s.enterStarting true else s.setMode .dormant).stack.withinCapacity := by
    split
    · exact enterStarting_withinCapacity h
    · exact h
  unfold startBody
  split
  · exact h
  · split
    · exact started
    · exact h

theorem setTimeBody_withinCapacity (h : s.stack.withinCapacity) : (setTimeBody s args).1.stack.withinCapacity := by
  unfold setTimeBody
  dsimp only
  split
  · exact h
  · exact evaluateHours_withinCapacity h

theorem cardInBody_withinCapacity (h : s.stack.withinCapacity) : (cardInBody s args).1.stack.withinCapacity := by
  refine hoursOrder_keeps (P := fun s => s.stack.withinCapacity) _ h fun slot => ?_
  dsimp only
  split_ifs
  · exact h
  · exact h
  · exact h
  · exact acceptHours_withinCapacity h

theorem cardOutBody_withinCapacity (h : s.stack.withinCapacity) : (cardOutBody s args).1.stack.withinCapacity := by
  refine hoursOrder_keeps (P := fun s => s.stack.withinCapacity) _ h fun slot => ?_
  dsimp only
  split
  · exact h
  · split
    · exact h
    · exact acceptHours_withinCapacity h

theorem activityBody_withinCapacity (h : s.stack.withinCapacity) : (activityBody s args).1.stack.withinCapacity := by
  refine hoursOrder_keeps (P := fun s => s.stack.withinCapacity) _ h fun slot => ?_
  dsimp only
  split
  · exact h
  · exact h
  · split
    · exact h
    · split_ifs
      · exact h
      · exact h
      · exact h
      · exact acceptHours_withinCapacity h
      · exact acceptHours_withinCapacity h

theorem postMessageBody_withinCapacity (h : s.stack.withinCapacity) :
    (postMessageBody s args).1.stack.withinCapacity := by
  unfold postMessageBody State.hostPost
  split
  · split
    · exact h
    · dsimp only
      split
      · exact h
      · exact Stack.offerSettled_withinCapacity h _ _
  · exact h

theorem clearMessageBody_withinCapacity (h : s.stack.withinCapacity) :
    (clearMessageBody s args).1.stack.withinCapacity := by
  unfold clearMessageBody
  dsimp only
  split
  · exact clear_withinCapacity h
  · exact h

theorem ackMessageBody_withinCapacity (h : s.stack.withinCapacity) :
    (ackMessageBody s args).1.stack.withinCapacity := by
  unfold ackMessageBody
  split
  · exact h
  · dsimp only
    split
    · exact h
    · exact acknowledge_withinCapacity h

end

/-! ## Commands -/

/-- A command answers a next state whose stack keeps the capacity. -/
def KeepsCapacity (c : Instr) : Prop :=
  ∀ s, s.stack.withinCapacity → ∃ t, exec c s = .next t ∧ t.stack.withinCapacity

namespace KeepsCapacity
variable {c : Instr} {f : State → State}

theorem of_keeps (runs : ∀ s, exec c s = .next (f s))
    (keeps : ∀ s, s.stack.withinCapacity → (f s).stack.withinCapacity) : KeepsCapacity c :=
  fun s h => ⟨f s, runs s, keeps s h⟩

/-- A command whose event leaves the stack as it is. -/
theorem of_stack (runs : ∀ s, exec c s = .next (f s)) (same : ∀ s, (f s).stack = s.stack) : KeepsCapacity c :=
  of_keeps runs fun s h => (same s).symm ▸ h

/-- A command whose event does not occur where a condition holds. -/
theorem of_unless {p : State → Prop} [∀ s, Decidable (p s)] (runs : ∀ s, exec c s = .next (if p s then s else f s))
    (keeps : ∀ s, s.stack.withinCapacity → (f s).stack.withinCapacity) : KeepsCapacity c :=
  of_keeps runs fun s h => by
    split
    · exact h
    · exact keeps s h

/-- A command whose event occurs where a condition holds. -/
theorem of_when {p : State → Prop} [∀ s, Decidable (p s)] (runs : ∀ s, exec c s = .next (if p s then f s else s))
    (keeps : ∀ s, s.stack.withinCapacity → (f s).stack.withinCapacity) : KeepsCapacity c :=
  of_keeps runs fun s h => by
    split
    · exact keeps s h
    · exact h

theorem of_order {o : Order} {body : State → List Word → State × OrderEnd}
    (runs : ∀ s, exec c s = .next (s.runOrder o body))
    (keeps : ∀ s args, s.stack.withinCapacity → (body s args).1.stack.withinCapacity) : KeepsCapacity c :=
  of_keeps runs fun s h => runOrder_withinCapacity h fun args => keeps s args h

/-- An order whose body leaves the stack as it is. -/
theorem of_order_stack {o : Order} {body : State → List Word → State × OrderEnd}
    (runs : ∀ s, exec c s = .next (s.runOrder o body)) (same : ∀ s args, (body s args).1.stack = s.stack) :
    KeepsCapacity c :=
  of_order runs fun s args h => (same s args).symm ▸ h

end KeepsCapacity

open KeepsCapacity

theorem endOrder_keepsCapacity : KeepsCapacity .endOrder :=
  of_stack (fun _ => rfl) fun s => by split <;> simp

theorem slotsTableAdoption_keepsCapacity : KeepsCapacity .slotsTableAdoption :=
  of_keeps (fun _ => rfl) fun s h => by
    split
    · rw [endLoad_stack, State.adoptHeartbeat, State.withIntake_stack]
      exact slotsAdopted_withinCapacity h
    · exact h

theorem gaugeTableAdoption_keepsCapacity : KeepsCapacity .gaugeTableAdoption :=
  of_keeps (fun _ => rfl) fun s h => by
    split
    · split
      · rwa [endLoad_stack]
      · exact adoptGauges_withinCapacity h
    · exact h

theorem lampTableAdoption_keepsCapacity : KeepsCapacity .lampTableAdoption :=
  of_keeps (fun _ => rfl) fun s h => by
    split
    · rw [endLoad_stack]
      exact lampsAdopted_withinCapacity h
    · exact h

theorem panelTableAdoption_keepsCapacity : KeepsCapacity .panelTableAdoption :=
  of_stack (fun _ => rfl) fun s => by
    split
    · rw [endLoad_stack]
      rfl
    · rfl

theorem glyphTableAdoption_keepsCapacity : KeepsCapacity .glyphTableAdoption :=
  of_stack (fun _ => rfl) fun s => by
    split
    · rw [endLoad_stack]
      rfl
    · rfl

theorem rulesTableAdoption_keepsCapacity : KeepsCapacity .rulesTableAdoption :=
  of_keeps (fun _ => rfl) fun s h => by
    split
    · rw [endLoad_stack]
      exact evaluateHours_withinCapacity h
    · exact h

theorem copyOutSnapshot_keepsCapacity : KeepsCapacity .copyOutSnapshot :=
  of_stack (fun _ => rfl) fun s => by
    split
    · rw [State.finish_stack, writeWords_stack]
    all_goals rfl

theorem sectorEraseDone_keepsCapacity : KeepsCapacity .sectorEraseDone :=
  of_stack (fun _ => rfl) fun s => by split <;> simp

theorem commitVerifyDone_keepsCapacity (ok : Bool) : KeepsCapacity (.commitVerifyDone ok) :=
  of_keeps (fun _ => rfl) fun s h => by
    split
    · rw [State.judgeDormant_stack]
      exact commitVerified_withinCapacity h
    all_goals exact h

theorem calibrationWriteDone_keepsCapacity (ok : Bool) : KeepsCapacity (.calibrationWriteDone ok) :=
  of_keeps (fun _ => rfl) fun s h => by
    split
    · split_ifs
      · rw [State.judgeDormant_stack, State.finish_stack]
        exact calibrated_withinCapacity h
      · exact h
      · rwa [State.judgeDormant_stack, calibrationFailed_stack]
    all_goals exact h

theorem restoreDone_keepsCapacity (ok : Bool) : KeepsCapacity (.restoreDone ok) :=
  of_stack (fun _ => rfl) fun s => by
    split
    · rw [State.judgeDormant_stack]
      split <;> simp [calibrationFailed_stack]
    all_goals rfl

theorem homingEnd_keepsCapacity (c : Fin 8) : KeepsCapacity (.homingEnd c) :=
  of_keeps (fun _ => rfl) fun s h => by
    split
    · exact h
    · split
      · rw [State.judgeDormant_stack, State.judgeRunning_stack]
        exact endHoming_withinCapacity h
      · exact h

theorem holdTimeExpired_keepsCapacity (c : Fin 8) : KeepsCapacity (.holdTimeExpired c) :=
  of_keeps (fun _ => rfl) fun s h => by
    split
    · exact h
    · split
      · exact enterWith_withinCapacity h
      · exact h

theorem gaugeUpdate_keepsCapacity (order : List (Fin 8)) : KeepsCapacity (.gaugeUpdate order) :=
  of_unless (fun _ => rfl) fun s h => by
    rw [State.judgeDormant_stack, State.judgeRunning_stack]
    exact foldl_invariant _ (fun s => s.stack.withinCapacity) (fun _ _ h => updateChannel_withinCapacity h) _ s h

theorem speedWindow_keepsCapacity (us : Nat) : KeepsCapacity (.speedWindow us) :=
  of_keeps (fun _ => rfl) fun s h => by
    split
    · exact h
    · exact speedWindow_withinCapacity h

theorem emptyStack_withinCapacity : Stack.reset.withinCapacity :=
  ⟨by decide, by decide, by decide, fun e he => absurd he (List.not_mem_nil (a := e))⟩

theorem resetCauseEnd_keepsCapacity : KeepsCapacity .resetCauseEnd :=
  of_when (fun _ => rfl) fun _ _ => emptyStack_withinCapacity

theorem keepsCapacity (c : Instr) : KeepsCapacity c := by
  cases c with
  | powerOnReset => exact of_keeps (fun _ => rfl) fun _ _ => emptyStack_withinCapacity
  | hardReset => exact of_keeps (fun _ => rfl) fun _ _ => emptyStack_withinCapacity
  | resetCauseEnd => exact resetCauseEnd_keepsCapacity
  | initialEnd mid =>
    exact of_when (fun _ => rfl) fun s h => by
      rw [reportPass_stack]
      exact leaveInitial_withinCapacity h
  | wctlWrite | wadrWrite | wdatRead | wdatWrite | causeWrite | handOver | withdraw =>
    exact of_stack (fun _ => rfl) fun s => State.access_stack s _
  | registerWriteOther => exact of_stack (fun _ => rfl) fun _ => rfl
  | endOrder => exact endOrder_keepsCapacity
  | loadTable => exact of_order_stack (fun _ => rfl) loadTableBody_stack
  | slotsTableAdoption => exact slotsTableAdoption_keepsCapacity
  | gaugeTableAdoption => exact gaugeTableAdoption_keepsCapacity
  | lampTableAdoption => exact lampTableAdoption_keepsCapacity
  | panelTableAdoption => exact panelTableAdoption_keepsCapacity
  | glyphTableAdoption => exact glyphTableAdoption_keepsCapacity
  | rulesTableAdoption => exact rulesTableAdoption_keepsCapacity
  | start => exact of_order (fun _ => rfl) fun _ _ => startBody_withinCapacity
  | setAttentionMask => exact of_order_stack (fun _ => rfl) setAttentionMaskBody_stack
  | copyOut => exact of_order_stack (fun _ => rfl) copyOutBody_stack
  | copyOutSnapshot => exact copyOutSnapshot_keepsCapacity
  | setTime => exact of_order (fun _ => rfl) fun _ _ => setTimeBody_withinCapacity
  | cardIn => exact of_order (fun _ => rfl) fun _ _ => cardInBody_withinCapacity
  | cardOut => exact of_order (fun _ => rfl) fun _ _ => cardOutBody_withinCapacity
  | activity => exact of_order (fun _ => rfl) fun _ _ => activityBody_withinCapacity
  | setKFactor => exact of_order_stack (fun _ => rfl) setKFactorBody_stack
  | setOdometer => exact of_order_stack (fun _ => rfl) setOdometerBody_stack
  | lockCalibration => exact of_order_stack (fun _ => rfl) lockCalibrationBody_stack
  | resetTrip => exact of_order_stack (fun _ => rfl) resetTripBody_stack
  | postMessage => exact of_order (fun _ => rfl) fun _ _ => postMessageBody_withinCapacity
  | clearMessage => exact of_order (fun _ => rfl) fun _ _ => clearMessageBody_withinCapacity
  | ackMessage => exact of_order (fun _ => rfl) fun _ _ => ackMessageBody_withinCapacity
  | selectPage => exact of_order_stack (fun _ => rfl) selectPageBody_stack
  | takeKeys => exact of_order_stack (fun _ => rfl) takeKeysBody_stack
  | testLamps => exact of_order_stack (fun _ => rfl) testLampsBody_stack
  | sectorEraseDone => exact sectorEraseDone_keepsCapacity
  | commitVerifyDone ok => exact commitVerifyDone_keepsCapacity ok
  | calibrationWriteDone ok => exact calibrationWriteDone_keepsCapacity ok
  | restoreDone ok => exact restoreDone_keepsCapacity ok
  | speedEdge us => exact of_stack (fun _ => rfl) fun s => speedEdge_stack _
  | speedWindow us => exact speedWindow_keepsCapacity us
  | movingSet => exact of_when (fun _ => rfl) fun _ h => evaluateHours_withinCapacity h
  | intakeScan mid => exact of_unless (fun _ => rfl) fun _ h => scan_withinCapacity h
  | slotStale slot => exact of_when (fun _ => rfl) fun _ h => ageSlot_withinCapacity h
  | heartbeatLost => exact of_when (fun _ => rfl) fun _ h => setHeartbeat_withinCapacity h
  | gaugeUpdate order => exact gaugeUpdate_keepsCapacity order
  | homingEnd channel => exact homingEnd_keepsCapacity channel
  | holdTimeExpired channel => exact holdTimeExpired_keepsCapacity channel
  | lampEvaluation order opens =>
    exact of_unless (fun _ => rfl) fun _ h => by
      rw [State.judgeRunning_stack]
      exact lampRound_withinCapacity h
  | overcurrent lamp => exact of_when (fun _ => rfl) fun _ h => setLampFault_withinCapacity h
  | shortWaitEnd lamp => exact of_when (fun _ => rfl) fun _ h => setLampFault_withinCapacity h
  | bulbCheckOver => exact of_stack (fun _ => rfl) fun s => by split <;> simp
  | lampTestEnd | flashEdge => exact of_stack (fun _ => rfl) fun s => by split <;> rfl
  | singleEnd | clickEnd | continuousToneEdge => exact of_stack (fun _ => rfl) fun s => by split <;> rfl
  | minuteDue => exact of_when (fun _ => rfl) fun _ h => minuteDue_withinCapacity h
  | stackTick => exact of_unless (fun _ => rfl) fun _ h => Stack.tick_withinCapacity h
  | shownTimeExpired => exact of_unless (fun _ => rfl) fun _ h => Stack.expire_withinCapacity h _
  | panelRefresh => exact of_unless (fun _ => rfl) fun _ h => refreshPanel_withinCapacity h
  | keyInput => exact of_stack (fun _ => rfl) fun _ => rfl
  | acceptedPress => exact of_stack (fun _ => rfl) fun s => by dsimp only; split <;> rfl
  | acceptedRelease => exact of_keeps (fun _ => rfl) fun _ h => acceptRelease_withinCapacity h
  | longKeyEvent => exact of_keeps (fun _ => rfl) fun _ h => giveLong_withinCapacity h
  | reportRefresh mid => exact of_stack (fun _ => rfl) fun s => by split <;> simp [reportPass_stack]
  | ignInput => exact of_stack (fun _ => rfl) fun _ => rfl
  | ignitionOnEvent => exact of_when (fun _ => rfl) fun _ h => ignitionOn_withinCapacity h
  | ignitionOffEvent => exact of_when (fun _ => rfl) fun _ h => ignitionOff_withinCapacity h

/-- Settles O5: every command keeps the capacity, and the time base leaves the stack as it is. -/
theorem stepKeepsStackWithinCapacity : Obligations.StepKeepsStackWithinCapacity := by
  intro s t h runs
  unfold step at runs
  split at runs
  · obtain rfl := Host.Outcome.next.inj runs
    exact h
  · rename_i c rest _
    obtain ⟨u, next, kept⟩ := keepsCapacity c (s.withPending rest) h
    obtain rfl := Host.Outcome.next.inj (runs.symm.trans next)
    exact kept

end Sys2Proof.Machine
end

section
/-! SUPPORT. What an event of the message stack gives the part, and what a change of one entry leaves (R126, R127, R130,
R131, R134). -/

namespace Sys2Proof.Machine

/-! ## An event of the stack within the part (R121, R134) -/

theorem takeStack_frame (s : State) (r : Stack × List Severity) : onlyMessages s (s.takeStack r) :=
  (onlyMessages_iff _ _).2 (by simp)

/-- Without an arrival and without a change nothing happens. -/
theorem takeStack_unchanged (s : State) : s.takeStack (s.stack, []) = s := by
  have same : s.stack.changed s.stack = false := by simp [Stack.changed]
  unfold State.takeStack
  rw [same]
  cases s
  simp [Chime.arrivals]

theorem takeStack_chime_of_quiet (s : State) (k : Stack) : (s.takeStack (k, [])).chime = s.chime := by
  simp [State.takeStack, Chime.arrivals]

/-- Where the number of entries is another, an entry has come or gone. -/
theorem pends_takeStack_of_length {s : State} {r : Stack × List Severity}
    (other : r.1.entries.length ≠ s.stack.entries.length) : pends (s.takeStack r) .messageChange := by
  have keys : s.stack.keys ≠ r.1.keys := fun same => other (by simpa [Stack.keys] using (congrArg List.length same).symm)
  have changed : (s.stack.changed r.1 || !r.2.isEmpty) = true := by
    rw [Stack.changed, bne_iff_ne.2 keys]
    rfl
  rw [pends, State.takeStack, if_pos changed, bit_raise]
  simp

/-! ## The end of an event (R125) -/

theorem Stack.retry_of_idle {k : Stack} (idle : k.waiting = []) : k.retry = (k, []) := by
  simp [Stack.retry, idle]

/-- With no identity in the pending list a retry finds nothing to offer. -/
theorem Stack.settle_of_idle {k : Stack} (idle : k.waiting = []) (rings : List Severity) (again : Bool) :
    k.settle rings again = (k, rings) := by
  unfold Stack.settle
  split
  · rw [Stack.retry_of_idle idle, List.append_nil]
  · rfl

/-! ## One entry changed (R126, R127, R130, R131) -/

theorem Stack.find_drop_of_ne (k : Stack) {id other : Identity} (ne : other ≠ id) :
    (k.drop id).find other = k.find other := by
  unfold Stack.find Stack.drop
  rw [List.find?_filter]
  congr 1
  funext e
  by_cases same : e.id = other
  · simp [same, ne]
  · simp [same]

/-- What is found is still found where others leave. -/
theorem find_filter_of_kept {α : Type} {l : List α} {p q : α → Bool} {x : α} (found : l.find? q = some x)
    (kept : p x = true) : (l.filter p).find? q = some x := by
  obtain ⟨hit, before, behind, rfl, misses⟩ := List.find?_eq_some_iff_append.1 found
  rw [List.find?_filter, List.find?_eq_some_iff_append]
  exact ⟨by simp [hit, kept], before, behind, rfl, fun a ha => by simp [show q a = false by simpa using misses a ha]⟩

theorem Stack.find_drop_self (k : Stack) (id : Identity) : (k.drop id).find id = none :=
  Stack.find_eq_none_iff.2 fun e he => by simpa using (List.mem_filter.1 he).2

section
variable {k : Stack} {id : Identity} {f : Entry → Entry} (keeps : ∀ e, (f e).id = e.id)
include keeps

theorem Stack.drop_change : ((k.change id f).drop id).entries = (k.drop id).entries := by
  refine Eq.trans ?_ (filter_map_at keeps k.entries)
  unfold Stack.drop Stack.change
  rw [List.filter_filter]
  refine List.filter_congr fun e _ => ?_
  by_cases same : e.id = id <;> simp [same]

theorem Stack.find_change_of_ne {other : Identity} (ne : other ≠ id) : (k.change id f).find other = k.find other := by
  rw [← Stack.find_drop_of_ne (k.change id f) ne, ← Stack.find_drop_of_ne k ne]
  exact congrArg (fun es => es.find? fun e => e.id == other) (Stack.drop_change keeps)

theorem Stack.find_change_of_stays {e : Entry} (found : k.find id = some e) (stays : (f e).gone = false) :
    (k.change id f).find id = some (f e) := by
  have held := (Stack.find_some found).2
  have mapped : (k.entries.map fun e => if e.id = id then f e else e).find? (fun e => e.id == id) = some (f e) := by
    rw [Stack.find_map _ (fun e => by split <;> simp [keeps]), show k.entries.find? _ = some e from found,
      Option.map_some, if_pos held]
  exact find_filter_of_kept mapped (by simp [stays])

theorem Stack.change_of_gone (single : k.single) {e : Entry} (found : k.find id = some e) (gone : (f e).gone = true) :
    k.change id f = k.drop id := by
  refine congrArg (fun es => { k with entries := es }) (Eq.trans ?_ (filter_map_at keeps k.entries))
  refine List.filter_congr fun x hx => ?_
  obtain ⟨b, hb, rfl⟩ := List.mem_map.1 hx
  by_cases same : b.id = id
  · have : b = e := Option.some.inj ((same ▸ Stack.find_of_mem single hb).symm.trans found)
    subst this
    simp [same, keeps, gone]
  · rw [if_neg same, bne, beq_eq_false_iff_ne.2 same]
    rfl

theorem Stack.find_change_of_gone (single : k.single) {e : Entry} (found : k.find id = some e)
    (gone : (f e).gone = true) : (k.change id f).find id = none := by
  rw [Stack.change_of_gone keeps single found gone]
  exact Stack.find_drop_self k id

theorem Stack.length_change_of_gone {e : Entry} (found : k.find id = some e) (gone : (f e).gone = true) :
    (k.change id f).entries.length < k.entries.length := by
  obtain ⟨held, same⟩ := Stack.find_some found
  have fewer := List.length_filter_lt_length_iff_exists
    (p := fun e : Entry => !(e.id == id && e.gone)) (l := k.entries.map fun e => if e.id = id then f e else e)
  rw [List.length_map] at fewer
  exact fewer.2 ⟨f e, List.mem_map.2 ⟨e, held, if_pos same⟩, by simp [keeps, same, gone]⟩

end

end Sys2Proof.Machine
end

section
/-! The settling of O33. STACK_TICK and SHOWN_TIME_EXPIRED: the shown time steps, and an INFO entry whose time has run out
leaves (R127, R134). -/

namespace Sys2Proof.Machine

/-- An entry that R127 removes at a step: shown to its end, inactive and INFO. -/
theorem age_gone_iff (b : Entry) : (b.age.state == .shown && b.age.gone) = true ↔
    b.state = .shown ∧ b.active = false ∧ b.severity = .info ∧ 4900 ≤ b.shownTime := by
  by_cases shown : b.state = .shown
  · have full : 5000 ≤ min (b.shownTime + 100) 5000 ↔ 4900 ≤ b.shownTime := by omega
    simp only [Entry.age, Entry.gone, shown, if_true, Bool.and_eq_true, Bool.not_eq_true', beq_iff_eq,
      decide_eq_true_eq, full, true_and, beq_self_eq_true]
  · simp [Entry.age, shown]

theorem Stack.tick_of_idle {k : Stack} (idle : k.waiting = []) : k.tick =
    ({ k with entries := (k.entries.map Entry.age).filter fun e => !(e.state == .shown && e.gone) }, []) := by
  refine Stack.settle_of_idle ?_ _ _
  exact idle

theorem Stack.mem_tick_iff {k : Stack} (idle : k.waiting = []) (e : Entry) : e ∈ k.tick.1.entries ↔
    ∃ b ∈ k.entries, e = b.age ∧
      ¬(b.state = .shown ∧ b.active = false ∧ b.severity = .info ∧ 4900 ≤ b.shownTime) := by
  rw [Stack.tick_of_idle idle, List.mem_filter, List.mem_map]
  constructor
  · rintro ⟨⟨b, held, rfl⟩, stays⟩
    refine ⟨b, held, rfl, fun out => ?_⟩
    rw [(age_gone_iff b).2 out] at stays
    exact nomatch stays
  · rintro ⟨b, held, rfl, stays⟩
    exact ⟨⟨b, held, rfl⟩, by rw [Bool.eq_false_iff.2 fun out => stays ((age_gone_iff b).1 out)]; rfl⟩

/-- The shown time of an entry stands at its end. -/
def Entry.shownOut (e : Entry) : Entry := { e with shownTime := 5000 }

theorem shownOut_id (e : Entry) : e.shownOut.id = e.id := rfl

theorem shownOut_gone {b : Entry} (shown : b.state = .shown) :
    b.shownOut.gone = true ↔ b.active = false ∧ b.severity = .info := by
  simp [Entry.shownOut, Entry.gone, shown]

theorem Stack.expire_of_idle {k : Stack} (idle : k.waiting = []) {id : Identity} {b : Entry}
    (found : k.find id = some b) (shown : b.state = .shown) (late : 4900 ≤ b.shownTime) (early : b.shownTime < 5000) :
    k.expire id = (k.change id Entry.shownOut, []) := by
  have expires : (k.find id).any Entry.expires = true := by
    simp [found, Entry.expires, shown, late, early]
  have unchanged : (k.change id Entry.shownOut).waiting = [] := idle
  rw [Stack.expire, if_pos expires]
  exact Stack.settle_of_idle unchanged _ _

/-- Settles O33: the step takes every entry of the stack by R127, and the expiry one entry. -/
theorem shownTimeStepsAndExpires : Obligations.ShownTimeStepsAndExpires := by
  intro s awake idle
  refine ⟨⟨s.takeStack s.stack.tick, congrArg Host.Outcome.next (if_neg awake), takeStack_frame _ _, ?_, ?_, ?_⟩, ?_⟩
  · rw [Stack.tick_of_idle idle, takeStack_chime_of_quiet]
  · rw [Stack.tick_of_idle idle]
    rfl
  · exact Stack.mem_tick_iff idle
  · intro code origin arg b found shown late early capacity
    obtain ⟨_, same⟩ := Stack.find_some found
    have expired := Stack.expire_of_idle idle found shown late early
    have runs : exec (.shownTimeExpired code origin arg) s =
        .next (s.takeStack (s.stack.change ⟨code, origin, arg⟩ Entry.shownOut, [])) := by
      rw [← expired]
      exact congrArg Host.Outcome.next (if_neg awake)
    rw [← same] at found runs
    refine ⟨_, runs, takeStack_frame _ _, takeStack_chime_of_quiet _ _, fun other ne => ?_, fun stays => ?_,
      fun inactive info => ?_⟩
    · exact Stack.find_change_of_ne shownOut_id ne
    · refine Stack.find_change_of_stays shownOut_id found (Bool.eq_false_iff.2 fun gone => ?_)
      obtain ⟨inactive, info⟩ := (shownOut_gone shown).1 gone
      exact stays.elim (by simp [inactive]) fun other => other info
    · have gone := (shownOut_gone shown).2 ⟨inactive, info⟩
      refine ⟨?_, pends_takeStack_of_length ?_⟩
      · exact Stack.find_change_of_gone shownOut_id (single_of_withinCapacity capacity) found gone
      · exact (Stack.length_change_of_gone shownOut_id found gone).ne

end Sys2Proof.Machine
end

section
/-! SUPPORT. A post, case by case: what the stack makes of an identity that it holds and of one that it does not, and what
the order answers (R121 to R125, R132). -/

namespace Sys2Proof.Machine

/-! ## Arrivals (R121) -/

@[simp] theorem Stack.arrive_waiting (k : Stack) (id : Identity) (sev : Severity) :
    (k.arrive id sev).waiting = k.waiting := by
  unfold Stack.arrive Stack.bump
  split <;> rfl

/-- An arrival that the counter has a number for. -/
theorem Stack.arrive_of_counts {k : Stack} (counts : k.counter < max32) (id : Identity) (sev : Severity) :
    k.arrive id sev = { k with
      entries := k.entries.filter (fun e => e.id != id) ++ [⟨id, sev, .new, true, k.counter + 1, 0⟩]
      counter := k.counter + 1 } := by
  unfold Stack.arrive Stack.bump
  rw [if_pos counts]
  rfl

theorem Stack.arrive_of_absent {k : Stack} (counts : k.counter < max32) {id : Identity} (absent : k.find id = none)
    (sev : Severity) : k.arrive id sev = { k with
      entries := k.entries ++ [⟨id, sev, .new, true, k.counter + 1, 0⟩], counter := k.counter + 1 } := by
  rw [Stack.arrive_of_counts counts]
  exact congrArg (fun es => (⟨es ++ _, _, _⟩ : Stack)) (congrArg Stack.entries (Stack.drop_of_find_none absent))

/-- An arrival at the counter's end comes after a renumbering. -/
theorem Stack.arrive_renumberedFor {k : Stack} (full : max32 ≤ k.counter) (id : Identity) (sev : Severity) :
    k.renumberedFor (k.arrive id sev) id sev := by
  have bump : k.bump = { k with entries := renumber k.entries, counter := k.entries.length + 1 } :=
    if_neg (Nat.not_lt.2 full)
  unfold Stack.arrive
  rw [bump]
  refine ⟨rfl, ?_, fun b held ne => ?_, fun b held same => ?_⟩
  · have kept : (renumber k.entries).map Entry.id = k.entries.map Entry.id := by simp [renumber]
    dsimp only [Stack.drop]
    rw [List.map_append, ← kept, List.filter_map]
    rfl
  · exact List.mem_append_left _ (List.mem_filter.2 ⟨List.mem_map.2 ⟨b, held, rfl⟩, by simpa using ne⟩)
  · rcases List.mem_append.1 held with old | new
    · exact absurd same (by simpa using (List.mem_filter.1 old).2)
    · exact List.mem_singleton.1 new

/-! ## The room that a post finds (R122, R123) -/

/-- The stack once it has a place for an identity that it does not hold. -/
def Stack.roomFor (k : Stack) (id : Identity) (sev : Severity) : Option Stack :=
  if sev = .red then k.makeRedRoom (id.origin != .link) else k.makeNonRedRoom id true

theorem Stack.roomFor_of_free {k : Stack} {id : Identity} {sev : Severity} (length : k.entries.length < 16)
    (nonRed : sev ≠ .red → k.nonRedCount < 12) : k.roomFor id sev = some k := by
  unfold Stack.roomFor
  split
  · exact if_pos length
  · rename_i ne
    exact if_pos ⟨nonRed ne, fun _ => length⟩

/-- The stack once a held entry has a place with another severity. -/
def Stack.roomToKeep (k : Stack) (e : Entry) (sev : Severity) : Option Stack :=
  if e.severity = .red ∧ sev ≠ .red then k.makeNonRedRoom e.id false else some k

theorem Stack.roomToKeep_of_free {k : Stack} {e : Entry} {sev : Severity}
    (lowered : e.severity = .red → sev ≠ .red → k.nonRedCount < 12) : k.roomToKeep e sev = some k := by
  unfold Stack.roomToKeep
  split
  · rename_i low
    exact if_pos ⟨lowered low.1 low.2, fun adding => nomatch adding⟩
  · rfl

/-! ## The offer (R121) -/

section
variable {k k' : Stack} {id : Identity} {sev : Severity} {e : Entry}

theorem Stack.offer_of_room (absent : k.find id = none) (room : k.roomFor id sev = some k') :
    k.offer id sev = (k'.arrive id sev, .added) := by
  unfold Stack.roomFor at room
  simp only [Stack.offer, absent, room]

theorem Stack.offer_of_noRoom (absent : k.find id = none) (room : k.roomFor id sev = none) :
    k.offer id sev = (k, .noRoom) := by
  unfold Stack.roomFor at room
  simp only [Stack.offer, absent, room]

theorem Stack.offer_of_same (found : k.find id = some e) (active : e.active = true) (same : e.severity = sev) :
    k.offer id sev = (k, .unchanged) := by
  simp [Stack.offer, found, active, same]

theorem Stack.offer_of_other (found : k.find id = some e) (active : e.active = true) (other : e.severity ≠ sev)
    (room : k.roomToKeep e sev = some k') : k.offer id sev = (k'.setSeverity id sev, .updated) := by
  rw [Stack.roomToKeep, (Stack.find_some found).2] at room
  unfold Stack.offer
  rw [found]
  dsimp only
  rw [if_neg (by simp [other]), room]
  exact if_pos active

theorem Stack.offer_of_inactive (found : k.find id = some e) (inactive : e.active = false)
    (room : k.roomToKeep e sev = some k') : k.offer id sev = (k'.arrive id sev, .renewed) := by
  rw [Stack.roomToKeep, (Stack.find_some found).2] at room
  unfold Stack.offer
  rw [found]
  dsimp only
  rw [if_neg (by simp [inactive]), room]
  exact if_neg (by simp [inactive])

theorem Stack.offer_of_noRoomToKeep (found : k.find id = some e) (other : e.severity ≠ sev)
    (room : k.roomToKeep e sev = none) : k.offer id sev = (k, .noRoom) := by
  rw [Stack.roomToKeep, (Stack.find_some found).2] at room
  unfold Stack.offer
  rw [found]
  dsimp only
  rw [if_neg (by simp [other]), room]

/-! ## The offer with its retry (R125) -/

theorem Stack.offerSettled_of_added (offered : k.offer id sev = (k', .added)) :
    k.offerSettled id sev = ((k', [sev]), .added) := by
  unfold Stack.offerSettled
  rw [offered]
  rfl

theorem Stack.offerSettled_of_unchanged (offered : k.offer id sev = (k, .unchanged)) :
    k.offerSettled id sev = ((k, []), .unchanged) := by
  unfold Stack.offerSettled
  rw [offered]
  rfl

theorem Stack.offerSettled_of_noRoom (offered : k.offer id sev = (k, .noRoom)) :
    k.offerSettled id sev = ((k, []), .noRoom) := by
  unfold Stack.offerSettled
  rw [offered]
  rfl

/-- Where the retry that may follow finds nothing to do, the offer stands. -/
theorem Stack.offerSettled_of_quiet {o : PostOutcome} (offered : k.offer id sev = (k', o))
    (quiet : k'.retry = (k', [])) : k.offerSettled id sev = ((k', o.rings sev), o) := by
  have settled : ∀ again, k'.settle (o.rings sev) again = (k', o.rings sev) := fun again => by
    unfold Stack.settle
    split
    · rw [quiet, List.append_nil]
    · rfl
  unfold Stack.offerSettled
  rw [offered]
  dsimp only
  rw [settled]

end

/-! ## The order (R132) -/

/-- An order whose body ends it with the stack, the chime and the link port alone changed. -/
theorem endsOrder_of_messages {c : Instr} {s m : State} {n : Strip} {o : Order} {r : Result} {d : Nat} {w : Word}
    {body : State → List Word → State × OrderEnd} (h : due s n o) (runs : exec c s = .next (s.runOrder o body))
    (ends : body s (s.orderArgs n o) = (m, .ended r d)) (frame : onlyMessages s m) (word : resultWord r d = w) :
    endsOrder c s m n o w := by
  obtain ⟨_, xm, engine, _⟩ := (onlyMessages_iff _ _).1 frame
  refine endsOrder_of_body h runs ends engine (fun a _ => ?_) ?_ word
  · rw [State.readXm, xm]
    rfl
  · rw [xm]
    exact h.2

theorem onlyMessages_refl (s : State) : onlyMessages s s := (onlyMessages_iff _ _).2 (by simp)

theorem ofCode_severityCode (sev : Severity) : Severity.ofCode sev.code = some sev := by cases sev <;> rfl

theorem severityOfCode_of_high {n : Nat} (high : 2 < n) : Severity.ofCode n = none := by
  match n, high with
  | n + 3, _ => rfl

theorem hostCode_iff (n : Nat) : hostCode n = true ↔ 1 ≤ n ∧ n ≤ 239 := by
  rw [hostCode, decide_eq_true_iff]
  omega

/-- The posts of R132 that no check refuses. -/
structure Posts (s : State) (n : Strip) (id : Identity) (sev : Severity) : Prop where
  due : due s n .postMessage
  names : id = ⟨s.argNum n 0, .link, s.argNum n 2⟩
  low : 1 ≤ s.argNum n 0
  high : s.argNum n 0 ≤ 239
  severity : s.argNum n 1 = sev.code

namespace Posts
variable {s : State} {n : Strip} {id : Identity} {sev : Severity}

theorem body (p : Posts s n id sev) :
    postMessageBody s (s.orderArgs n .postMessage) = s.hostPost id sev := by
  obtain ⟨_, rfl, low, high, severity⟩ := p
  have arg : ∀ i, i < 3 → arg (s.orderArgs n .postMessage) i = s.argNum n i :=
    fun i hi => arg_orderArgs s n .postMessage i hi
  unfold postMessageBody
  rw [arg 0 (by omega), arg 1 (by omega), arg 2 (by omega), severity, ofCode_severityCode,
    if_pos ((hostCode_iff _).2 ⟨low, high⟩)]

/-- A post that the stack takes. -/
theorem takes (p : Posts s n id sev) {r : Stack × List Severity} {o : PostOutcome} {w : Word}
    (offered : s.stack.offerSettled id sev = (r, o)) (made : o ≠ .noRoom) (word : resultWord .done o.detail = w) :
    endsOrder .postMessage s (s.takeStack r) n .postMessage w := by
  refine endsOrder_of_messages p.due rfl (p.body.trans ?_) (takeStack_frame s r) word
  unfold State.hostPost
  rw [offered]
  exact if_neg made

/-- A post without room. -/
theorem full (p : Posts s n id sev) (offered : s.stack.offer id sev = (s.stack, .noRoom)) :
    endsOrder .postMessage s s n .postMessage 0x0E00 := by
  refine endsOrder_of_messages (r := .stackFull) (d := 0) p.due rfl (p.body.trans ?_) (onlyMessages_refl s) rfl
  unfold State.hostPost
  rw [Stack.offerSettled_of_noRoom offered]
  exact if_pos rfl

end Posts

theorem post_refused {s : State} {n : Strip} (h : due s n .postMessage)
    (bad : s.argNum n 0 = 0 ∨ 239 < s.argNum n 0 ∨ 2 < s.argNum n 1) :
    endsOrder .postMessage s s n .postMessage 0x0200 := by
  refine endsOrder_of_messages (r := .badArgument) (d := 0) h rfl ?_ (onlyMessages_refl s) rfl
  unfold postMessageBody
  rw [arg_orderArgs s n .postMessage 0 (by decide), arg_orderArgs s n .postMessage 1 (by decide)]
  split
  · rename_i code
    rw [hostCode_iff] at code
    rw [severityOfCode_of_high (by omega)]
    rfl
  · rfl

end Sys2Proof.Machine
end

section
/-! The settling of O30. POST MESSAGE where the stack has room: an entry is added, renewed, updated or left (R121, R132). -/

namespace Sys2Proof.Machine

/-- The sound that an arrival starts from a silent chime (R121). -/
theorem arrival_playing (sev : Severity) : ((⟨.silent, 0, false, false⟩ : Chime).arrivals [sev]).playing =
    match sev with
    | .red => .continuous
    | .amber => .single
    | .info => .silent := by
  cases sev <;> rfl

theorem takeStack_chime_of_chimes {s : State} (chimes : s.mode.mode.chimes = true) (r : Stack × List Severity) :
    (s.takeStack r).chime = s.chime.arrivals r.2 :=
  if_pos chimes

namespace Posts
variable {s : State} {n : Strip} {id : Identity} {sev : Severity} (p : Posts s n id sev)
include p

/-- A post of an identity that is not held, with a free place. -/
theorem adds (absent : s.stack.find id = none) (length : s.stack.entries.length < 16)
    (nonRed : sev ≠ .red → s.stack.nonRedCount < 12) :
    endsOrder .postMessage s (s.takeStack (s.stack.arrive id sev, [sev])) n .postMessage 0x0001 :=
  p.takes (Stack.offerSettled_of_added (Stack.offer_of_room absent (Stack.roomFor_of_free length nonRed))) (by simp) rfl

theorem leaves {e : Entry} (found : s.stack.find id = some e) (active : e.active = true) (same : e.severity = sev) :
    endsOrder .postMessage s s n .postMessage 0x0004 := by
  have ends := p.takes (w := 0x0004) (Stack.offerSettled_of_unchanged (Stack.offer_of_same found active same)) (by simp) rfl
  rwa [takeStack_unchanged] at ends

section
variable {e : Entry} (found : s.stack.find id = some e) (idle : s.stack.waiting = [])
  (lowered : e.severity = .red → sev ≠ .red → s.stack.nonRedCount < 12)
include found idle lowered

theorem updates (active : e.active = true) (other : e.severity ≠ sev) :
    endsOrder .postMessage s (s.takeStack (s.stack.setSeverity id sev, [])) n .postMessage 0x0003 :=
  p.takes (Stack.offerSettled_of_quiet
    (Stack.offer_of_other found active other (Stack.roomToKeep_of_free lowered)) (Stack.retry_of_idle idle)) (by simp) rfl

theorem renews (inactive : e.active = false) :
    endsOrder .postMessage s (s.takeStack (s.stack.arrive id sev, [sev])) n .postMessage 0x0002 :=
  p.takes (Stack.offerSettled_of_quiet (Stack.offer_of_inactive found inactive (Stack.roomToKeep_of_free lowered))
    (Stack.retry_of_idle ((Stack.arrive_waiting _ _ _).trans idle))) (by simp) rfl

end

end Posts

/-- Settles O30: the order by its checks, then by what the stack holds of the identity and by the arrival counter. -/
theorem postMessageAddsRenewsOrUpdates : Obligations.PostMessageAddsRenewsOrUpdates := by
  intro s n h
  refine ⟨post_refused h, fun id sev names low high severity => ?_⟩
  have p : Posts s n id sev := ⟨h, names, low, high, severity⟩
  have arrives : pends (s.takeStack (s.stack.arrive id sev, [sev])) .messageChange :=
    pends_takeStack_of_arrival _ _ (by simp)
  refine ⟨fun absent length nonRed counts => ?_, fun absent length nonRed full => ?_, fun e found => ⟨?_, ?_⟩⟩
  · refine ⟨_, p.adds absent length nonRed, takeStack_frame _ _, arrives, Stack.arrive_of_absent counts absent sev,
      fun running silent => ?_⟩
    rw [takeStack_chime_of_chimes (by rw [running]; rfl), silent]
    exact arrival_playing sev
  · exact ⟨_, p.adds absent length nonRed, takeStack_frame _ _, arrives, Stack.arrive_renumberedFor full id sev,
      Stack.arrive_waiting _ _ _⟩
  · exact p.leaves found
  · intro idle lowered
    refine ⟨fun active other => ?_, fun inactive counts => ?_, fun inactive full => ?_⟩
    · exact ⟨_, p.updates found idle lowered active other, takeStack_frame _ _, takeStack_chime_of_quiet _ _, rfl⟩
    · exact ⟨_, p.renews found idle lowered inactive, takeStack_frame _ _, arrives,
        Stack.arrive_of_counts counts id sev⟩
    · exact ⟨_, p.renews found idle lowered inactive, takeStack_frame _ _, arrives,
        Stack.arrive_renumberedFor full id sev, (Stack.arrive_waiting _ _ _).trans idle⟩

end Sys2Proof.Machine
end

section
/-! SUPPORT and the settling of O31. The entry that leaves for a post without a free place (R122 to R124), and POST MESSAGE
where it leaves or where none may. -/

namespace Sys2Proof.Machine

/-! ## The oldest of a kind (R122, R123) -/

/-- The fold finds the one with the lowest number. -/
theorem foldl_olderOf {v : Entry} (l : List Entry) (a : Option Entry) (here : v ∈ l ∨ a = some v)
    (young : ∀ e ∈ l, e ≠ v → v.arrival < e.arrival) (first : ∀ b, a = some b → b ≠ v → v.arrival < b.arrival) :
    l.foldl olderOf a = some v := by
  induction l generalizing a with
  | nil => exact here.resolve_left (List.not_mem_nil)
  | cons e l ih =>
    have behind : ∀ x ∈ l, x ≠ v → v.arrival < x.arrival := fun x hx => young x (List.mem_cons_of_mem _ hx)
    have ahead := young e List.mem_cons_self
    refine ih _ ?_ behind ?_
    · rcases here with here | rfl
      · rcases List.mem_cons.1 here with rfl | later
        · right
          cases a with
          | none => rfl
          | some b =>
            by_cases same : b = v
            · subst same
              simp [olderOf]
            · simp [olderOf, first b rfl same]
        · exact .inl later
      · right
        by_cases same : e = v
        · subst same
          simp [olderOf]
        · simp [olderOf, Nat.not_lt.2 (Nat.le_of_lt (ahead same))]
    · intro b hb ne
      cases a with
      | none =>
        obtain rfl := Option.some.inj hb
        exact ahead ne
      | some c =>
        unfold olderOf at hb
        dsimp only at hb
        split at hb
        · obtain rfl := Option.some.inj hb
          exact ahead ne
        · obtain rfl := Option.some.inj hb
          exact first _ rfl ne

theorem oldest_of_oldestOf {k : Stack} {p : Entry → Bool} {kind : Entry → Prop} {v : Entry}
    (same : ∀ e ∈ k.entries, p e = true ↔ kind e) (h : oldestOf k kind v) : oldest p k.entries = some v := by
  obtain ⟨held, is, young⟩ := h
  refine foldl_olderOf _ none (.inl (List.mem_filter.2 ⟨held, (same v held).2 is⟩)) (fun e he ne => ?_) (by simp)
  obtain ⟨he, pe⟩ := List.mem_filter.1 he
  exact young e he ((same e he).1 pe) ne

theorem oldest_of_none {k : Stack} {p : Entry → Bool} {kind : Entry → Prop}
    (same : ∀ e ∈ k.entries, p e = true ↔ kind e) (h : ∀ e ∈ k.entries, ¬kind e) : oldest p k.entries = none := by
  have empty : k.entries.filter p = [] := List.filter_eq_nil_iff.2 fun e he pe => h e he ((same e he).1 pe)
  unfold oldest
  rw [empty]
  rfl

/-! ## The entry evicted -/

/-- The entry that leaves by three classes in turn: the oldest of the first that is not empty. -/
def firstOldest (k : Stack) (first second third : Entry → Prop) (v : Entry) : Prop :=
  oldestOf k first v ∨ ((∀ e ∈ k.entries, ¬first e) ∧ oldestOf k second v) ∨
    ((∀ e ∈ k.entries, ¬first e ∧ ¬second e) ∧ oldestOf k third v)

section
variable {k : Stack} {id : Identity} {first second : Entry → Prop}
  (isFirst : ∀ e, first e ↔ e.active = false ∧ e.severity ≠ .red)
  (isSecond : ∀ e, second e ↔ e.state = .acked ∧ e.severity = .info)
  (others : ∀ e ∈ k.entries, e.severity ≠ .red → e.id ≠ id)
include isFirst isSecond others

theorem nonRedVictim_classes :
    (∀ e ∈ k.entries, (e.id != id && !e.active && e.nonRed) = true ↔ first e) ∧
      ∀ e ∈ k.entries, (e.id != id && e.state == .acked && e.severity == .info) = true ↔ second e := by
  refine ⟨fun e he => ?_, fun e he => ?_⟩
  · have other := others e he
    simp only [isFirst, Entry.nonRed, Bool.and_eq_true, bne_iff_ne, Bool.not_eq_true']
    exact ⟨fun ⟨⟨_, inactive⟩, nonRed⟩ => ⟨inactive, nonRed⟩,
      fun ⟨inactive, nonRed⟩ => ⟨⟨other nonRed, inactive⟩, nonRed⟩⟩
  · have other := others e he
    simp only [isSecond, Bool.and_eq_true, bne_iff_ne, beq_iff_eq]
    exact ⟨fun ⟨⟨_, acked⟩, info⟩ => ⟨acked, info⟩,
      fun ⟨acked, info⟩ => ⟨⟨other (by simp [info]), acked⟩, info⟩⟩

theorem nonRedVictim_of_oldest {v : Entry}
    (h : oldestOf k first v ∨ ((∀ e ∈ k.entries, ¬first e) ∧ oldestOf k second v)) : k.nonRedVictim id = some v := by
  obtain ⟨one, two⟩ := nonRedVictim_classes isFirst isSecond others
  unfold Stack.nonRedVictim
  rcases h with h | ⟨none, h⟩
  · rw [oldest_of_oldestOf one h]
  · rw [oldest_of_none one none]
    exact oldest_of_oldestOf two h

theorem nonRedVictim_of_none (h : ∀ e ∈ k.entries, ¬first e ∧ ¬second e) : k.nonRedVictim id = none := by
  obtain ⟨one, two⟩ := nonRedVictim_classes isFirst isSecond others
  unfold Stack.nonRedVictim
  rw [oldest_of_none one fun e he => (h e he).1]
  exact oldest_of_none two fun e he => (h e he).2

end

section
variable {k : Stack} {first second third : Entry → Prop}
  (isFirst : ∀ e, first e ↔ e.active = false ∧ ¬(e.severity = .red ∧ e.state = .new))
  (isSecond : ∀ e, second e ↔ e.state = .acked ∧ e.severity ≠ .red)
  (isThird : ∀ e, third e ↔ e.severity ≠ .red)
include isFirst isSecond isThird

theorem redVictim_classes :
    (∀ e ∈ k.entries, (!e.active && !(e.severity == .red && e.state == .new)) = true ↔ first e) ∧
      (∀ e ∈ k.entries, (e.state == .acked && e.nonRed) = true ↔ second e) ∧
      ∀ e ∈ k.entries, e.nonRed = true ↔ third e := by
  refine ⟨fun e _ => ?_, fun e _ => ?_, fun e _ => ?_⟩
  · simp [isFirst, imp_iff_not_or]
  · simp [isSecond, Entry.nonRed]
  · simp [isThird, Entry.nonRed]

theorem redVictim_of_firstOldest {v : Entry} (h : firstOldest k first second third v) (unit : Bool) :
    k.redVictim unit = some v := by
  obtain ⟨one, two, three⟩ := redVictim_classes (k := k) isFirst isSecond isThird
  unfold Stack.redVictim
  rcases h with h | ⟨none, h⟩ | ⟨none, h⟩
  · rw [oldest_of_oldestOf one h]
  · rw [oldest_of_none one none, oldest_of_oldestOf two h]
  · rw [oldest_of_none one fun e he => (none e he).1, oldest_of_none two fun e he => (none e he).2,
      oldest_of_oldestOf three h]

/-- The host's posts never take the fourth class of R123. -/
theorem redVictim_of_none (h : ∀ e ∈ k.entries, ¬first e ∧ ¬second e ∧ ¬third e) : k.redVictim false = none := by
  obtain ⟨one, two, three⟩ := redVictim_classes (k := k) isFirst isSecond isThird
  unfold Stack.redVictim
  rw [oldest_of_none one fun e he => (h e he).1, oldest_of_none two fun e he => (h e he).2.1,
    oldest_of_none three fun e he => (h e he).2.2]
  rfl

end

/-- The entry evicted for an identity that is not held. -/
def Stack.victimFor (k : Stack) (id : Identity) (sev : Severity) : Option Entry :=
  if sev = .red then k.redVictim (id.origin != .link) else k.nonRedVictim id

theorem Stack.roomFor_of_full {k : Stack} {id : Identity} {sev : Severity}
    (nonRed : sev ≠ .red → 12 ≤ k.nonRedCount ∨ 16 ≤ k.entries.length) (red : sev = .red → 16 ≤ k.entries.length) :
    k.roomFor id sev = (k.victimFor id sev).map k.evict := by
  unfold Stack.roomFor Stack.victimFor
  split
  · rename_i is
    exact if_neg (Nat.not_lt.2 (red is))
  · rename_i ne
    refine if_neg fun ⟨count, length⟩ => ?_
    have := length rfl
    have := nonRed ne
    omega

section
variable {k : Stack} {id : Identity} {sev : Severity} {first second third : Entry → Prop}
  (isFirst : ∀ e, first e ↔ e.active = false ∧
    (if sev = .red then ¬(e.severity = .red ∧ e.state = .new) else e.severity ≠ .red))
  (isSecond : ∀ e, second e ↔ e.state = .acked ∧ (if sev = .red then e.severity ≠ .red else e.severity = .info))
  (isThird : ∀ e, third e ↔ sev = .red ∧ e.severity ≠ .red)
  (absent : k.find id = none)
include isFirst isSecond isThird absent

theorem victimFor_of_firstOldest {v : Entry} (h : firstOldest k first second third v) :
    k.victimFor id sev = some v := by
  unfold Stack.victimFor
  split
  · rename_i red
    simp only [red, if_true, true_and] at isFirst isSecond isThird
    exact redVictim_of_firstOldest isFirst isSecond isThird h _
  · rename_i ne
    simp only [ne, if_false, false_and, iff_false] at isFirst isSecond isThird
    exact nonRedVictim_of_oldest isFirst isSecond (fun e he _ => Stack.find_eq_none_iff.1 absent e he)
      (h.imp_right fun h => h.resolve_right fun ⟨_, _, is, _⟩ => isThird v is)

theorem victimFor_of_none (link : id.origin = .link) (h : ∀ e ∈ k.entries, ¬first e ∧ ¬second e ∧ ¬third e) :
    k.victimFor id sev = none := by
  unfold Stack.victimFor
  split
  · rename_i red
    simp only [red, if_true, true_and] at isFirst isSecond isThird
    have host : (id.origin != .link) = false := by simp [link]
    rw [host]
    exact redVictim_of_none isFirst isSecond isThird h
  · rename_i ne
    simp only [ne, if_false] at isFirst isSecond
    exact nonRedVictim_of_none isFirst isSecond (fun e he _ => Stack.find_eq_none_iff.1 absent e he)
      fun e he => ⟨(h e he).1, (h e he).2.1⟩

end

/-! ## The pending list behind an eviction (R125) -/

/-- A waiting identity that finds no room waits on. -/
theorem Stack.retry_of_noRoom {k : Stack} {w : Identity × Severity} (one : k.waiting = [w])
    (noRoom : k.offer w.1 w.2 = (k, .noRoom)) : k.retry = (k, []) := by
  have order : [w].filter (fun w => w.2 == .red) ++ [w].filter (fun w => w.2 != .red) = [w] := by
    by_cases red : w.2 = .red <;> simp [red]
  rw [Stack.retry, one, order]
  simp [Stack.retryOne, noRoom]

/-- A held RED entry that becomes AMBER or INFO takes one of the places for those. -/
theorem Stack.nonRedCount_setSeverity {k : Stack} (single : k.single) {id : Identity} {e : Entry}
    (found : k.find id = some e) (red : e.severity = .red) {sev : Severity} (ne : sev ≠ .red) :
    (k.setSeverity id sev).nonRedCount = k.nonRedCount + 1 := by
  have rest : ((k.setSeverity id sev).drop id).nonRedCount = (k.drop id).nonRedCount :=
    congrArg (fun es => (es.filter Entry.nonRed).length)
      (filter_map_at (f := fun e => { e with severity := sev }) (fun _ => rfl) k.entries)
  rw [Stack.nonRedCount_of_find (Stack.single_setSeverity single id sev) (Stack.find_setSeverity found sev),
    Stack.nonRedCount_of_find single found, rest, if_pos red, if_neg ne]

theorem Stack.nonRedCount_renewed {k : Stack} (single : k.single) {id : Identity} {e : Entry}
    (found : k.find id = some e) (red : e.severity = .red) {sev : Severity} (ne : sev ≠ .red)
    (counts : k.counter < max32) : (k.arrive id sev).nonRedCount = k.nonRedCount + 1 := by
  rw [Stack.nonRedCount_of_find single found, if_pos red, Stack.arrive_of_counts counts]
  exact (nonRed_append_arrival _ _ _ _).trans (by rw [if_neg ne]; rfl)

end Sys2Proof.Machine
end

section
/-! The settling of O31. POST MESSAGE without a free place: the entry that leaves makes room, or the order ends STACK_FULL
(R121 to R125, R132). -/

namespace Sys2Proof.Machine

/-- What an eviction leaves, with what it adds to an empty pending list. -/
theorem Stack.evict_of_idle {k : Stack} (idle : k.waiting = []) (v : Entry) : k.evict v =
    ⟨k.entries.filter (fun e => e.id != v.id), k.counter,
      if v.active = true ∧ v.id.origin ≠ .link then [(v.id, v.severity)] else []⟩ := by
  have waits : k.waits v.id = false := by simp [Stack.waits, idle]
  have waiting := k.evict_waiting v
  simp only [idle, waits, List.nil_append, and_true] at waiting
  rw [← waiting, ← k.evict_counter v]
  exact congrArg (fun es => (⟨es, _, _⟩ : Stack)) (k.evict_entries v)

/-- The evicted entry's message, offered again at once to a stack that is full again, waits on (log 24). -/
theorem retry_of_evicted {k : Stack} {v : Entry} {first second : Entry → Prop}
    (isFirst : ∀ e, first e ↔ e.active = false ∧ e.severity ≠ .red)
    (isSecond : ∀ e, second e ↔ e.state = .acked ∧ e.severity = .info) (absent : k.find v.id = none)
    (nonRed : v.severity ≠ .red) (full : 12 ≤ k.nonRedCount)
    (joined : k.waiting = [] ∨ k.waiting = [(v.id, v.severity)] ∧ ∀ e ∈ k.entries, ¬first e ∧ ¬second e) :
    k.retry = (k, []) := by
  rcases joined with idle | ⟨one, none⟩
  · exact Stack.retry_of_idle idle
  · refine Stack.retry_of_noRoom one (Stack.offer_of_noRoom absent ?_)
    rw [Stack.roomFor_of_full (fun _ => .inl full) fun red => absurd red nonRed, Stack.victimFor, if_neg nonRed,
      nonRedVictim_of_none isFirst isSecond (fun e he _ => Stack.find_eq_none_iff.1 absent e he) none]
    rfl

namespace Posts
variable {s : State} {n : Strip} {id : Identity} {sev : Severity} (p : Posts s n id sev)
include p

/-- The entry that leaves makes room for an identity that is not held. -/
theorem evicts {v : Entry} (absent : s.stack.find id = none) (room : s.stack.roomFor id sev = some (s.stack.evict v))
    (counts : s.stack.counter < max32) :
    ∃ m, endsOrder .postMessage s m n .postMessage 0x0001 ∧ onlyMessages s m ∧ pends m .messageChange ∧
      m.stack.entries = s.stack.entries.filter (fun x => x.id != v.id) ++
        [⟨id, sev, .new, true, s.stack.counter + 1, 0⟩] ∧
      m.stack.waiting = s.stack.waiting ++
        (if v.active = true ∧ v.id.origin ≠ .link ∧ s.stack.waits v.id = false then [(v.id, v.severity)] else []) := by
  have still : (s.stack.evict v).find id = none := Stack.find_eq_none_iff.2 fun e he => by
    rw [Stack.evict_entries] at he
    exact Stack.find_eq_none_iff.1 absent e (List.mem_filter.1 he).1
  have arrived := Stack.arrive_of_absent (k := s.stack.evict v) (by rwa [Stack.evict_counter]) still sev
  refine ⟨_, p.takes (Stack.offerSettled_of_added (Stack.offer_of_room absent room)) (by simp) rfl, takeStack_frame _ _,
    pends_takeStack_of_arrival _ _ (by simp), (congrArg Stack.entries arrived).trans ?_,
    (Stack.arrive_waiting _ _ _).trans (Stack.evict_waiting _ _)⟩
  dsimp only
  rw [Stack.evict_entries, Stack.evict_counter]
  rfl

end Posts

/-- A held RED entry that a post would lower or renew as AMBER or INFO, where those have no free place. -/
structure Lowers (s : State) (n : Strip) (e : Entry) (sev : Severity) (first second : Entry → Prop) : Prop where
  posts : Posts s n e.id sev
  found : s.stack.find e.id = some e
  capacity : s.stack.withinCapacity
  idle : s.stack.waiting = []
  red : e.severity = .red
  nonRed : sev ≠ .red
  full : 12 ≤ s.stack.nonRedCount
  isFirst : ∀ x, first x ↔ x.active = false ∧ x.severity ≠ .red
  isSecond : ∀ x, second x ↔ x.state = .acked ∧ x.severity = .info

namespace Lowers
variable {s : State} {n : Strip} {e : Entry} {sev : Severity} {first second : Entry → Prop}
  (l : Lowers s n e sev first second)
include l

theorem single : s.stack.single := single_of_withinCapacity l.capacity

theorem other : e.severity ≠ sev := fun same => l.nonRed (same.symm.trans l.red)

theorem others (x : Entry) (held : x ∈ s.stack.entries) (nonRed : x.severity ≠ .red) : x.id ≠ e.id := fun same => by
  have found := Stack.find_of_mem l.single held
  rw [same, l.found] at found
  obtain rfl := Option.some.inj found
  exact nonRed l.red

theorem roomToKeep : s.stack.roomToKeep e sev = (s.stack.nonRedVictim e.id).map s.stack.evict := by
  unfold Stack.roomToKeep
  rw [if_pos ⟨l.red, l.nonRed⟩]
  exact if_neg fun ⟨count, _⟩ => Nat.not_lt.2 l.full count

/-- No entry may leave. -/
theorem stackFull (none : ∀ x ∈ s.stack.entries, ¬first x ∧ ¬second x) :
    endsOrder .postMessage s s n .postMessage 0x0E00 := by
  refine l.posts.full (Stack.offer_of_noRoomToKeep l.found l.other ?_)
  rw [l.roomToKeep, nonRedVictim_of_none l.isFirst l.isSecond l.others none]
  rfl

section
variable {v : Entry}
  (leaves : oldestOf s.stack first v ∨ ((∀ x ∈ s.stack.entries, ¬first x) ∧ oldestOf s.stack second v))
include leaves

theorem room : s.stack.roomToKeep e sev = some (s.stack.evict v) := by
  rw [l.roomToKeep, nonRedVictim_of_oldest l.isFirst l.isSecond l.others leaves]
  rfl

theorem victim : v ∈ s.stack.entries ∧ v.severity ≠ .red := by
  rcases leaves with ⟨held, is, _⟩ | ⟨_, held, is, _⟩
  · exact ⟨held, ((l.isFirst v).1 is).2⟩
  · exact ⟨held, by simp [((l.isSecond v).1 is).2]⟩

theorem victim_ne : v.id ≠ e.id := l.others v (l.victim leaves).1 (l.victim leaves).2

/-- The stack without the entry that leaves: the held entry is in it, and one place is free. -/
theorem evicted : (s.stack.evict v).single ∧ (s.stack.evict v).find e.id = some e ∧
    (s.stack.evict v).find v.id = none ∧ 12 ≤ (s.stack.evict v).nonRedCount + 1 ∧
    (s.stack.evict v).entries.length + 1 = s.stack.entries.length := by
  obtain ⟨held, nonRed⟩ := l.victim leaves
  have found := Stack.find_of_mem l.single held
  have count := Stack.nonRedCount_of_find l.single found
  have length := Stack.length_of_find l.single found
  have same : (s.stack.evict v).nonRedCount = (s.stack.drop v.id).nonRedCount :=
    congrArg (fun es => (es.filter Entry.nonRed).length) (s.stack.evict_entries v)
  rw [if_neg nonRed] at count
  refine ⟨Stack.single_evict l.single v, (Stack.find_evict _ v (l.victim_ne leaves)).trans l.found, ?_, ?_, ?_⟩
  · unfold Stack.find
    rw [Stack.evict_entries]
    exact Stack.find_drop_self s.stack v.id
  · have := l.full
    omega
  · rw [Stack.evict_entries]
    exact length.symm

/-- What the retry finds behind the post: nothing, or the evicted message without room. -/
theorem quiet {k : Stack} (waiting : k.waiting = (s.stack.evict v).waiting) (absent : k.find v.id = none)
    (full : 12 ≤ k.nonRedCount) (waitsOn : k.waiting = [] ∨ ∀ x ∈ k.entries, ¬first x ∧ ¬second x) :
    k.retry = (k, []) := by
  refine retry_of_evicted l.isFirst l.isSecond absent (l.victim leaves).2 full ?_
  rcases waitsOn with idle | none
  · exact .inl idle
  · rw [waiting, Stack.evict_of_idle l.idle]
    dsimp only
    split
    · exact .inr ⟨rfl, none⟩
    · exact .inl rfl

/-- The entry that leaves makes room, and the held entry is lowered in its place. -/
theorem updates (active : e.active = true) (waitsOn : (s.stack.evict v).waiting = [] ∨
      ∀ x ∈ ((s.stack.evict v).setSeverity e.id sev).entries, ¬first x ∧ ¬second x) :
    ∃ m, endsOrder .postMessage s m n .postMessage 0x0003 ∧ onlyMessages s m ∧ pends m .messageChange ∧
      m.chime = s.chime ∧ m.stack = (s.stack.evict v).setSeverity e.id sev := by
  obtain ⟨single, found, absent, full, length⟩ := l.evicted leaves
  have count := Stack.nonRedCount_setSeverity single found l.red l.nonRed
  have gone : ((s.stack.evict v).setSeverity e.id sev).find v.id = none := by
    rw [← Stack.status_eq_none_iff] at absent ⊢
    rwa [Stack.status_setSeverity, if_neg (l.victim_ne leaves)]
  have offered := Stack.offerSettled_of_quiet (Stack.offer_of_other l.found active l.other (l.room leaves))
    (l.quiet leaves rfl gone (by omega) waitsOn)
  refine ⟨_, l.posts.takes offered (by simp) rfl, takeStack_frame _ _, pends_takeStack_of_length ?_,
    takeStack_chime_of_quiet _ _, rfl⟩
  dsimp only [Stack.setSeverity]
  rw [List.length_map]
  omega

/-- The entry that leaves makes room, and the held entry is renewed. -/
theorem renews (inactive : e.active = false) (counts : s.stack.counter < max32)
    (waitsOn : (s.stack.evict v).waiting = [] ∨
      ∀ x ∈ ((s.stack.evict v).arrive e.id sev).entries, ¬first x ∧ ¬second x) :
    ∃ m, endsOrder .postMessage s m n .postMessage 0x0002 ∧ onlyMessages s m ∧ pends m .messageChange ∧
      (sev = .amber → s.mode.mode.chimes = true → gongGiven m) ∧ m.stack = (s.stack.evict v).arrive e.id sev := by
  obtain ⟨single, found, absent, full, length⟩ := l.evicted leaves
  have count := Stack.nonRedCount_renewed single found l.red l.nonRed (by rwa [Stack.evict_counter])
  have gone : ((s.stack.evict v).arrive e.id sev).find v.id = none := by
    rw [← Stack.status_eq_none_iff] at absent ⊢
    rwa [Stack.status_arrive, if_neg (l.victim_ne leaves)]
  have waiting := (s.stack.evict v).arrive_waiting e.id sev
  have offered := Stack.offerSettled_of_quiet (Stack.offer_of_inactive l.found inactive (l.room leaves))
    (l.quiet leaves waiting gone (by omega) (by rwa [waiting]))
  refine ⟨_, l.posts.takes offered (by simp) rfl, takeStack_frame _ _, pends_takeStack_of_arrival _ _ (by simp [PostOutcome.rings]),
    fun amber chimes => ?_, rfl⟩
  rw [gongGiven_iff, takeStack_chime_of_chimes chimes, amber]
  exact requestSingle_gong _

end

end Lowers

/-- Settles O31: the entry that leaves by the classes of R122 and R123, then what its leaving lets the post do. -/
theorem postMessageEvictsOrStackFull : Obligations.PostMessageEvictsOrStackFull := by
  refine ⟨fun s n id sev h names low high severity absent nonRed red first second third isFirst isSecond isThird => ?_,
    fun s n e sev h names low high severity found capacity idle red nonRed full first second isFirst isSecond => ?_⟩
  · have p : Posts s n id sev := ⟨h, names, low, high, severity⟩
    refine ⟨fun none => ?_, fun v counts leaves => ?_⟩
    · refine p.full (Stack.offer_of_noRoom absent ?_)
      rw [Stack.roomFor_of_full nonRed red,
        victimFor_of_none isFirst isSecond isThird absent (by rw [names]) none]
      rfl
    · refine p.evicts absent ?_ counts
      rw [Stack.roomFor_of_full nonRed red, victimFor_of_firstOldest isFirst isSecond isThird absent leaves]
      rfl
  · have l : Lowers s n e sev first second :=
      ⟨⟨h, names, low, high, severity⟩, found, capacity, idle, red, nonRed, full, isFirst, isSecond⟩
    refine ⟨l.stackFull, fun v left after joined leaves isLeft isJoined waitsOn => ?_⟩
    have evicted := Stack.evict_of_idle idle v
    rw [← isLeft, ← isJoined] at evicted
    refine ⟨fun active isAfter => ?_, fun inactive counts isAfter => ?_⟩
    · have updates := l.updates leaves active
      rw [evicted] at updates
      subst isAfter
      exact updates waitsOn
    · have renews := l.renews leaves inactive counts
      rw [evicted, Stack.arrive_of_counts (k := ⟨left, s.stack.counter, joined⟩) counts] at renews
      subst isAfter
      exact renews waitsOn

end Sys2Proof.Machine
end

section
/-! SUPPORT. CLEAR MESSAGE and ACK MESSAGE: what the two orders run (R131, R133), and what they leave of their entry with no
identity in the pending list (R126, R127, R93). -/

namespace Sys2Proof.Machine

/-! ## The entry cleared or acknowledged -/

theorem deactivate_id (e : Entry) : e.deactivate.id = e.id := rfl

theorem acknowledge_id (e : Entry) : e.acknowledge.id = e.id := rfl

/-- R127 removes an entry that becomes inactive in these states. -/
theorem deactivate_gone_iff (e : Entry) : e.deactivate.gone = true ↔
    e.state = .acked ∨ (e.state = .new ∧ e.severity ≠ .red) ∨
      (e.state = .shown ∧ e.severity = .info ∧ 5000 ≤ e.shownTime) := by
  cases state : e.state <;> simp [Entry.deactivate, Entry.gone, state, Entry.nonRed]

theorem deactivate_stays {e : Entry} (h : (e.state = .new ∧ e.severity = .red) ∨
    (e.state = .shown ∧ (e.severity ≠ .info ∨ e.shownTime < 5000))) : e.deactivate.gone = false := by
  refine Bool.eq_false_iff.2 fun gone => ?_
  rcases h with ⟨new, red⟩ | ⟨shown, short⟩
  · simp [deactivate_gone_iff, new, red] at gone
  · simp only [deactivate_gone_iff, shown, reduceCtorEq, false_and, true_and, false_or] at gone
    exact short.elim (fun other => other gone.1) fun early => absurd gone.2 (Nat.not_le.2 early)

/-- An acknowledged entry leaves where it is inactive. -/
theorem acknowledge_gone (e : Entry) : e.acknowledge.gone = !e.active := by
  simp [Entry.acknowledge, Entry.gone]

/-! ## The stack's events -/

theorem Stack.unwait_of_absent {k : Stack} {id : Identity} (absent : ∀ w ∈ k.waiting, w.1 ≠ id) : k.unwait id = k := by
  have all : k.waiting.filter (fun w => w.1 != id) = k.waiting :=
    List.filter_eq_self.2 fun w hw => bne_iff_ne.2 (absent w hw)
  unfold Stack.unwait
  rw [all]

theorem Stack.holdsActive_iff {k : Stack} {id : Identity} :
    k.holdsActive id = true ↔ ∃ e, k.find id = some e ∧ e.active = true := by
  simp [Stack.holdsActive, Option.any_eq_true]

theorem Stack.clear_of_active {k : Stack} {id : Identity} {e : Entry} (found : k.find id = some e)
    (active : e.active = true) (absent : ∀ w ∈ k.waiting, w.1 ≠ id) :
    k.clear id = (k.change id Entry.deactivate).settle [] true := by
  unfold Stack.clear
  rw [if_pos (Stack.holdsActive_iff.2 ⟨e, found, active⟩), Stack.unwait_of_absent absent]

section
variable {k : Stack} {id : Identity} (idle : k.waiting = [])
include idle

theorem Stack.absent_of_idle : ∀ w ∈ k.waiting, w.1 ≠ id := fun w hw => by simp [idle] at hw

theorem Stack.clear_of_idle {e : Entry} (found : k.find id = some e) (active : e.active = true) :
    k.clear id = (k.change id Entry.deactivate, []) := by
  rw [Stack.clear_of_active found active (Stack.absent_of_idle idle)]
  refine Stack.settle_of_idle ?_ _ _
  exact idle

theorem Stack.clear_of_inactive (inactive : ∀ e, k.find id = some e → e.active = false) : k.clear id = (k, []) := by
  have no : ¬k.holdsActive id = true := fun yes => by
    obtain ⟨e, found, active⟩ := Stack.holdsActive_iff.1 yes
    rw [inactive e found] at active
    exact nomatch active
  unfold Stack.clear
  rw [if_neg no, Stack.unwait_of_absent (Stack.absent_of_idle idle)]

theorem Stack.acknowledge_of_idle : k.acknowledge id = (k.change id Entry.acknowledge, []) := by
  refine Stack.settle_of_idle ?_ _ _
  exact idle

end

/-! ## CLEAR MESSAGE (R133) -/

/-- The clears of R133 that no check refuses. -/
structure Clears (s : State) (n : Strip) (id : Identity) : Prop where
  due : due s n .clearMessage
  names : id = ⟨s.argNum n 0, .link, s.argNum n 1⟩
  low : 1 ≤ s.argNum n 0
  high : s.argNum n 0 ≤ 239

namespace Clears
variable {s : State} {n : Strip} {id : Identity}

theorem body (c : Clears s n id) : clearMessageBody s (s.orderArgs n .clearMessage) =
    (s.clear id, .ended .done (if s.stack.holdsActive id then 1 else 2)) := by
  obtain ⟨_, rfl, low, high⟩ := c
  unfold clearMessageBody
  rw [arg_orderArgs s n .clearMessage 0 (by decide), arg_orderArgs s n .clearMessage 1 (by decide),
    if_pos ((hostCode_iff _).2 ⟨low, high⟩)]

theorem acts (c : Clears s n id) {e : Entry} (found : s.stack.find id = some e) (active : e.active = true) :
    endsOrder .clearMessage s (s.clear id) n .clearMessage 0x0001 := by
  refine endsOrder_of_messages (r := .done) (d := 1) c.due rfl (c.body.trans ?_) (takeStack_frame s _) rfl
  rw [if_pos (Stack.holdsActive_iff.2 ⟨e, found, active⟩)]

theorem leaves (c : Clears s n id) (idle : s.stack.waiting = [])
    (inactive : ∀ e, s.stack.find id = some e → e.active = false) :
    endsOrder .clearMessage s s n .clearMessage 0x0002 := by
  have same : s.clear id = s := by
    unfold State.clear
    rw [Stack.clear_of_inactive idle inactive, takeStack_unchanged]
  have no : ¬s.stack.holdsActive id = true := fun yes => by
    obtain ⟨e, found, active⟩ := Stack.holdsActive_iff.1 yes
    rw [inactive e found] at active
    exact nomatch active
  refine endsOrder_of_messages (r := .done) (d := 2) c.due rfl (c.body.trans ?_) (onlyMessages_refl s) rfl
  rw [if_neg no, same]

end Clears

theorem clear_refused {s : State} {n : Strip} (h : due s n .clearMessage)
    (bad : s.argNum n 0 = 0 ∨ 239 < s.argNum n 0) : endsOrder .clearMessage s s n .clearMessage 0x0200 := by
  refine endsOrder_of_messages (r := .badArgument) (d := 0) h rfl ?_ (onlyMessages_refl s) rfl
  unfold clearMessageBody
  rw [arg_orderArgs s n .clearMessage 0 (by decide)]
  refine if_neg fun code => ?_
  rw [hostCode_iff] at code
  omega

/-! ## ACK MESSAGE (R131) -/

theorem originOfCode_eq_some_iff (n : Nat) (o : Origin) : originOfCode n = some o ↔ originCode o = n := by
  constructor
  · intro h
    unfold originOfCode at h
    split at h <;> cases h <;> rfl
  · rintro rfl
    cases o <;> rfl

theorem originCode_le (o : Origin) : originCode o ≤ 5 := by cases o <;> decide

theorem ack_acts {s : State} {n : Strip} (h : due s n .ackMessage) {o : Origin} {e : Entry}
    (code : originCode o = s.argNum n 1) (named : s.argNum n 0 ≠ 0)
    (found : s.stack.find ⟨s.argNum n 0, o, s.argNum n 2⟩ = some e) :
    endsOrder .ackMessage s (s.acknowledge ⟨s.argNum n 0, o, s.argNum n 2⟩) n .ackMessage 0x0000 := by
  refine endsOrder_of_messages (r := .done) (d := 0) h rfl ?_ ((onlyMessages_iff _ _).2 (by simp)) rfl
  unfold ackMessageBody
  rw [arg_orderArgs s n .ackMessage 0 (by decide), arg_orderArgs s n .ackMessage 1 (by decide),
    arg_orderArgs s n .ackMessage 2 (by decide), (originOfCode_eq_some_iff _ _).2 code]
  exact if_neg (by simp [named, found])

theorem ack_refused {s : State} {n : Strip} (h : due s n .ackMessage)
    (bad : s.argNum n 0 = 0 ∨ 5 < s.argNum n 1 ∨
      ∀ o, originCode o = s.argNum n 1 → s.stack.find ⟨s.argNum n 0, o, s.argNum n 2⟩ = none) :
    endsOrder .ackMessage s s n .ackMessage 0x0200 := by
  refine endsOrder_of_messages (r := .badArgument) (d := 0) h rfl ?_ (onlyMessages_refl s) rfl
  unfold ackMessageBody
  rw [arg_orderArgs s n .ackMessage 0 (by decide), arg_orderArgs s n .ackMessage 1 (by decide),
    arg_orderArgs s n .ackMessage 2 (by decide)]
  split
  · rfl
  · rename_i o coded
    have code := (originOfCode_eq_some_iff _ _).1 coded
    have low := originCode_le o
    refine if_pos (bad.imp_right fun bad => ?_)
    rw [bad.resolve_left (by omega) o code]
    rfl

/-- An acknowledgement ends the continuous tone (R93), with play time 0 for what follows it (log 49). -/
theorem chime_acknowledge (c : Chime) : c.acknowledge.continuous = false ∧
    (c.playing = .continuous → c.acknowledge = if c.waiting then ⟨.single, 0, false, false⟩ else ⟨.silent, 0, false, false⟩) ∧
    (c.playing ≠ .continuous → c.acknowledge = { c with continuous := false }) := by
  obtain ⟨playing, time, continuous, waiting⟩ := c
  cases playing with
  | continuous => cases waiting <;> simp [Chime.acknowledge, Chime.goOn]
  | silent | single | click => simp [Chime.acknowledge]

end Sys2Proof.Machine
end

section
/-! The settling of O32. CLEAR MESSAGE and ACK MESSAGE by the entry that they name (R126, R127, R131, R133), and the retry of
the pending list behind an acknowledged entry that leaves (R125). -/

namespace Sys2Proof.Machine

/-! ## The sound of several arrivals (R92, R121) -/

theorem arrivals_of_continuous {c : Chime} (playing : c.playing = .continuous) (rs : List Severity) :
    (c.arrivals rs).playing = .continuous := by
  induction rs generalizing c with
  | nil => exact playing
  | cons r rs ih =>
    refine ih ?_
    cases r with
    | red => simp [Chime.arrival, Chime.requestContinuous, playing]
    | amber => simp [Chime.arrival, Chime.requestSingle, playing]
    | info => exact playing

theorem requestContinuous_playing (c : Chime) : c.requestContinuous.playing = .continuous := by
  unfold Chime.requestContinuous
  split
  · assumption
  all_goals rfl

/-- A RED arrival starts the continuous tone, and no other arrival ends it. -/
theorem arrivals_of_red {rs : List Severity} (red : .red ∈ rs) (c : Chime) : (c.arrivals rs).playing = .continuous := by
  induction rs generalizing c with
  | nil => exact nomatch red
  | cons r rs ih =>
    rcases List.mem_cons.1 red with rfl | later
    · exact arrivals_of_continuous (requestContinuous_playing c) rs
    · exact ih later _

/-! ## A retry that makes its posts (R125) -/

/-- The stack with a waiting message arrived. -/
def Stack.withArrival (k : Stack) (w : Identity × Severity) : Stack where
  entries := k.entries ++ [⟨w.1, w.2, .new, true, k.counter + 1, 0⟩]
  counter := k.counter + 1
  waiting := k.waiting.filter fun x => x.1 != w.1

theorem Stack.retryOne_of_room {k : Stack} {w : Identity × Severity} (absent : k.find w.1 = none)
    (room : k.roomFor w.1 w.2 = some k) (counts : k.counter < max32) (rings : List Severity) :
    Stack.retryOne (k, rings) w = (k.withArrival w, rings ++ [w.2]) := by
  unfold Stack.retryOne
  dsimp only
  rw [Stack.offer_of_room absent room, Stack.arrive_of_absent counts absent]
  rfl

/-- A waiting message needs one of the places for AMBER and INFO where it is not RED. -/
theorem nonRed_waiting_cons (w : Identity × Severity) (l : List (Identity × Severity)) :
    ((w :: l).filter fun w => w.2 != .red).length =
      (if w.2 = .red then 0 else 1) + (l.filter fun w => w.2 != .red).length := by
  by_cases red : w.2 = .red
  · simp [red]
  · simp [red, Nat.add_comm]

/-- Waiting messages that all find a free place: none is held, none waits twice. -/
structure Stack.Admits (k : Stack) (l : List (Identity × Severity)) : Prop where
  once : (l.map Prod.fst).Nodup
  absent : ∀ w ∈ l, k.find w.1 = none
  length : k.entries.length + l.length ≤ 16
  nonRed : k.nonRedCount + (l.filter fun w => w.2 != .red).length ≤ 12
  counts : k.counter + l.length ≤ max32

namespace Stack.Admits
variable {k : Stack} {w : Identity × Severity} {l : List (Identity × Severity)} (a : k.Admits (w :: l))
include a

theorem counts_head : k.counter < max32 := by
  have := a.counts
  rw [List.length_cons] at this
  omega

theorem room_head : k.roomFor w.1 w.2 = some k := by
  have length := a.length
  have nonRed := a.nonRed
  rw [List.length_cons] at length
  rw [nonRed_waiting_cons] at nonRed
  refine Stack.roomFor_of_free (by omega) fun ne => ?_
  rw [if_neg ne] at nonRed
  omega

/-- The places of the rest stay free. -/
theorem tail : (k.withArrival w).Admits l := by
  obtain ⟨once, absent, length, nonRed, counts⟩ := a
  rw [List.map_cons, List.nodup_cons] at once
  rw [List.length_cons] at length counts
  refine ⟨once.2, fun x hx => Stack.find_eq_none_iff.2 fun e he => ?_, ?_, ?_, ?_⟩
  · rcases List.mem_append.1 he with old | new
    · exact Stack.find_eq_none_iff.1 (absent x (List.mem_cons_of_mem _ hx)) e old
    · obtain rfl := List.mem_singleton.1 new
      exact fun same => once.1 (List.mem_map.2 ⟨x, hx, same.symm⟩)
  · dsimp only [Stack.withArrival]
    rw [List.length_append, List.length_singleton]
    omega
  · have count : (k.withArrival w).nonRedCount = k.nonRedCount + if w.2 = .red then 0 else 1 :=
      nonRed_append_arrival _ _ _ _
    rw [count]
    rwa [nonRed_waiting_cons, ← Nat.add_assoc] at nonRed
  · dsimp only [Stack.withArrival]
    omega

end Stack.Admits

/-- Each message arrives behind the one before it and leaves the pending list. -/
theorem foldl_retryOne_of_admits {k : Stack} {l : List (Identity × Severity)} (a : k.Admits l) (rings : List Severity) :
    l.foldl Stack.retryOne (k, rings) =
      (⟨k.entries ++ l.mapIdx (fun i w => ⟨w.1, w.2, .new, true, k.counter + 1 + i, 0⟩), k.counter + l.length,
        k.waiting.filter fun w => !(l.map Prod.fst).contains w.1⟩, rings ++ l.map Prod.snd) := by
  induction l generalizing k rings with
  | nil => simp
  | cons w l ih =>
    rw [List.foldl_cons, Stack.retryOne_of_room (a.absent w List.mem_cons_self) a.room_head a.counts_head, ih a.tail]
    have shift : ∀ i, k.counter + 1 + 1 + i = k.counter + 1 + (i + 1) := fun i => by omega
    simp only [Stack.withArrival, List.mapIdx_cons, List.filter_filter, shift, List.length_cons, List.map_cons,
      List.append_assoc, List.singleton_append, Nat.add_zero, List.contains_cons, Bool.not_or, Prod.mk.injEq,
      Stack.mk.injEq, true_and, and_true]
    exact ⟨by omega, List.filter_congr fun x _ => Bool.and_comm _ _⟩

/-- A message that may evict none of sixteen entries waits on. -/
theorem Stack.retryOne_of_full {k : Stack} {w : Identity × Severity} (nonRed : w.2 ≠ .red)
    (absent : ∀ x ∈ k.entries, x.id ≠ w.1) (full : 16 ≤ k.entries.length)
    (stay : ∀ x ∈ k.entries, ¬(x.active = false ∧ x.severity ≠ .red) ∧ ¬(x.state = .acked ∧ x.severity = .info))
    (rings : List Severity) : Stack.retryOne (k, rings) w = (k, rings) := by
  have noRoom : k.roomFor w.1 w.2 = none := by
    rw [Stack.roomFor_of_full (fun _ => .inr full) fun red => absurd red nonRed, Stack.victimFor, if_neg nonRed,
      nonRedVictim_of_none (fun _ => Iff.rfl) (fun _ => Iff.rfl) (fun x held _ => absent x held) stay]
    rfl
  unfold Stack.retryOne
  dsimp only
  rw [Stack.offer_of_noRoom (Stack.find_eq_none_iff.2 absent) noRoom]

/-! ## The clear of an acknowledged entry (R127) -/

/-- The clears that take an acknowledged entry out, with the retry's order of the pending list. -/
structure ClearsAcked (s : State) (n : Strip) (e : Entry) (left : List Entry) (again : List (Identity × Severity)) :
    Prop where
  clears : Clears s n e.id
  capacity : s.stack.withinCapacity
  found : s.stack.find e.id = some e
  active : e.active = true
  acked : e.state = .acked
  isLeft : left = s.stack.entries.filter (fun x => x.id != e.id)
  isAgain : again = s.stack.waiting.filter (fun w => w.2 == .red) ++ s.stack.waiting.filter (fun w => w.2 != .red)
  once : (again.map Prod.fst).Nodup
  absent : ∀ w ∈ again, s.stack.find w.1 = none

namespace ClearsAcked
variable {s : State} {n : Strip} {e : Entry} {left : List Entry} {again : List (Identity × Severity)}
  (c : ClearsAcked s n e left again)
include c

theorem mem_again {w : Identity × Severity} (waits : w ∈ s.stack.waiting) : w ∈ again := by
  rw [c.isAgain, List.mem_append, List.mem_filter, List.mem_filter]
  by_cases red : w.2 = .red
  · exact .inl ⟨waits, beq_iff_eq.2 red⟩
  · exact .inr ⟨waits, bne_iff_ne.2 red⟩

theorem ne_of_mem_waiting {w : Identity × Severity} (waits : w ∈ s.stack.waiting) : w.1 ≠ e.id := fun same => by
  have absent := c.absent w (c.mem_again waits)
  rw [same, c.found] at absent
  exact nomatch absent

/-- None of the messages retried is held by an entry that stays. -/
theorem absent_of_left {w : Identity × Severity} (waits : w ∈ again) {x : Entry} (held : x ∈ left) : x.id ≠ w.1 := by
  rw [c.isLeft] at held
  exact Stack.find_eq_none_iff.1 (c.absent w waits) x (List.mem_filter.1 held).1

theorem length_left : left.length < s.stack.entries.length := by
  have length := Stack.length_of_find (single_of_withinCapacity c.capacity) c.found
  rw [c.isLeft, length]
  exact Nat.lt_succ_self _

/-- The entry leaves, and the pending list is retried. -/
theorem clear_eq : s.stack.clear e.id = again.foldl Stack.retryOne (⟨left, s.stack.counter, s.stack.waiting⟩, []) := by
  have gone := (deactivate_gone_iff e).2 (.inl c.acked)
  rw [Stack.clear_of_active c.found c.active fun _ waits => c.ne_of_mem_waiting waits,
    Stack.change_of_gone deactivate_id (single_of_withinCapacity c.capacity) c.found gone, c.isAgain, c.isLeft]
  exact if_pos rfl

/-- What the retry leaves is what the order leaves; an arrival or the entry's leaving sets the cause. -/
theorem ends {k : Stack} {rings : List Severity}
    (retried : again.foldl Stack.retryOne (⟨left, s.stack.counter, s.stack.waiting⟩, []) = (k, rings))
    (changes : rings = [] → k.entries = left) :
    endsOrder .clearMessage s (s.takeStack (k, rings)) n .clearMessage 0x0001 ∧
      pends (s.takeStack (k, rings)) .messageChange := by
  refine ⟨?_, ?_⟩
  · have acts := c.clears.acts c.found c.active
    unfold State.clear at acts
    rwa [c.clear_eq, retried] at acts
  · by_cases quiet : rings = []
    · refine pends_takeStack_of_length ?_
      dsimp only
      rw [changes quiet]
      exact c.length_left.ne
    · exact pends_takeStack_of_arrival _ _ quiet

/-- Every waiting message finds a place. -/
theorem allArrive (length : left.length + again.length ≤ 16)
    (nonRed : (left.filter fun x => x.severity != .red).length + (again.filter fun w => w.2 != .red).length ≤ 12)
    (counts : s.stack.counter + again.length ≤ max32) :
    ∃ m, endsOrder .clearMessage s m n .clearMessage 0x0001 ∧ onlyMessages s m ∧ pends m .messageChange ∧
      m.stack = ⟨left ++ again.mapIdx (fun i w => ⟨w.1, w.2, .new, true, s.stack.counter + 1 + i, 0⟩),
        s.stack.counter + again.length, []⟩ ∧
      (s.mode.mode.chimes = true → (∃ w ∈ again, w.2 = .red) → m.chime.playing = .continuous) := by
  have admits : (⟨left, s.stack.counter, s.stack.waiting⟩ : Stack).Admits again :=
    ⟨c.once, fun w waits => Stack.find_eq_none_iff.2 fun x held => c.absent_of_left waits held, length, nonRed, counts⟩
  have all : s.stack.waiting.filter (fun w => !(again.map Prod.fst).contains w.1) = [] :=
    List.filter_eq_nil_iff.2 fun w waits => by
      simpa using ⟨w.2, c.mem_again waits⟩
  have retried := foldl_retryOne_of_admits admits []
  rw [all, List.nil_append] at retried
  obtain ⟨acts, changed⟩ := c.ends retried fun none => by simp [List.map_eq_nil_iff.1 none]
  refine ⟨_, acts, takeStack_frame _ _, changed, rfl, fun chimes ⟨w, waits, red⟩ => ?_⟩
  rw [takeStack_chime_of_chimes chimes]
  exact arrivals_of_red (List.mem_map.2 ⟨w, waits, red⟩) _

/-- A RED message takes the last place, and the other one waits on. -/
theorem redArrives {other red : Identity} {sev : Severity} (two : s.stack.waiting = [(other, sev), (red, .red)])
    (ne : sev ≠ .red) (length : left.length = 15) (counts : s.stack.counter < max32)
    (none : ∀ x ∈ left, x.severity ≠ .red → x.active = true ∧ (x.state = .acked → x.severity ≠ .info)) :
    ∃ m, endsOrder .clearMessage s m n .clearMessage 0x0001 ∧ onlyMessages s m ∧ pends m .messageChange ∧
      m.stack = ⟨left ++ [⟨red, .red, .new, true, s.stack.counter + 1, 0⟩], s.stack.counter + 1, [(other, sev)]⟩ := by
  have order : again = [(red, .red), (other, sev)] := by
    rw [c.isAgain, two]
    simp [ne]
  have distinct : other ≠ red := fun same => by
    have once := c.once
    rw [order, same] at once
    simp at once
  have first := Stack.retryOne_of_room (k := ⟨left, s.stack.counter, s.stack.waiting⟩) (w := (red, .red))
    (Stack.find_eq_none_iff.2 fun x held => c.absent_of_left (by simp [order]) held)
    (Stack.roomFor_of_free (by dsimp only; omega) fun no => absurd rfl no) counts []
  have second := Stack.retryOne_of_full (k := Stack.withArrival ⟨left, s.stack.counter, s.stack.waiting⟩ (red, .red))
    (w := (other, sev)) ne (fun x held => ?absent) (by simp [Stack.withArrival, length]) (fun x held => ?stay) [.red]
  case absent =>
    rcases List.mem_append.1 held with old | new
    · exact c.absent_of_left (w := (other, sev)) (by simp [order]) old
    · obtain rfl := List.mem_singleton.1 new
      exact distinct.symm
  case stay =>
    rcases List.mem_append.1 held with old | new
    · refine ⟨fun ⟨inactive, nonRed⟩ => ?_, fun ⟨acked, info⟩ => ?_⟩
      · rw [(none x old nonRed).1] at inactive
        exact nomatch inactive
      · exact (none x old (by simp [info])).2 acked info
    · obtain rfl := List.mem_singleton.1 new
      simp
  have retried : again.foldl Stack.retryOne (⟨left, s.stack.counter, s.stack.waiting⟩, []) =
      (⟨left ++ [⟨red, .red, .new, true, s.stack.counter + 1, 0⟩], s.stack.counter + 1, [(other, sev)]⟩, [.red]) := by
    rw [order, List.foldl_cons, first, List.foldl_cons, List.foldl_nil, List.nil_append, second]
    simp [Stack.withArrival, two, distinct]
  obtain ⟨acts, changed⟩ := c.ends retried (by simp)
  exact ⟨_, acts, takeStack_frame _ _, changed, rfl⟩

end ClearsAcked

/-! ## The orders with no identity in the pending list -/

/-- A clear of an active entry. -/
theorem Clears.deactivates {s : State} {n : Strip} {id : Identity} (c : Clears s n id) (idle : s.stack.waiting = [])
    {e : Entry} (found : s.stack.find id = some e) (active : e.active = true) :
    ∃ m, endsOrder .clearMessage s m n .clearMessage 0x0001 ∧ onlyMessages s m ∧ m.chime = s.chime ∧
      m.stack.counter = s.stack.counter ∧ m.stack.waiting = [] ∧
      (∀ other, other ≠ id → m.stack.find other = s.stack.find other) ∧
      (e.state = .acked ∨ (e.state = .new ∧ e.severity ≠ .red) ∨
          (e.state = .shown ∧ e.severity = .info ∧ 5000 ≤ e.shownTime) →
        (s.stack.withinCapacity → m.stack.find id = none) ∧ pends m .messageChange) ∧
      ((e.state = .new ∧ e.severity = .red) ∨
          (e.state = .shown ∧ (e.severity ≠ .info ∨ e.shownTime < 5000)) →
        m.stack.find id = some { e with active := false }) := by
  have acts := c.acts found active
  unfold State.clear at acts
  rw [Stack.clear_of_idle idle found active] at acts
  refine ⟨_, acts, takeStack_frame _ _, takeStack_chime_of_quiet _ _, rfl, idle,
    fun other ne => Stack.find_change_of_ne deactivate_id ne, fun leaves => ?_,
    fun stays => Stack.find_change_of_stays deactivate_id found (deactivate_stays stays)⟩
  have gone := (deactivate_gone_iff e).2 leaves
  exact ⟨fun capacity => Stack.find_change_of_gone deactivate_id (single_of_withinCapacity capacity) found gone,
    pends_takeStack_of_length (Stack.length_change_of_gone deactivate_id found gone).ne⟩

/-- An acknowledgement of a held entry. -/
theorem ack_acknowledges {s : State} {n : Strip} (h : due s n .ackMessage) {o : Origin} {e : Entry}
    (code : originCode o = s.argNum n 1) (named : s.argNum n 0 ≠ 0)
    (found : s.stack.find ⟨s.argNum n 0, o, s.argNum n 2⟩ = some e) (idle : s.stack.waiting = []) :
    ∃ m, endsOrder .ackMessage s m n .ackMessage 0x0000 ∧ onlyMessages s m ∧
      (∀ other, other ≠ e.id → m.stack.find other = s.stack.find other) ∧
      (e.active = true → m.stack.find e.id = some { e with state := .acked }) ∧
      (e.active = false → s.stack.withinCapacity → m.stack.find e.id = none) ∧
      m.chime = s.chime.acknowledge := by
  have acts := ack_acts h code named found
  rw [← (Stack.find_some found).2] at acts found
  unfold State.acknowledge at acts
  rw [Stack.acknowledge_of_idle idle] at acts
  refine ⟨_, acts, (onlyMessages_iff _ _).2 (by simp), fun other ne => Stack.find_change_of_ne acknowledge_id ne,
    fun active => ?_, fun inactive capacity => ?_, takeStack_chime_of_quiet _ _⟩
  · exact Stack.find_change_of_stays acknowledge_id found (by rw [acknowledge_gone, active]; rfl)
  · exact Stack.find_change_of_gone acknowledge_id (single_of_withinCapacity capacity) found
      (by rw [acknowledge_gone, inactive]; rfl)

/-- Settles O32: the two orders by the entry that they name, then the retry behind an acknowledged entry that leaves. -/
theorem clearAndAckMessageAct : Obligations.ClearAndAckMessageAct := by
  refine ⟨fun s n h => ⟨clear_refused h, fun id names low high idle => ?_⟩, fun s n h held none some => ?_,
    fun s n e left again h capacity names low high found active acked isLeft isAgain once absent => ?_⟩
  · have c : Clears s n id := ⟨h, names, low, high⟩
    exact ⟨c.leaves idle, fun e => c.deactivates idle⟩
  · refine ⟨fun no => ack_refused h (none.1 no), fun e is idle => ?_⟩
    obtain ⟨o, code, found⟩ := some e is
    have named : s.argNum n 0 ≠ 0 := fun zero => by
      have no := none.2 (.inl zero)
      rw [is] at no
      exact nomatch no
    obtain ⟨m, acts, frame, others, stays, leaves, chime⟩ := ack_acknowledges h code named found idle
    refine ⟨m, acts, frame, others, stays, leaves, ?_⟩
    rw [chime]
    exact chime_acknowledge s.chime
  · have c : ClearsAcked s n e left again :=
      ⟨⟨h, names, low, high⟩, capacity, found, active, acked, isLeft, isAgain, once, absent⟩
    exact ⟨c.allArrive, fun other red sev => c.redArrives⟩

end Sys2Proof.Machine
end

section
/-! The settling of O24. SELECT PAGE (R152) and TAKE KEYS (R153). -/

namespace Sys2Proof.Machine

/-! ## SELECT PAGE -/

theorem pageCount_of_panel {s : State} {pages : Nat}
    (h : s.tables.panel = none ∧ pages = 1 ∨ ∃ p, s.tables.panel = some p ∧ pages = p.pages.length) :
    s.pageCount = pages := by
  unfold State.pageCount
  rcases h with ⟨unloaded, rfl⟩ | ⟨p, loaded, rfl⟩
  · rw [unloaded]
  · rw [loaded]

theorem selectPageBody_due (s : State) (n : Strip) : selectPageBody s (s.orderArgs n .selectPage) =
    if s.pageCount ≤ s.argNum n 0 then refuse s .badArgument
    else done (s.withPanel { s.panel with selected := s.argNum n 0, index := 0, indexMode := false }) := by
  unfold selectPageBody
  rw [arg_orderArgs s n .selectPage 0 (by decide)]
  rfl

theorem selectPage_ends {s m : State} {n : Strip} {r : Result} {w : Word} (h : due s n .selectPage)
    (body : selectPageBody s (s.orderArgs n .selectPage) = (m, .ended r 0)) (engine : m.engine = s.engine)
    (xm : m.xm = s.xm) (word : resultWord r 0 = w) : endsOrder .selectPage s m n .selectPage w :=
  endsOrder_of_body h rfl body engine (fun _ _ => readXm_congr xm _) (xm ▸ h.2) word

/-! ## TAKE KEYS -/

/-- TAKE KEYS refuses the maximum count or the range. -/
def takeKeysRefuses (a most : Nat) : Prop := most < 1 ∨ 16 < most ∨ a < 0x500 ∨ 0x1000 < a + 2 * most

theorem takeKeysBody_refused {s : State} {n : Strip} (bad : takeKeysRefuses (s.argNum n 0) (s.argNum n 1)) :
    takeKeysBody s (s.orderArgs n .takeKeys) = refuse s .badArgument := by
  unfold takeKeysBody
  rw [arg_orderArgs s n .takeKeys 0 (by decide), arg_orderArgs s n .takeKeys 1 (by decide)]
  exact if_pos bad

theorem State.writeWords_panel (s : State) (a : Nat) (ws : List Word) : (s.writeWords a ws).panel = s.panel := by
  rw [State.writeWords_eq]
  rfl

/-- The state in which entries have been moved from the queue to an address. -/
def State.keysTaken (s : State) (a most : Nat) : State :=
  (s.writeWords a ((s.panel.queue.take most).flatMap KeyEntry.words)).withPanel
    { s.panel with queue := s.panel.queue.drop most }

theorem keysTaken_eq (s : State) (a most : Nat) : s.keysTaken a most =
    (s.withXm (s.keysTaken a most).xm).withPanel { s.panel with queue := s.panel.queue.drop most } := by
  unfold State.keysTaken
  rw [State.writeWords_eq]
  rfl

theorem takeKeysBody_taken {s : State} {n : Strip} (good : ¬takeKeysRefuses (s.argNum n 0) (s.argNum n 1)) :
    takeKeysBody s (s.orderArgs n .takeKeys) =
      (s.keysTaken (s.argNum n 0) (s.argNum n 1), .ended .done (min (s.argNum n 1) s.panel.queue.length)) := by
  unfold takeKeysBody State.keysTaken
  rw [arg_orderArgs s n .takeKeys 0 (by decide), arg_orderArgs s n .takeKeys 1 (by decide)]
  refine (if_neg good).trans ?_
  dsimp only
  rw [State.writeWords_panel, List.length_take]

/-- Every entry takes two words. -/
theorem length_flatMap_words (l : List KeyEntry) : (l.flatMap KeyEntry.words).length = 2 * l.length := by
  simp [KeyEntry.words, Nat.mul_comm]

/-- The two words of an entry stand one behind the other, at twice its place. -/
theorem getElem?_flatMap_words {l : List KeyEntry} {i : Nat} {e : KeyEntry} (h : l[i]? = some e) :
    (l.flatMap KeyEntry.words)[2 * i]? = some (wordOf (keyCode e.key + 16 * flagOf e.long)) ∧
      (l.flatMap KeyEntry.words)[2 * i + 1]? = some (wordOf e.stamp) := by
  induction l generalizing i with
  | nil => simp at h
  | cons x l ih =>
    cases i with
    | zero =>
      obtain rfl : x = e := by simpa using h
      exact ⟨rfl, rfl⟩
    | succ i => exact ih (i := i) (by simpa using h)

/-- Exchange memory after the move. -/
theorem readXm_keysTaken {s : State} (wf : s.xm.wf = true) {a most : Nat} (inside : a + 2 * most ≤ 0x1000) :
    (∀ i e, i < most → s.panel.queue[i]? = some e →
      (s.keysTaken a most).readXm (a + 2 * i) = wordOf (keyCode e.key + 16 * flagOf e.long) ∧
      (s.keysTaken a most).readXm (a + 2 * i + 1) = wordOf e.stamp) ∧
    ∀ b, b < a ∨ a + 2 * min most s.panel.queue.length ≤ b → (s.keysTaken a most).readXm b = s.readXm b := by
  have length := length_flatMap_words (s.panel.queue.take most)
  rw [List.length_take] at length
  refine ⟨fun i e hi he => ?_, fun b out => ?_⟩
  · have taken : (s.panel.queue.take most)[i]? = some e := by rw [List.getElem?_take_of_lt hi, he]
    obtain ⟨first, second⟩ := getElem?_flatMap_words taken
    exact ⟨State.readXm_writeWords wf a _ _ _ first (by omega),
      State.readXm_writeWords wf a _ _ _ second (by omega)⟩
  · exact State.readXm_writeWords_ne wf a b _ (by omega)

theorem resultWord_done {d : Nat} (h : d < 256) : resultWord .done d = BitVec.ofNat 16 d := by
  unfold resultWord Result.code wordOf
  rw [Nat.mod_eq_of_lt h, Nat.zero_mul, Nat.zero_add]

theorem takeKeys_takes {s : State} {n : Strip} (h : due s n .takeKeys)
    (good : ¬takeKeysRefuses (s.argNum n 0) (s.argNum n 1)) :
    endsOrder .takeKeys s (s.keysTaken (s.argNum n 0) (s.argNum n 1)) n .takeKeys
      (BitVec.ofNat 16 (min (s.argNum n 1) s.panel.queue.length)) := by
  have bounds : s.argNum n 1 ≤ 16 ∧ 0x500 ≤ s.argNum n 0 ∧ s.argNum n 0 + 2 * s.argNum n 1 ≤ 0x1000 := by
    unfold takeKeysRefuses at good
    omega
  obtain ⟨few, staging, inside⟩ := bounds
  obtain ⟨_, others⟩ := readXm_keysTaken h.2 inside
  have engine : (s.keysTaken (s.argNum n 0) (s.argNum n 1)).engine = s.engine := by
    rw [keysTaken_eq]
    rfl
  exact endsOrder_of_body h rfl (takeKeysBody_taken good) engine (fun b low => others b (by omega))
    (State.writeWords_wf h.2 _ _) (resultWord_done (by omega))

/-- Settles O24: each order's body by its checks, and the words that TAKE KEYS writes. -/
theorem selectPageAndTakeKeysAct : Obligations.SelectPageAndTakeKeysAct := by
  refine ⟨fun s n pages h panel => ?_, fun s n a most h isA isMost => ?_⟩
  · have body := selectPageBody_due s n
    rw [pageCount_of_panel panel] at body
    exact ⟨fun beyond => selectPage_ends h (body.trans (if_pos beyond)) rfl rfl rfl,
      fun below => selectPage_ends h (body.trans (if_neg (Nat.not_le.2 below))) rfl rfl rfl⟩
  · subst isA isMost
    refine ⟨fun bad => ?_, fun low high staging inside taken isTaken => ?_⟩
    · exact endsOrder_of_body (r := .badArgument) (d := 0) h rfl (takeKeysBody_refused bad) rfl (fun _ _ => rfl) h.2 rfl
    · subst isTaken
      have good : ¬takeKeysRefuses (s.argNum n 0) (s.argNum n 1) := by
        unfold takeKeysRefuses
        omega
      obtain ⟨words, others⟩ := readXm_keysTaken h.2 inside
      refine ⟨_, takeKeys_takes h good, keysTaken_eq _ _ _, fun i e hi he => ?_, others⟩
      obtain ⟨first, second⟩ := words i e (by omega) he
      refine ⟨first.trans ?_, second⟩
      cases e.long <;> rfl

end Sys2Proof.Machine
end

section
/-! SUPPORT. The view-top is what the fold over the visible entries finds (R128). -/

namespace Sys2Proof.Machine

theorem firstOf_cases (a : Option Entry) (e : Entry) : firstOf a e = some e ∨ firstOf a e = a := by
  cases a with
  | none => exact .inl rfl
  | some b =>
    by_cases ahead : e.before b = true
    · exact .inl (if_pos ahead)
    · exact .inr (if_neg ahead)

theorem Entry.not_before_of_before {a b : Entry} (h : a.before b = true) : ¬b.before a = true := by
  simp only [Entry.before, Bool.or_eq_true, Bool.and_eq_true, decide_eq_true_eq] at *
  omega

theorem firstOf_new {a : Option Entry} {v : Entry} (first : ∀ e, a = some e → e = v ∨ v.before e = true) :
    firstOf a v = some v := by
  cases a with
  | none => rfl
  | some b =>
    rcases first b rfl with rfl | ahead
    · exact ite_self _
    · exact if_pos ahead

theorem firstOf_stays {v e : Entry} (first : e = v ∨ v.before e = true) : firstOf (some v) e = some v := by
  rcases first with rfl | ahead
  · exact ite_self _
  · exact if_neg (Entry.not_before_of_before ahead)

/-- The fold finds the entry that stands before all others. -/
theorem foldl_firstOf {v : Entry} (l : List Entry) (a : Option Entry) (here : v ∈ l ∨ a = some v)
    (first : ∀ e, e ∈ l ∨ a = some e → e = v ∨ v.before e = true) : l.foldl firstOf a = some v := by
  induction l generalizing a with
  | nil => exact here.resolve_left List.not_mem_nil
  | cons e l ih =>
    refine ih _ ?_ fun x hx => first x ?_
    · rcases here with here | rfl
      · rcases List.mem_cons.1 here with rfl | later
        · exact .inr (firstOf_new fun x hx => first x (.inr hx))
        · exact .inl later
      · exact .inr (firstOf_stays (first e (.inl List.mem_cons_self)))
    · rcases hx with later | picked
      · exact .inl (List.mem_cons_of_mem _ later)
      · rcases firstOf_cases a e with new | old
        · exact .inl (List.mem_cons.2 (.inl (Option.some.inj (picked.symm.trans new))))
        · exact .inr (old.symm.trans picked)

/-- The fold finds an entry of its list. -/
theorem mem_of_foldl_firstOf {x : Entry} (l : List Entry) (a : Option Entry) (h : l.foldl firstOf a = some x) :
    x ∈ l ∨ a = some x := by
  induction l generalizing a with
  | nil => exact .inr h
  | cons e l ih =>
    rcases ih _ h with later | picked
    · exact .inl (List.mem_cons_of_mem _ later)
    · rcases firstOf_cases a e with new | old
      · exact .inl (List.mem_cons.2 (.inl (Option.some.inj (picked.symm.trans new))))
      · exact .inr (old.symm.trans picked)

namespace Stack
variable {k : Stack} {e : Entry}

theorem mem_visible_iff : e ∈ k.visible ↔ e ∈ k.entries ∧ e.state ≠ .acked := by
  simp [Stack.visible]

theorem mem_of_top (h : k.top = some e) : e ∈ k.entries ∧ e.state ≠ .acked :=
  mem_visible_iff.1 ((mem_of_foldl_firstOf _ _ h).resolve_right (by simp))

theorem top_of_viewTop (h : k.viewTop e) : k.top = some e := by
  obtain ⟨found, unacked, first⟩ := h
  have held : e ∈ k.entries := (Stack.find_some found).1
  refine foldl_firstOf _ _ (.inl (mem_visible_iff.2 ⟨held, unacked⟩)) fun x hx => ?_
  obtain ⟨heldX, unackedX⟩ := mem_visible_iff.1 (hx.resolve_right (by simp))
  by_cases same : x = e
  · exact .inl same
  · refine .inr ?_
    simpa [Entry.before] using first x heldX same unackedX

theorem top_of_acked (h : ∀ x ∈ k.entries, x.state = .acked) : k.top = none := by
  cases top : k.top with
  | none => rfl
  | some x =>
    obtain ⟨held, unacked⟩ := mem_of_top top
    exact absurd (h x held) unacked

end Stack

end Sys2Proof.Machine
end

section
/-! SUPPORT and the settling of O59. The debouncers (R149), a key event (R150, R153) and its action by the view
(R151). -/

namespace Sys2Proof.Machine

/-! ## The panel's records -/

@[simp] theorem debouncer_withDebouncer (p : Panel) (k j : Key) (d : Debouncer) :
    (p.withDebouncer k d).debouncer j = if j = k then d else p.debouncer j := by
  cases k <;> cases j <;> rfl

theorem withDebouncer_eq (p : Panel) (k : Key) (d : Debouncer) : p.withDebouncer k d = { p with
    keyOk := (p.withDebouncer k d).keyOk, keyUp := (p.withDebouncer k d).keyUp
    keyDown := (p.withDebouncer k d).keyDown, keyBack := (p.withDebouncer k d).keyBack } := by
  cases k <;> rfl

theorem enqueue_eq (p : Panel) (k : Key) (long : Bool) : p.enqueue k long = { p with
    queue := if p.queue.length < 16 then p.queue ++ [⟨k, long, p.stamp⟩] else p.queue } := by
  unfold Panel.enqueue
  split <;> rfl

/-! ## The part of a key event before its action (R150, R153) -/

/-- The chime after the CLICK request of a key event. -/
def State.clicked (u : State) : Chime :=
  if u.clicks then if u.mode.mode.chimes then u.chime.requestClick else u.chime else u.chime

theorem clicked_eq (u : State) :
    (if u.clicks then u.request Chime.requestClick else u) = u.withChime u.clicked := by
  unfold State.clicked
  by_cases clicks : u.clicks = true
  · rw [if_pos clicks, if_pos clicks]
    rfl
  · rw [if_neg clicks, if_neg clicks]
    rfl

theorem clicks_iff (u : State) : u.clicks = true ↔ ∃ p, u.tables.panel = some p ∧ p.click = true := by
  simp [State.clicks, Option.any_eq_true]

theorem clicked_taken (u : State) : clickTaken u u.clicked := by
  refine ⟨fun enabled chimes sounds => ?_, fun none => ?_⟩
  · have taken : u.clicked = u.chime.requestClick := (if_pos ((clicks_iff u).2 enabled)).trans (if_pos chimes)
    rw [taken, Chime.requestClick]
    rcases sounds with silent | click
    · rw [silent]
    · rw [click]
  · unfold State.clicked
    split
    · split
      · rename_i clicks chimes
        obtain ⟨p, loaded, click⟩ := (clicks_iff u).1 clicks
        rw [Chime.requestClick]
        rcases none with off | deaf | single | continuous
        · exact absurd (off p loaded) (by simp [click])
        · exact absurd deaf (by simp [chimes])
        · rw [single]
        · rw [continuous]
      · rfl
    · rfl

/-- A key event up to its action: the key's debouncer, the queue, the cause and the click. -/
def State.keyTaken (u : State) (k : Key) (long : Bool) (d : Debouncer) : State :=
  ((u.withPanel ((u.panel.withDebouncer k d).enqueue k long)).raise .keyEvent).withChime u.clicked

theorem keyEvent_eq (u : State) (k : Key) (long : Bool) (d : Debouncer) :
    (u.setDebouncer k d).keyEvent k long =
      if u.mode.mode = .running ∨ u.mode.mode = .limp then (u.keyTaken k long d).keyAction k long
      else u.keyTaken k long d := by
  unfold State.keyEvent
  dsimp only
  rw [clicked_eq]
  rfl

section
variable (u : State) (k : Key) (long : Bool) (d : Debouncer)

theorem keyTaken_panel : (u.keyTaken k long d).panel = { u.panel with
    queue := if u.panel.queue.length < 16 then u.panel.queue ++ [⟨k, long, u.panel.stamp⟩] else u.panel.queue
    keyOk := (u.panel.withDebouncer k d).keyOk, keyUp := (u.panel.withDebouncer k d).keyUp
    keyDown := (u.panel.withDebouncer k d).keyDown, keyBack := (u.panel.withDebouncer k d).keyBack } := by
  change (u.panel.withDebouncer k d).enqueue k long = _
  rw [enqueue_eq]
  cases k <;> rfl

theorem keyTaken_debouncer (j : Key) :
    (u.keyTaken k long d).panel.debouncer j = if j = k then d else u.panel.debouncer j := by
  rw [← debouncer_withDebouncer, keyTaken_panel]
  cases j <;> rfl

theorem keyTaken_pends : pends (u.keyTaken k long d) .keyEvent := pends_raise _ _

theorem keyTaken_acknowledgesNothing : acknowledgesNothing u (u.keyTaken k long d) :=
  ⟨rfl, clicked_taken u, rfl⟩

end

/-! ## What the action of a key event leaves alone (R151) -/

/-- Of the panel selection, page index and index mode change at most, and beside it the trips, the stack, the chime and
the link port, where no cause is withdrawn. -/
structure KeyActs (v t : State) : Prop where
  panel : ∃ selected index indexMode,
    t.panel = { v.panel with selected := selected, index := index, indexMode := indexMode }
  frame : onlyMessages ((v.withPanel t.panel).withSpeed t.speed) t
  pends : ∀ c, Machine.pends v c → Machine.pends t c

/-- The actions of the PAGE view change selection, page index, index mode and the speed unit alone. -/
def PageActs (v t : State) : Prop := ∃ selected index indexMode speed,
  t = (v.withPanel { v.panel with selected := selected, index := index, indexMode := indexMode }).withSpeed speed

theorem PageActs.refl (v : State) : PageActs v v := ⟨_, _, _, _, rfl⟩

theorem PageActs.keyActs {v t : State} (h : PageActs v t) : KeyActs v t := by
  obtain ⟨selected, index, indexMode, speed, rfl⟩ := h
  exact ⟨⟨selected, index, indexMode, rfl⟩, onlyMessages_refl _, fun _ h => h⟩

theorem pageActs_withPanel (v : State) (selected index : Nat) (indexMode : Bool) : PageActs v
    (v.withPanel { v.panel with selected := selected, index := index, indexMode := indexMode }) :=
  ⟨selected, index, indexMode, v.speed, rfl⟩

theorem clearPageTrip_acts (v : State) : PageActs v v.clearPageTrip := by
  unfold State.clearPageTrip
  split
  · exact .refl v
  · exact ⟨_, _, _, _, rfl⟩

theorem pageKey_acts (v : State) (k : Key) (long : Bool) : PageActs v (v.pageKey k long) := by
  unfold State.pageKey
  split
  · exact pageActs_withPanel v _ 0 v.panel.indexMode
  · exact pageActs_withPanel v _ 0 v.panel.indexMode
  · split
    · exact pageActs_withPanel v v.panel.selected v.panel.index true
    · exact .refl v
  · exact clearPageTrip_acts v
  all_goals exact .refl v

theorem indexKey_acts (v : State) (k : Key) (long : Bool) : PageActs v (v.indexKey k long) := by
  unfold State.indexKey
  split
  · exact pageActs_withPanel v v.panel.selected _ v.panel.indexMode
  · exact pageActs_withPanel v v.panel.selected _ v.panel.indexMode
  · exact pageActs_withPanel v v.panel.selected v.panel.index false
  · exact clearPageTrip_acts v
  all_goals exact .refl v

theorem keyAction_of_page {v : State} (view : v.panel.view = .page) (k : Key) (long : Bool) :
    v.keyAction k long = if v.panel.indexMode then v.indexKey k long else v.pageKey k long := by
  unfold State.keyAction
  rw [view]

theorem keyAction_of_message {v : State} (view : v.panel.view = .message) (k : Key) (long : Bool) :
    v.keyAction k long = if k = .ok ∧ long = false then v.keyAcknowledge v.panel.displayed else v := by
  unfold State.keyAction
  rw [view]

theorem keyAction_of_other {v : State} (page : v.panel.view ≠ .page) (message : v.panel.view ≠ .message) (k : Key)
    (long : Bool) : v.keyAction k long = v := by
  unfold State.keyAction
  split
  · exact absurd ‹_› message
  · exact absurd ‹_› page
  all_goals rfl

theorem pageAction_acts {v : State} (view : v.panel.view = .page) (k : Key) (long : Bool) :
    PageActs v (v.keyAction k long) := by
  rw [keyAction_of_page view]
  split
  · exact indexKey_acts v k long
  · exact pageKey_acts v k long

theorem keyAcknowledge_acts (v : State) (displayed : Option Identity) : KeyActs v (v.keyAcknowledge displayed) where
  panel := ⟨_, _, _, State.keyAcknowledge_panel v displayed⟩
  frame := (onlyMessages_iff _ _).2 (by simp)
  pends c h := by
    unfold State.keyAcknowledge
    split
    · split
      · exact pends_takeStack _ _ c h
      · exact h
    · exact h

theorem keyAction_acts (v : State) (k : Key) (long : Bool) : KeyActs v (v.keyAction k long) := by
  by_cases page : v.panel.view = .page
  · exact (pageAction_acts page k long).keyActs
  · by_cases message : v.panel.view = .message
    · rw [keyAction_of_message message]
      split
      · exact keyAcknowledge_acts v _
      · exact (PageActs.refl v).keyActs
    · rw [keyAction_of_other page message]
      exact (PageActs.refl v).keyActs

theorem KeyActs.debouncer {v t : State} (h : KeyActs v t) (k : Key) : t.panel.debouncer k = v.panel.debouncer k := by
  obtain ⟨_, _, _, panel⟩ := h.panel
  rw [panel]
  cases k <;> rfl

/-! ## The PAGE view (R151) -/

theorem clearPageTrip_speed (v : State) : ∀ trip,
    trip = (v.tables.panel.bind fun p => p.pages[v.panel.selected]?).bind Page.tripReset →
      v.clearPageTrip.speed = (match trip with
        | none => v.speed
        | some .a => { v.speed with tripA := 0 }
        | some .b => { v.speed with tripB := 0 }) := by
  rintro trip rfl
  unfold State.clearPageTrip
  change (match (v.tables.panel.bind fun p => p.pages[v.panel.selected]?).bind Page.tripReset with
    | none => v
    | some t => v.withSpeed (v.speed.resetTrip t)).speed = _
  cases (v.tables.panel.bind fun p => p.pages[v.panel.selected]?).bind Page.tripReset with
  | none => rfl
  | some t => cases t <;> rfl

theorem clearPageTrip_panel (v : State) : v.clearPageTrip.panel = v.panel := by
  unfold State.clearPageTrip
  split <;> rfl

theorem selectedIndexed_iff (v : State) : v.selectedPage.any Page.indexed = true ↔
    ∃ p g, v.tables.panel = some p ∧ p.pages[v.panel.selected]? = some g ∧ g.indexed = true := by
  simp [State.selectedPage, PanelTable.page, Option.any_eq_true, Option.bind_eq_some_iff]
  exact ⟨fun ⟨g, ⟨p, loaded, page⟩, indexed⟩ => ⟨p, loaded, g, page, indexed⟩,
    fun ⟨p, loaded, g, page, indexed⟩ => ⟨g, ⟨p, loaded, page⟩, indexed⟩⟩

theorem pageCount_eq (v : State) : v.pageCount = (v.tables.panel.map fun p => p.pages.length).getD 1 := by
  unfold State.pageCount
  cases v.tables.panel <;> rfl

/-- With index mode no. -/
theorem pageKey_acted {v : State} (off : v.panel.indexMode = false) (k : Key) (long : Bool) :
    pageActed v (v.pageKey k long) k long := by
  cases long with
  | true =>
    cases k with
    | ok =>
      have panel := clearPageTrip_panel v
      exact ⟨⟨by rw [State.pageKey, panel], by rw [State.pageKey, panel], by rw [State.pageKey, panel]⟩,
        clearPageTrip_speed v⟩
    | up | down | back => exact ⟨⟨rfl, rfl, rfl⟩, rfl⟩
  | false =>
    cases k with
    | up | down => simp [pageActed, State.pageKey, Panel.select, off, pageCount_eq]
    | back => exact ⟨rfl, off, rfl, rfl⟩
    | ok =>
      unfold pageActed
      dsimp only
      rw [← selectedIndexed_iff]
      cases indexed : v.selectedPage.any Page.indexed <;> simp [State.pageKey, indexed, off]

/-- With index mode yes. -/
theorem indexKey_acted {v : State} (on : v.panel.indexMode = true) (k : Key) (long : Bool) :
    pageActed v (v.indexKey k long) k long := by
  cases long with
  | true =>
    cases k with
    | ok =>
      have panel := clearPageTrip_panel v
      exact ⟨⟨by rw [State.indexKey, panel], by rw [State.indexKey, panel], by rw [State.indexKey, panel]⟩,
        clearPageTrip_speed v⟩
    | up | down | back => exact ⟨⟨rfl, rfl, rfl⟩, rfl⟩
  | false =>
    cases k with
    | up | down => simp [pageActed, State.indexKey, on]
    | back => exact ⟨rfl, rfl, rfl, rfl⟩
    | ok => exact ⟨rfl, rfl, rfl, iff_of_true on (.inl on)⟩

theorem pageAction_acted {v : State} (view : v.panel.view = .page) (k : Key) (long : Bool) :
    pageActed v (v.keyAction k long) k long := by
  rw [keyAction_of_page view]
  split
  · exact indexKey_acted ‹_› k long
  · exact pageKey_acted (Bool.eq_false_iff.2 ‹_›) k long

/-- What stood before the action is a matter of the tables, of the trips and of three fields of the panel. -/
theorem pageActed_congr {u v t : State} {k : Key} {long : Bool} (tables : v.tables = u.tables)
    (speed : v.speed = u.speed) (selected : v.panel.selected = u.panel.selected) (index : v.panel.index = u.panel.index)
    (indexMode : v.panel.indexMode = u.panel.indexMode) (h : pageActed v t k long) : pageActed u t k long := by
  unfold pageActed at h ⊢
  rwa [tables, speed, selected, index, indexMode] at h

/-! ## The MESSAGE view (R130) -/

theorem keyAcknowledge_of_top {v : State} {e : Entry} (top : v.stack.top = some e) (shown : e.state = .shown) :
    v.keyAcknowledge (some e.id) = v.acknowledge e.id := by
  unfold State.keyAcknowledge
  rw [top]
  exact if_pos ⟨rfl, shown⟩

theorem keyAcknowledge_of_not {v : State} {displayed : Option Identity}
    (not : ∀ e, v.stack.top = some e → displayed = some e.id → e.state ≠ .shown) : v.keyAcknowledge displayed = v := by
  unfold State.keyAcknowledge
  split
  · rename_i top
    refine if_neg fun acks => ?_
    obtain ⟨rfl, shown⟩ := acks
    exact not _ top rfl shown
  · rfl

/-- An acknowledged view-top is the view-top no more. -/
theorem Stack.topId_acknowledged (k : Stack) (id : Identity) : (k.change id Entry.acknowledge).topId ≠ some id := by
  intro still
  obtain ⟨x, top, rfl⟩ := Option.map_eq_some_iff.1 still
  obtain ⟨held, unacked⟩ := Stack.mem_of_top top
  obtain ⟨y, _, changed⟩ := List.mem_map.1 (List.mem_filter.1 held).1
  split at changed
  · exact unacked (changed ▸ rfl)
  · rename_i other
    exact other (congrArg Entry.id changed)

/-- Where the view-top is another, MESSAGE_CHANGE is set (R134). -/
theorem pends_takeStack_of_topId {s : State} {r : Stack × List Severity} (other : r.1.topId ≠ s.stack.topId) :
    pends (s.takeStack r) .messageChange := by
  have changed : (s.stack.changed r.1 || !r.2.isEmpty) = true := by
    rw [Stack.changed, bne_iff_ne.2 other.symm, Bool.or_true]
    rfl
  rw [pends, State.takeStack, if_pos changed, bit_raise]
  simp

/-- The acknowledgement of a shown view-top after the click (R93, R130, R134). -/
theorem acknowledge_acknowledgesTop {u v : State} {e : Entry} (stack : v.stack = u.stack)
    (click : clickTaken u v.chime) (top : u.stack.viewTop e) (idle : u.stack.waiting = [])
    (capacity : u.stack.withinCapacity) : acknowledgesTop u (v.acknowledge e.id) e := by
  have found := top.1
  have is : v.acknowledge e.id =
      (v.withChime v.chime.acknowledge).takeStack (u.stack.change e.id Entry.acknowledge, []) := by
    unfold State.acknowledge
    rw [stack, Stack.acknowledge_of_idle idle]
  rw [is]
  obtain ⟨_, continuous, others⟩ := chime_acknowledge v.chime
  have topId : u.stack.topId = some e.id := congrArg (Option.map Entry.id) (Stack.top_of_viewTop top)
  refine ⟨fun active => ?_, fun inactive => ?_, fun other ne => Stack.find_change_of_ne acknowledge_id ne, ?_,
    v.chime, click, ?_⟩
  · exact Stack.find_change_of_stays acknowledge_id found (by rw [acknowledge_gone, active]; rfl)
  · exact Stack.find_change_of_gone acknowledge_id (single_of_withinCapacity capacity) found
      (by rw [acknowledge_gone, inactive]; rfl)
  · refine pends_takeStack_of_topId ?_
    change _ ≠ v.stack.topId
    rw [stack, topId]
    exact Stack.topId_acknowledged _ _
  · rw [takeStack_chime_of_quiet]
    exact ⟨continuous, others⟩

/-! ## The key event -/

section
variable (u : State) (k : Key) (long : Bool) (d : Debouncer)

/-- What every key event does, whatever its action. -/
theorem keyed_of_acts {t : State} (acts : KeyActs (u.keyTaken k long d) t) :
    t.panel.debouncer k = d ∧ (∀ j, j ≠ k → t.panel.debouncer j = u.panel.debouncer j) ∧ pends t .keyEvent ∧
    t.panel.queue = (if u.panel.queue.length < 16 then u.panel.queue ++ [⟨k, long, u.panel.stamp⟩]
      else u.panel.queue) ∧
    t.panel = { u.panel with
      selected := t.panel.selected, index := t.panel.index, indexMode := t.panel.indexMode, queue := t.panel.queue,
      keyOk := t.panel.keyOk, keyUp := t.panel.keyUp, keyDown := t.panel.keyDown, keyBack := t.panel.keyBack } ∧
    onlyMessages ((u.withPanel t.panel).withSpeed t.speed) t := by
  obtain ⟨selected, index, indexMode, panel⟩ := acts.panel
  rw [keyTaken_panel] at panel
  refine ⟨?_, fun j ne => ?_, acts.pends _ (keyTaken_pends u k long d), by rw [panel], by rw [panel], ?_⟩
  · rw [acts.debouncer, keyTaken_debouncer, if_pos rfl]
  · rw [acts.debouncer, keyTaken_debouncer, if_neg ne]
  · have frame := (onlyMessages_iff _ _).1 acts.frame
    exact (onlyMessages_iff _ _).2 frame

/-- Without an action selection, page index, index mode and trips stay and nothing is acknowledged. -/
theorem keyTaken_stays : (u.keyTaken k long d).panel.selected = u.panel.selected ∧
    (u.keyTaken k long d).panel.index = u.panel.index ∧
    (u.keyTaken k long d).panel.indexMode = u.panel.indexMode ∧ (u.keyTaken k long d).speed = u.speed ∧
    acknowledgesNothing u (u.keyTaken k long d) := by
  rw [keyTaken_panel]
  exact ⟨rfl, rfl, rfl, rfl, keyTaken_acknowledgesNothing u k long d⟩

/-- The action in the PAGE view. -/
theorem keyTaken_page (view : u.panel.view = .page) :
    acknowledgesNothing u ((u.keyTaken k long d).keyAction k long) ∧
      pageActed u ((u.keyTaken k long d).keyAction k long) k long := by
  obtain ⟨selected, index, indexMode, speed, nothing⟩ := keyTaken_stays u k long d
  have page : (u.keyTaken k long d).panel.view = .page := by rw [keyTaken_panel, ← view]
  have acted := pageAction_acted page k long
  refine ⟨?_, pageActed_congr (v := u.keyTaken k long d) rfl speed selected index indexMode acted⟩
  obtain ⟨_, _, _, _, is⟩ := pageAction_acts page k long
  rw [is]
  exact nothing

/-- The action in the MESSAGE view. -/
theorem keyTaken_message (view : u.panel.view = .message) : (u.keyTaken k long d).keyAction k long =
    if k = .ok ∧ long = false then (u.keyTaken k long d).keyAcknowledge u.panel.displayed
    else u.keyTaken k long d := by
  have message : (u.keyTaken k long d).panel.view = .message := by rw [keyTaken_panel, ← view]
  rw [keyAction_of_message message]
  congr 2
  rw [keyTaken_panel]

/-- It keeps the panel and the speed unit. -/
theorem keyTaken_message_keeps (view : u.panel.view = .message) :
    ((u.keyTaken k long d).keyAction k long).panel = (u.keyTaken k long d).panel ∧
      ((u.keyTaken k long d).keyAction k long).speed = (u.keyTaken k long d).speed := by
  rw [keyTaken_message u k long d view]
  split
  · exact ⟨State.keyAcknowledge_panel _ _, State.keyAcknowledge_speed _ _⟩
  · exact ⟨rfl, rfl⟩

/-- It acknowledges a displayed view-top that is SHOWN, by OK SHORT, and otherwise nothing. -/
theorem keyTaken_message_nothing (view : u.panel.view = .message)
    (not : k = .ok → long = false → ∀ e, u.stack.top = some e → u.panel.displayed = some e.id → e.state ≠ .shown) :
    acknowledgesNothing u ((u.keyTaken k long d).keyAction k long) := by
  have stays : (u.keyTaken k long d).keyAction k long = u.keyTaken k long d := by
    rw [keyTaken_message u k long d view]
    split
    · rename_i ok
      exact keyAcknowledge_of_not (not ok.1 ok.2)
    · rfl
  rw [stays]
  exact keyTaken_acknowledgesNothing u k long d

theorem keyTaken_message_top (view : u.panel.view = .message) (ok : k = .ok) (short : long = false) {e : Entry}
    (top : u.stack.viewTop e) (displayed : u.panel.displayed = some e.id) (shown : e.state = .shown)
    (idle : u.stack.waiting = []) (capacity : u.stack.withinCapacity) :
    acknowledgesTop u ((u.keyTaken k long d).keyAction k long) e := by
  have acks : (u.keyTaken k long d).keyAction k long = (u.keyTaken k long d).acknowledge e.id := by
    rw [keyTaken_message u k long d view, if_pos ⟨ok, short⟩, displayed]
    exact keyAcknowledge_of_top (Stack.top_of_viewTop top) shown
  rw [acks]
  exact acknowledge_acknowledgesTop rfl (clicked_taken u) top idle capacity

/-- A key event in a mode without actions, or with a view that has none. -/
theorem keyEvent_of_idle (idle : (u.mode.mode ≠ .running ∧ u.mode.mode ≠ .limp) ∨
    (u.panel.view ≠ .page ∧ u.panel.view ≠ .message)) :
    (u.setDebouncer k d).keyEvent k long = u.keyTaken k long d := by
  rw [keyEvent_eq]
  split
  · rename_i lit
    obtain ⟨page, message⟩ := idle.resolve_left fun dark => lit.elim dark.1 dark.2
    have view : (u.keyTaken k long d).panel.view = u.panel.view := by rw [keyTaken_panel]
    exact keyAction_of_other (view ▸ page) (view ▸ message) k long
  · rfl

theorem keyEvent_acts : KeyActs (u.keyTaken k long d) ((u.setDebouncer k d).keyEvent k long) := by
  rw [keyEvent_eq]
  split
  · exact keyAction_acts _ k long
  · exact (PageActs.refl _).keyActs

/-- A key event does what R149 to R153 say. -/
theorem keyEvent_keyed : keyed u ((u.setDebouncer k d).keyEvent k long) k long d := by
  have stays := keyTaken_stays u k long d
  obtain ⟨debouncer, others, cause, queue, panel, frame⟩ := keyed_of_acts u k long d (keyEvent_acts u k long d)
  refine ⟨debouncer, others, cause, queue, panel, frame, fun idle => ?_, fun lit page => ?_, fun lit message => ?_⟩
  · rw [keyEvent_of_idle u k long d idle]
    exact stays
  · rw [keyEvent_eq, if_pos lit]
    exact keyTaken_page u k long d page
  · rw [keyEvent_eq, if_pos lit]
    obtain ⟨samePanel, sameSpeed⟩ := keyTaken_message_keeps u k long d message
    obtain ⟨selected, index, indexMode, speed, _⟩ := stays
    rw [samePanel, sameSpeed]
    refine ⟨speed, selected, index, indexMode, fun none => ?_, fun e ok short top => ⟨fun not => ?_, ?_⟩⟩
    · refine keyTaken_message_nothing u k long d message fun ok short e top shows => ?_
      rcases none with other | long | hidden | acked
      · exact absurd ok other
      · exact absurd short (by simp [long])
      · exact absurd shows (by simp [hidden])
      · exact absurd (acked e (Stack.mem_of_top top).1) (Stack.mem_of_top top).2
    · refine keyTaken_message_nothing u k long d message fun _ _ x first shows => ?_
      obtain rfl : x = e := Option.some.inj (first.symm.trans (Stack.top_of_viewTop top))
      exact not.resolve_left fun other => other shows
    · exact keyTaken_message_top u k long d message ok short top

end

/-! ## The four commands (R149) -/

theorem exec_acceptedPress (k : Key) (s : State) : exec (.acceptedPress k) s = .next
    (if s.mode.mode ≠ .initial ∧ (s.panel.debouncer k).input = true ∧ (s.panel.debouncer k).level = false ∧
        (s.panel.debouncer k).settle = 30 then
      s.setDebouncer k { s.panel.debouncer k with level := true, settle := 0, hold := 0, longGiven := false }
    else s) := rfl

/-- The release of a pressed key is accepted. -/
theorem acceptRelease_eq {u : State} {k : Key} {d : Debouncer} (is : d = u.panel.debouncer k)
    (awake : u.mode.mode ≠ .initial) (input : d.input = false) (level : d.level = true) (settle : d.settle = 30) :
    u.acceptRelease k = if d.longGiven then u.setDebouncer k { d with level := false, settle := 0 }
      else (u.setDebouncer k { d with level := false, settle := 0 }).keyEvent k false := by
  subst is
  exact if_pos ⟨awake, input, level, settle⟩

theorem acceptRelease_of_not {u : State} {k : Key} {d : Debouncer} (is : d = u.panel.debouncer k)
    (not : u.mode.mode = .initial ∨ d.input = true ∨ d.level = false ∨ d.settle ≠ 30) : u.acceptRelease k = u := by
  subst is
  refine if_neg fun ⟨awake, input, level, settle⟩ => ?_
  rcases not with initial | pressed | released | early
  · exact awake initial
  · exact absurd (input.symm.trans pressed) (by decide)
  · exact absurd (level.symm.trans released) (by decide)
  · exact early settle

theorem giveLong_eq {u : State} {k : Key} {d : Debouncer} (is : d = u.panel.debouncer k)
    (awake : u.mode.mode ≠ .initial) (level : d.level = true) (fresh : d.longGiven = false) (hold : d.hold = 1000) :
    u.giveLong k = (u.setDebouncer k { d with longGiven := true }).keyEvent k true := by
  subst is
  exact if_pos ⟨awake, level, fresh, hold⟩

theorem giveLong_of_not {u : State} {k : Key} {d : Debouncer} (is : d = u.panel.debouncer k)
    (not : u.mode.mode = .initial ∨ d.level = false ∨ d.longGiven = true ∨ d.hold ≠ 1000) : u.giveLong k = u := by
  subst is
  refine if_neg fun ⟨awake, level, fresh, hold⟩ => ?_
  rcases not with initial | released | given | early
  · exact awake initial
  · exact absurd (level.symm.trans released) (by decide)
  · exact absurd (fresh.symm.trans given) (by decide)
  · exact early hold

theorem exec_keyInput (k : Key) (pressed : Bool) (s : State) : exec (.keyInput k pressed) s = .next
    (s.setDebouncer k { s.panel.debouncer k with
      input := pressed
      settle := if pressed = (s.panel.debouncer k).level then 0 else (s.panel.debouncer k).settle }) := rfl

theorem acceptedPress_of_not {k : Key} {s : State} {d : Debouncer} (is : d = s.panel.debouncer k)
    (not : s.mode.mode = .initial ∨ d.input = false ∨ d.level = true ∨ d.settle ≠ 30) :
    exec (.acceptedPress k) s = .next s := by
  subst is
  rw [exec_acceptedPress]
  refine congrArg _ (if_neg fun ⟨awake, input, level, settle⟩ => ?_)
  rcases not with initial | released | pressed | early
  · exact awake initial
  · exact absurd (input.symm.trans released) (by decide)
  · exact absurd (level.symm.trans pressed) (by decide)
  · exact early settle

/-- Settles O59: the two debouncer commands, then the two key events on the state after the time that passes. -/
theorem keysDebounceAndAct : Obligations.KeysDebounceAndAct := by
  refine ⟨fun k pressed s d is => ⟨?_, fun awake input level settle => ?_, acceptedPress_of_not is⟩,
    fun k us s u d now is => ?_⟩
  · subst is
    exact exec_keyInput k pressed s
  · subst is
    exact (exec_acceptedPress k s).trans (congrArg _ (if_pos ⟨awake, input, level, settle⟩))
  · have initial : u.mode.mode = .initial ↔ s.mode.mode = .initial := now ▸ elapse_initial_iff us s
    have release : exec (.acceptedRelease k us) s = .next (u.acceptRelease k) := now ▸ rfl
    have long : exec (.longKeyEvent k us) s = .next (u.giveLong k) := now ▸ rfl
    have up : s.mode.mode ≠ .initial → u.mode.mode ≠ .initial := mt initial.1
    rw [release, long, ← initial]
    refine ⟨fun not => congrArg _ (acceptRelease_of_not is not), fun not => congrArg _ (giveLong_of_not is not),
      fun awake input level settle given => ?_, fun awake input level settle fresh => ⟨_, rfl, ?_⟩,
      fun awake level fresh hold => ⟨_, rfl, ?_⟩⟩
    · rw [acceptRelease_eq is (up awake) input level settle, if_pos given]
    · rw [acceptRelease_eq is (up awake) input level settle, if_neg (by simp [fresh])]
      exact keyEvent_keyed u k false _
    · rw [giveLong_eq is (up awake) level fresh hold]
      exact keyEvent_keyed u k true _

end Sys2Proof.Machine
end

section
/-! SUPPORT. Decimal texts (R146 to R148): the model's digits are those that the statements name. -/

namespace Sys2Proof.Machine

/-! ## Digits -/

/-- The digits above the last `b`. -/
theorem digit_div (n b i : Nat) : n / 10 ^ b / 10 ^ i % 10 = n / 10 ^ (b + i) % 10 := by
  rw [Nat.div_div_eq_div_mul, Nat.pow_add]

/-- The last `b` digits. -/
theorem digit_mod (n : Nat) {b i : Nat} (h : i < b) : n % 10 ^ b / 10 ^ i % 10 = n / 10 ^ i % 10 := by
  obtain ⟨k, rfl⟩ := Nat.exists_eq_add_of_lt h
  rw [Nat.add_assoc, Nat.pow_add, Nat.mod_mul_right_div_self]
  exact Nat.mod_mod_of_dvd _ (Dvd.intro_left _ (Nat.pow_succ ..).symm)

theorem digitsText_append {a b n : Nat} {t r : List Nat} (high : digitsText a (n / 10 ^ b) t)
    (low : digitsText b (n % 10 ^ b) r) : digitsText (a + b) n (t ++ r) := by
  obtain ⟨rfl, digits⟩ := high
  obtain ⟨rfl, last⟩ := low
  refine ⟨List.length_append, fun i hi => ?_⟩
  by_cases inside : i < r.length
  · rw [List.getElem?_append_right (by omega), ← digit_mod n inside, ← last i inside]
    congr 1
    omega
  · obtain ⟨j, rfl⟩ := Nat.exists_eq_add_of_le (Nat.not_lt.1 inside)
    rw [List.getElem?_append_left (by omega), ← digit_div, ← digits j (by omega)]
    congr 1
    omega

theorem digitsText_split {a b n : Nat} {t : List Nat} (h : digitsText (a + b) n t) :
    digitsText a (n / 10 ^ b) (t.take a) ∧ digitsText b (n % 10 ^ b) (t.drop a) := by
  obtain ⟨length, digits⟩ := h
  refine ⟨⟨by rw [List.length_take]; omega, fun i hi => ?_⟩, ⟨by rw [List.length_drop]; omega, fun i hi => ?_⟩⟩
  · rw [List.getElem?_take_of_lt (by omega), digit_div, ← digits (b + i) (by omega)]
    congr 1
    omega
  · rw [List.getElem?_drop, digit_mod n hi, ← digits i (by omega)]
    congr 1
    omega

theorem digitsText_zero (d : Nat) : digitsText d 0 (List.replicate d 0x30) := by
  refine ⟨List.length_replicate, fun i hi => ?_⟩
  rw [List.getElem?_replicate_of_lt (by omega), Nat.zero_div]

/-- Zeros on the left are the digits of a number below. -/
theorem digitsText_padLeft {d w n : Nat} {t : List Nat} (h : digitsText d n t) (small : n < 10 ^ d) (fits : d ≤ w) :
    digitsText w n (padLeft w 0x30 t) := by
  have length : t.length = d := h.1
  obtain ⟨k, rfl⟩ := Nat.exists_eq_add_of_le' fits
  unfold padLeft
  rw [length, Nat.add_sub_cancel]
  refine digitsText_append ?_ ?_
  · rw [Nat.div_eq_of_lt small]
    exact digitsText_zero k
  · rwa [Nat.mod_eq_of_lt small]

/-! ## Numbers in decimal -/

/-- A decimal text is one of digits, long enough and without a leading zero. -/
theorem decimalText_iff {n : Nat} {t : List Nat} : decimalText n t ↔
    1 ≤ t.length ∧ n < 10 ^ t.length ∧ (1 < t.length → 10 ^ (t.length - 1) ≤ n) ∧ digitsText t.length n t := by
  simp [decimalText, digitsText]

theorem decimalText_digit {n : Nat} (h : n < 10) : decimalText n [48 + n] :=
  ⟨Nat.le_refl 1, h, fun more => absurd more (Nat.lt_irrefl 1), fun i hi => by
    obtain rfl : i = 0 := Nat.lt_one_iff.1 hi
    simp [Nat.mod_eq_of_lt h]⟩

theorem decimalText_snoc {n : Nat} {t : List Nat} (high : decimalText (n / 10) t) (large : 10 ≤ n) :
    decimalText n (t ++ [48 + n % 10]) := by
  rw [decimalText_iff] at high ⊢
  obtain ⟨some, below, noZero, digits⟩ := high
  have length : (t ++ [48 + n % 10]).length = t.length + 1 := List.length_append
  rw [length]
  refine ⟨by omega, ?_, fun _ => ?_, digitsText_append (b := 1) digits ⟨rfl, fun i hi => ?_⟩⟩
  · rw [Nat.pow_succ]
    omega
  · obtain ⟨k, len⟩ := Nat.exists_eq_add_of_le' some
    rw [len] at noZero ⊢
    rw [Nat.add_sub_cancel, Nat.pow_succ]
    rcases Nat.eq_zero_or_pos k with rfl | more
    · omega
    · have := noZero (by omega)
      rw [Nat.add_sub_cancel] at this
      omega
  · obtain rfl : i = 0 := Nat.lt_one_iff.1 hi
    simp

/-- Digits gathered from the last one, with fuel for all of them. -/
theorem decimalFrom_text (fuel n : Nat) (acc : List Nat) (fits : n < 10 ^ (fuel + 1)) :
    ∃ t, decimalText n t ∧ decimalFrom (fuel + 1) n acc = t ++ acc := by
  induction fuel generalizing n acc with
  | zero => exact ⟨_, decimalText_digit fits, if_pos fits⟩
  | succ fuel ih =>
    by_cases digit : n < 10
    · exact ⟨_, decimalText_digit digit, if_pos digit⟩
    · rw [Nat.pow_succ] at fits
      obtain ⟨t, text, eq⟩ := ih (n / 10) ((48 + n % 10) :: acc) (by omega)
      refine ⟨_, decimalText_snoc text (Nat.not_lt.1 digit), (if_neg digit).trans (eq.trans ?_)⟩
      rw [List.append_assoc]
      rfl

theorem decimal_text {n : Nat} (h : n < 10 ^ 20) : decimalText n (decimal n) := by
  obtain ⟨t, text, eq⟩ := decimalFrom_text 19 n [] h
  rw [List.append_nil] at eq
  rwa [show decimal n = t from eq]

theorem decimalText_length_le {n k : Nat} {t : List Nat} (h : decimalText n t) (some : 1 ≤ k) (small : n < 10 ^ k) :
    t.length ≤ k := by
  obtain ⟨_, _, noZero, _⟩ := h
  refine Nat.not_lt.1 fun long => ?_
  have := noZero (by omega)
  have : 10 ^ k ≤ 10 ^ (t.length - 1) := Nat.pow_le_pow_right (by decide) (by omega)
  omega

/-- A number filled up with zeros to a fixed count of digits. -/
theorem digitsText_decimal {n d : Nat} (some : 1 ≤ d) (small : n < 10 ^ d) (fits : n < 10 ^ 20) :
    digitsText d n (padLeft d 0x30 (decimal n)) := by
  have text := decimal_text fits
  have short := decimalText_length_le text some small
  obtain ⟨_, below, _, digits⟩ := decimalText_iff.1 text
  exact digitsText_padLeft digits below short

end Sys2Proof.Machine
end

section
/-! SUPPORT. A value in its field (R145 to R147). -/

namespace Sys2Proof.Machine

/-! ## Alignment -/

theorem length_padLeft_max (w c : Nat) (t : List Nat) : (padLeft w c t).length = max w t.length := by
  unfold padLeft
  rw [List.length_append, List.length_replicate]
  omega

theorem length_padLeft {w c : Nat} {t : List Nat} (h : t.length ≤ w) : (padLeft w c t).length = w := by
  rw [length_padLeft_max, Nat.max_eq_left h]

theorem length_alignRight {w : Nat} {t overflow : List Nat} (h : overflow.length = w) :
    (alignRight w t overflow).length = w := by
  unfold alignRight
  split
  · exact h
  · exact length_padLeft (Nat.not_lt.1 ‹_›)

theorem alignRight_rightAligned (w : Nat) (t overflow : List Nat) :
    rightAligned w t overflow (alignRight w t overflow) :=
  ⟨fun fits => if_neg (Nat.not_lt.2 fits), fun long => if_pos long⟩

theorem length_fitRight (w : Nat) (t : List Nat) : (fitRight w t).length = w := by
  unfold fitRight
  rw [List.length_take, List.length_append, List.length_replicate]
  omega

theorem fitRight_of_le {w : Nat} {t : List Nat} (h : t.length ≤ w) :
    fitRight w t = t ++ List.replicate (w - t.length) 0x20 :=
  List.take_of_length_le (by rw [List.length_append, List.length_replicate]; omega)

theorem getElem?_fitRight {w j : Nat} (t : List Nat) (h : j < w) : (fitRight w t)[j]? = some (t.getD j 0x20) := by
  unfold fitRight
  rw [List.getElem?_take_of_lt h, List.getD_eq_getElem?_getD]
  by_cases inside : j < t.length
  · rw [List.getElem?_append_left inside, List.getElem?_eq_getElem inside]
    rfl
  · rw [List.getElem?_append_right (Nat.not_lt.1 inside), List.getElem?_replicate_of_lt (by omega),
      List.getElem?_eq_none (Nat.not_lt.1 inside)]
    rfl

/-! ## The kinds of value -/

/-- A number filled up with zeros, to a width that it may exceed. -/
theorem digitsText_padded {n w : Nat} {t : List Nat} (digits : digitsText t.length n t) (small : n < 10 ^ t.length) :
    digitsText (padLeft w 0x30 t).length n (padLeft w 0x30 t) := by
  rw [length_padLeft_max]
  rcases Nat.le_total t.length w with short | long
  · rw [Nat.max_eq_left short]
    exact digitsText_padLeft digits small short
  · rw [Nat.max_eq_right long, padLeft, Nat.sub_eq_zero_of_le long]
    exact digits

/-- The digits of a number with `d` decimals, before the point and behind it. -/
theorem digits_number {n : Nat} (d : Nat) (fits : n < 10 ^ 20) {t : List Nat}
    (is : t = padLeft (d + 1) 0x30 (decimal n)) : decimalText (n / 10 ^ d) (t.take (t.length - d)) ∧
      digitsText d (n % 10 ^ d) (t.drop (t.length - d)) := by
  obtain ⟨_, below, noZero, digits⟩ := decimalText_iff.1 (decimal_text fits)
  have length : t.length = max (d + 1) (decimal n).length := is ▸ length_padLeft_max ..
  have text : digitsText t.length n t := is ▸ digitsText_padded digits below
  have small : n < 10 ^ t.length := Nat.lt_of_lt_of_le below (Nat.pow_le_pow_right (by decide) (by omega))
  obtain ⟨k, len⟩ : ∃ k, t.length = k + 1 + d := ⟨t.length - (d + 1), by omega⟩
  rw [len] at text small
  rw [len, Nat.add_sub_cancel]
  obtain ⟨whole, fraction⟩ := digitsText_split text
  refine ⟨?_, fraction⟩
  rw [decimalText_iff, whole.1]
  refine ⟨by omega, Nat.div_lt_of_lt_mul ?_, fun more => ?_, whole⟩
  · rwa [Nat.mul_comm, ← Nat.pow_add]
  · have least := noZero (by omega)
    rw [Nat.le_div_iff_mul_le (Nat.pow_pos (by decide)), ← Nat.pow_add]
    rwa [show k + 1 - 1 + d = (decimal n).length - 1 by omega]

theorem renderNumber_shown (w d : Nat) {v : Int} (fits : v.natAbs < 10 ^ 20) :
    ∃ t, numberText d v t ∧ rightAligned w t (List.replicate w 0x39) (renderNumber w d v) := by
  refine ⟨_, ?_, alignRight_rightAligned w _ _⟩
  obtain ⟨whole, fraction⟩ := digits_number d fits rfl
  refine ⟨_, _, whole, fraction, ?_⟩
  rcases Nat.eq_zero_or_pos d with rfl | decimals
  · simp only [if_true, Nat.sub_zero, List.take_length, List.append_nil]
    split <;> rfl
  · simp only [if_neg (Nat.pos_iff_ne_zero.1 decimals)]
    split <;> rfl

theorem renderDuration_shown (w : Nat) {v : Int} (fits : v.natAbs < 10 ^ 20) :
    (v < 0 → renderDuration w v = List.replicate w 0x2D) ∧
    (0 ≤ v → ∃ t, durationText v.toNat t ∧
      rightAligned w t (List.replicate (w - 3) 0x39 ++ [0x3A, 0x35, 0x39]) (renderDuration w v)) := by
  refine ⟨fun negative => if_pos negative, fun natural => ?_⟩
  have eq : renderDuration w v =
      alignRight w (decimal (v.toNat / 60) ++ 0x3A :: padLeft 2 0x30 (decimal (v.toNat % 60)))
        (List.replicate (w - 3) 0x39 ++ [0x3A, 0x35, 0x39]) := if_neg (Int.not_lt.2 natural)
  rw [eq]
  have hours : v.toNat / 60 < 10 ^ 20 := by omega
  have minutes : v.toNat % 60 < 10 ^ 2 := by omega
  exact ⟨_, ⟨_, _, decimal_text hours, digitsText_decimal (by decide) minutes (by omega), rfl⟩,
    alignRight_rightAligned w _ _⟩

theorem renderClock_shown (w : Nat) (v : Int) : ∃ (hours minutes : List Nat) (r : Nat), (r : Int) = v % 1440 ∧
    digitsText 2 (r / 60) hours ∧ digitsText 2 (r % 60) minutes ∧
      renderClock w v = List.replicate (w - 5) 0x20 ++ hours ++ 0x3A :: minutes := by
  have day : (v % 1440).toNat < 1440 := by omega
  have hours : digitsText 2 ((v % 1440).toNat / 60) _ := digitsText_decimal (by decide) (by omega) (by omega)
  have minutes : digitsText 2 ((v % 1440).toNat % 60) _ := digitsText_decimal (by decide) (by omega) (by omega)
  refine ⟨_, _, _, Int.toNat_of_nonneg (Int.emod_nonneg _ (by decide)), hours, minutes, ?_⟩
  have length := congrArg₂ (fun h m => h + (m + 1)) hours.1 minutes.1
  rw [← List.length_cons (a := 0x3A), ← List.length_append] at length
  unfold renderClock
  dsimp only
  rw [padLeft, length, List.append_assoc]

theorem renderEnum_shown (w : Nat) (names : List (List Nat)) (v : Int) :
    (v < 0 ∨ (names.length : Int) ≤ v → renderEnum w names v = List.replicate w 0x2D) ∧
    ∀ i name, v = ((i : Nat) : Int) → names[i]? = some name →
      ∀ j, j < w → (renderEnum w names v)[j]? = some (name.getD j 0x20) := by
  refine ⟨fun none => ?_, fun i name is named j hj => ?_⟩
  · unfold renderEnum
    split
    · rfl
    · rw [List.getElem?_eq_none (by omega)]
      rfl
  · subst is
    have eq : renderEnum w names i = fitRight w name := by
      unfold renderEnum
      rw [if_neg (by omega), Int.toNat_natCast, named]
    rw [eq, getElem?_fitRight name hj]

theorem renderBar_filled_le {w f : Nat} (v : Int) : min v.toNat f * w / f ≤ w :=
  Nat.div_le_of_le_mul (Nat.mul_le_mul_right w (Nat.min_le_right _ _))

theorem renderBar_shown {w f c : Nat} (v : Int) {j : Nat} (h : j < w) :
    (renderBar w c f v)[j]? = some (if j < (min (max v 0) f).toNat * w / f then c else 0x20) := by
  have same : (min (max v 0) f).toNat = min v.toNat f := by omega
  unfold renderBar
  dsimp only
  rw [same]
  split
  · rename_i filled
    rw [List.getElem?_append_left (by rwa [List.length_replicate]), List.getElem?_replicate_of_lt filled]
  · rename_i empty
    have le : min v.toNat f * w / f ≤ w := renderBar_filled_le v
    rw [List.getElem?_append_right (by rw [List.length_replicate]; omega), List.length_replicate,
      List.getElem?_replicate_of_lt (by omega)]

/-! ## A field's cells -/

/-- The width that a kind needs (R142). -/
def FieldKind.fits (w : Nat) : FieldKind → Prop
  | .duration => 4 ≤ w
  | .clock => 5 ≤ w
  | .bar f => 1 ≤ f
  | .number _ | .enum _ => True

theorem render_shown (p : PanelTable) (w : Nat) (kind : FieldKind) {v : Int} (h : v.natAbs < 10 ^ 20) :
    valueShown p w kind v (p.render w kind v) := by
  cases kind with
  | number d => exact renderNumber_shown w d h
  | duration => exact renderDuration_shown w h
  | clock => exact renderClock_shown w v
  | enum l => rintro names rfl; exact renderEnum_shown w _ v
  | bar f => exact fun j hj => renderBar_shown v hj

theorem length_render (p : PanelTable) {w : Nat} {kind : FieldKind} (h : kind.fits w) (v : Int) :
    (p.render w kind v).length = w := by
  cases kind with
  | number d => exact length_alignRight List.length_replicate
  | duration =>
    have wide : 4 ≤ w := h
    change (renderDuration w v).length = w
    unfold renderDuration
    split
    · exact List.length_replicate
    · refine length_alignRight ?_
      rw [List.length_append, List.length_replicate]
      exact Nat.sub_add_cancel (by omega)
  | clock =>
    have wide : 5 ≤ w := h
    obtain ⟨hours, minutes, _, _, two, two', eq⟩ := renderClock_shown w v
    change (renderClock w v).length = w
    rw [eq, List.length_append, List.length_append, List.length_replicate, List.length_cons, two.1, two'.1]
    omega
  | enum l =>
    change (renderEnum w _ v).length = w
    unfold renderEnum
    split
    · exact List.length_replicate
    · split
      · exact List.length_replicate
      · exact length_fitRight w _
  | bar f =>
    change (renderBar w p.barChar f v).length = w
    unfold renderBar
    rw [List.length_append, List.length_replicate, List.length_replicate]
    exact Nat.add_sub_cancel' (renderBar_filled_le v)

/-- What stands in the cells of a field. -/
def PanelTable.cells (p : PanelTable) (x : FieldPlace) : Option Int → List Nat
  | none => dashes x.width
  | some v => p.render x.width x.kind v

theorem FieldPlace.fits.kind {x : FieldPlace} (h : x.fits) : x.kind.fits x.width := by
  obtain ⟨_, _, _, kind⟩ := h
  exact kind

theorem length_cells (p : PanelTable) {x : FieldPlace} (h : x.fits) (v : Option Int) :
    (p.cells x v).length = x.width := by
  cases v with
  | none => exact List.length_replicate
  | some v => exact length_render p h.kind v

/-- A field whose cells stand in the image shows its value. -/
theorem fieldShown_of_cells {p : PanelTable} {x : FieldPlace} (fits : x.fits) {v : Option Int} {image : List Nat}
    (h : ∀ j, j < x.width → image[20 * x.line + x.column + j]? = (p.cells x v)[j]?) : fieldShown p x v image :=
  ⟨p.cells x v, length_cells p fits v, h, fun none => none ▸ rfl, fun _ is small => is ▸ render_shown p _ _ small⟩

end Sys2Proof.Machine
end

section
/-! SUPPORT. A page and the message images, cell by cell (R144, R148). -/

namespace Sys2Proof.Machine

/-! ## Codes placed in an image -/

section
variable {image codes : List Nat} {cell : Nat} (fits : cell + codes.length ≤ image.length)
include fits

theorem length_place : (place image cell codes).length = image.length := by
  unfold place
  rw [List.length_append, List.length_append, List.length_take, List.length_drop]
  omega

theorem getElem?_place_inside {j : Nat} (h : j < codes.length) : (place image cell codes)[cell + j]? = codes[j]? := by
  have before : (image.take cell).length = cell := by rw [List.length_take]; omega
  unfold place
  rw [List.append_assoc, List.getElem?_append_right (by omega), before, Nat.add_sub_cancel_left,
    List.getElem?_append_left h]

theorem getElem?_place_outside {i : Nat} (h : i < cell ∨ cell + codes.length ≤ i) :
    (place image cell codes)[i]? = image[i]? := by
  have before : (image.take cell).length = cell := by rw [List.length_take]; omega
  unfold place
  rw [List.append_assoc]
  rcases h with left | right
  · rw [List.getElem?_append_left (by omega), List.getElem?_take_of_lt left]
  · rw [List.getElem?_append_right (by omega), List.getElem?_append_right (by omega), List.getElem?_drop, before]
    congr 1
    omega

end

theorem placeField_eq (p : PanelTable) (image : List Nat) (x : FieldPlace) (v : Option Int) :
    p.placeField image x v = place image (20 * x.line + x.column) (p.cells x v) := by
  cases v <;> rfl

/-! ## One field (R144) -/

section
variable (p : PanelTable) {x : FieldPlace} (fits : x.fits) {image : List Nat} (forty : image.length = 40)
  (v : Option Int)
include fits forty

theorem cells_inside : 20 * x.line + x.column + (p.cells x v).length ≤ image.length := by
  have length := length_cells p fits v
  obtain ⟨line, _, column, _⟩ := fits
  omega

theorem length_placeField : (p.placeField image x v).length = 40 := by
  rw [placeField_eq, length_place (cells_inside p fits forty v), forty]

theorem placeField_shown : fieldShown p x v (p.placeField image x v) := by
  rw [placeField_eq]
  refine fieldShown_of_cells fits fun j hj => ?_
  exact getElem?_place_inside (cells_inside p fits forty v) (by rwa [length_cells p fits v])

theorem placeField_outside {cell : Nat} (out : ¬x.covers cell) : (p.placeField image x v)[cell]? = image[cell]? := by
  rw [placeField_eq]
  refine getElem?_place_outside (cells_inside p fits forty v) ?_
  rw [length_cells p fits v]
  unfold FieldPlace.covers at out
  omega

end

/-- A field's cells decide what it shows. -/
theorem fieldShown_congr {p : PanelTable} {x : FieldPlace} {v : Option Int} {image image' : List Nat}
    (same : ∀ cell, x.covers cell → image'[cell]? = image[cell]?) (h : fieldShown p x v image) :
    fieldShown p x v image' := by
  obtain ⟨cells, length, stand, shown⟩ := h
  exact ⟨cells, length, fun j hj => (same _ ⟨by omega, by omega⟩).trans (stand j hj), shown⟩

/-! ## A page (R144) -/

/-- Two fields share no cell. -/
def Field.apart (f h : Field) : Prop := ∀ cell, f.place.covers cell → ¬h.place.covers cell

theorem placeFields_shown (p : PanelTable) (value : Field → Option Int) (fields : List Field)
    (fits : ∀ f ∈ fields, f.place.fits) (apart : fields.Pairwise Field.apart) {image : List Nat}
    (forty : image.length = 40) {shown : List Nat}
    (is : shown = fields.foldl (fun image f => p.placeField image f.place (value f)) image) :
    shown.length = 40 ∧ (∀ f ∈ fields, fieldShown p f.place (value f) shown) ∧
      ∀ cell, (∀ f ∈ fields, ¬f.place.covers cell) → shown[cell]? = image[cell]? := by
  induction fields generalizing image with
  | nil =>
    subst is
    exact ⟨forty, by simp, fun _ _ => rfl⟩
  | cons f fields ih =>
    obtain ⟨first, rest⟩ := List.pairwise_cons.1 apart
    have fitsF := fits f List.mem_cons_self
    obtain ⟨length, later, outside⟩ := ih (fun h hh => fits h (List.mem_cons_of_mem _ hh)) rest
      (length_placeField p fitsF forty (value f)) is
    refine ⟨length, List.forall_mem_cons.2 ⟨?_, later⟩, fun cell out => ?_⟩
    · exact fieldShown_congr (fun cell covered => outside cell fun h hh => first h hh cell covered)
        (placeField_shown p fitsF forty (value f))
    · obtain ⟨outF, outRest⟩ := List.forall_mem_cons.1 out
      exact (outside cell outRest).trans (placeField_outside p fitsF forty (value f) outF)

/-! ## Items (R12, R32, R71, R117, R145) -/

theorem slotItem_shown (s : State) (n : Nat) : slotItemShown s n (s.slotItem n) := by
  rintro i rfl
  unfold State.slotItem
  rw [dif_pos i.isLt]
  dsimp only
  by_cases signed : (s.slotRec i).type = .signed <;> simp [inDomain, signed]

theorem gaugeItem_shown (s : State) (n : Nat) : gaugeItemShown s n (s.gaugeItem n) := by
  intro c
  have lt := c.isLt
  refine ⟨?_, ?_⟩
  · rintro rfl
    have half : 2 * c.val / 2 = c.val := by omega
    have even : 2 * c.val % 2 = 0 := by omega
    simp [State.gaugeItem, half, even]
  · rintro rfl
    have half : (2 * c.val + 1) / 2 = c.val := by omega
    have odd : (2 * c.val + 1) % 2 = 1 := by omega
    simp [State.gaugeItem, half, odd, item]

theorem itemOf_eq (n : Option Nat) : itemOf n = valueOf n := by cases n <;> rfl

theorem flagOf_eq (b : Bool) : flagOf b = b.toNat := by cases b <;> rfl

theorem distItem_shown (s : State) (n : Nat) : distItemShown s n (s.distItem n) := by
  refine ⟨?_, ?_, ?_, ?_, ?_, ?_, ?_, ?_⟩ <;> rintro rfl
  · change itemOf (s.speed.k.map fun _ => s.speed.v) = _
    cases s.speed.k <;> rfl
  case refine_5 => exact itemOf_eq _
  case refine_6 => exact congrArg item (flagOf_eq _)
  all_goals rfl

theorem activityCode_eq (a : Activity) : a.code = activityCodes.idxOf a := by cases a <;> rfl

/-- The kind of an activity or of a history entry is shown as its code. -/
theorem itemOf_code {α : Type} (x : Option α) (kind : α → Activity) :
    itemOf (x.map fun o => (kind o).code) = valueOf (x.map fun o => activityCodes.idxOf (kind o)) := by
  rw [itemOf_eq]
  simp only [activityCode_eq]

theorem historyItem {d : Driver} {clock n j i : Nat} (hj : j < 32) (hi : i < 3) (hn : n = 16 + 3 * j + i) :
    d.item clock n = itemOf ((d.history.reverse[j]?).map fun e => e.item i) := by
  have place : (n - 16) / 3 = j := by omega
  have part : (n - 16) % 3 = i := by omega
  unfold Driver.item
  rw [if_neg (by omega), if_pos (by omega), place, part]

theorem driverItem_shown (d : Driver) (clock n : Nat) : driverItemShown d clock n (d.item clock n) := by
  refine ⟨?_, ?_, ?_, ?_, ?_, ?_, ?_, ?_, ?_, ?_, ?_, ?_, ?_, ?_, ?_, ?_, ?history⟩
  case history =>
    rintro j e hj rfl
    refine ⟨fun kind => ?_, fun start => ?_, fun duration => ?_⟩
    · rw [historyItem (i := 0) hj (by decide) kind]
      exact itemOf_code _ HistoryEntry.kind
    · rw [historyItem (i := 1) hj (by decide) (by omega)]
      exact itemOf_eq _
    · rw [historyItem (i := 2) hj (by decide) (by omega)]
      exact itemOf_eq _
  case refine_6 | refine_7 => rintro rfl; rfl
  case refine_1 | refine_8 | refine_14 | refine_15 | refine_16 => rintro rfl; exact congrArg item (flagOf_eq _)
  case refine_3 => rintro rfl; exact itemOf_code _ OpenActivity.kind
  all_goals rintro rfl; exact itemOf_eq _

theorem clockItem_shown (h : Hours) (n : Nat) : clockItemShown h n (h.clockItem n) := by
  refine ⟨?_, ?_, ?_, ?_⟩ <;> rintro rfl
  · rfl
  · exact congrArg item (flagOf_eq _)
  · rfl
  · exact congrArg item (flagOf_eq _)

theorem spaceItem_beyond (s : State) {space : Space} {n : Nat} (h : space.size ≤ n) : s.spaceItem space n = none := by
  cases space with
  | slot => exact dif_neg (Nat.not_lt.2 h)
  | gauge =>
    have beyond : 16 ≤ n := h
    exact dif_neg (by omega)
  | dist =>
    obtain ⟨k, rfl⟩ := Nat.exists_eq_add_of_le' h
    rfl
  | driver1 | driver2 =>
    have beyond : 112 ≤ n := h
    exact (if_neg (by omega)).trans (if_neg (by omega))
  | clock =>
    obtain ⟨k, rfl⟩ := Nat.exists_eq_add_of_le' h
    rfl

theorem fieldValue_shown (s : State) (g : Page) (f : Field) : itemShown s g f (s.fieldValue g f) := by
  rintro space n rfl rfl
  refine ⟨rfl, spaceItem_beyond s, ?_⟩
  unfold State.fieldValue Field.itemNumber
  cases f.space.getD g.defaultSpace with
  | slot => exact slotItem_shown s _
  | gauge => exact gaugeItem_shown s _
  | dist => exact distItem_shown s _
  | driver1 => exact driverItem_shown s.hours.driver1 s.hours.clock _
  | driver2 => exact driverItem_shown s.hours.driver2 s.hours.clock _
  | clock => exact clockItem_shown s.hours _

theorem renderPage_shown (s : State) (p : PanelTable) (g : Page) : pageShown s p g (s.renderPage p g) := by
  intro forty fits apart
  have pairs : g.fields.Pairwise Field.apart := List.pairwise_iff_getElem.2 fun i j hi hj lt cell =>
    apart i j _ _ cell lt (List.getElem?_eq_getElem hi) (List.getElem?_eq_getElem hj)
  obtain ⟨length, shown, outside⟩ := placeFields_shown p (s.fieldValue g) g.fields fits pairs forty rfl
  exact ⟨length, fun f hf => ⟨_, fieldValue_shown s g f, shown f hf⟩, fun cell _ => outside cell⟩

/-! ## Message texts (R148) -/

theorem textImage_shown (p : PanelTable) (x : MessageText) (id : Identity) :
    textShown p x id (p.textImage x id.arg) := by
  unfold PanelTable.textImage
  refine ⟨fun none => by rw [none], fun a is forty fits => ?_⟩
  rw [is]
  exact ⟨length_placeField p fits forty _, placeField_shown p fits forty _,
    fun cell _ out => placeField_outside p fits forty _ out⟩

theorem messageWord_eq : messageWord = codes "MESSAGE " := rfl

theorem originName_eq (o : Origin) : originName o = codes (originText o) := by
  cases o <;> rfl

theorem originText_length_le (o : Origin) :
    (codes (originText o)).length = (originText o).length ∧ (originText o).length ≤ 8 := by
  cases o <;> decide

theorem messageImage_shown (id : Identity) : builtinShown id (messageImage id) := by
  intro code arg
  have number : digitsText 3 id.code _ := digitsText_decimal (by decide) code (by omega)
  have decimals := decimal_text (n := id.arg) (by omega)
  have short := decimalText_length_le (k := 5) decimals (by decide) (by omega)
  obtain ⟨name, nameShort⟩ := originText_length_le id.origin
  have first : fitRight 20 (messageWord ++ padLeft 3 0x30 (decimal id.code)) =
      codes "MESSAGE " ++ padLeft 3 0x30 (decimal id.code) ++ List.replicate 9 0x20 := by
    have length : (messageWord ++ padLeft 3 0x30 (decimal id.code)).length = 11 := by
      rw [List.length_append, number.1]
      rfl
    rw [fitRight_of_le (by omega), length, messageWord_eq]
  have second : fitRight 20 (originName id.origin ++ 0x20 :: decimal id.arg) =
      codes (originText id.origin) ++ 0x20 :: decimal id.arg ++
        List.replicate (19 - (originText id.origin).length - (decimal id.arg).length) 0x20 := by
    have length : (originName id.origin ++ 0x20 :: decimal id.arg).length =
        (originText id.origin).length + ((decimal id.arg).length + 1) := by
      rw [List.length_append, List.length_cons, originName_eq, name]
    rw [fitRight_of_le (by omega), length, originName_eq]
    congr 2
    omega
  have twenty := length_fitRight 20 (messageWord ++ padLeft 3 0x30 (decimal id.code))
  refine ⟨_, _, number, decimals, ?_, ?_, ?_⟩
  · rw [messageImage, twoLines, List.length_append, length_fitRight, length_fitRight]
  · rw [messageImage, twoLines, List.take_left' twenty, first]
  · rw [messageImage, twoLines, List.drop_left' twenty, second]

end Sys2Proof.Machine
end

section
/-! The settling of O58. The view of a refresh (R138), its image and its display report (R129). -/

namespace Sys2Proof.Machine

/-! ## What a refresh changes -/

section
variable (s : State)

@[simp] theorem refreshPanel_panel : s.refreshPanel.panel = s.panelNow := by
  unfold State.refreshPanel
  dsimp only
  split <;> rfl

/-- The entry displayed is reported to the stack. -/
theorem refreshPanel_stack :
    s.refreshPanel.stack = (s.panelNow.displayed.map s.stack.display).getD s.stack := by
  unfold State.refreshPanel
  dsimp only
  split
  · rename_i hidden
    rw [show s.panelNow.displayed = none from hidden]
    rfl
  · rename_i id displayed
    rw [show s.panelNow.displayed = some id from displayed]
    rfl

theorem refreshPanel_frame : s.refreshPanel = (s.withPanel s.refreshPanel.panel).withStack s.refreshPanel.stack := by
  unfold State.refreshPanel
  dsimp only
  split <;> rfl

end

section
variable {s : State}

/-- Outside the MESSAGE view nothing is displayed and the stack stays. -/
theorem refreshPanel_of_other (h : s.viewNow ≠ .message) : s.panelNow.displayed = none ∧
    s.panelNow.indexMode = s.panel.indexMode ∧ s.refreshPanel.stack = s.stack := by
  have hidden : s.panelNow.displayed = none := if_neg h
  refine ⟨hidden, if_neg fun enters => h enters.1, ?_⟩
  rw [refreshPanel_stack, hidden]
  rfl

/-- In the MESSAGE view the view-top is displayed and reported, and the entry into the view ends index mode (R148). -/
theorem refreshPanel_of_message {id : Identity} (h : s.viewNow = .message) (top : s.stack.topId = some id) :
    s.panelNow.displayed = some id ∧ (s.panel.view ≠ .message → s.panelNow.indexMode = false) ∧
      s.refreshPanel.stack = s.stack.display id := by
  have displayed : s.panelNow.displayed = some id := (if_pos h).trans top
  refine ⟨displayed, fun enters => if_pos ⟨h, enters⟩, ?_⟩
  rw [refreshPanel_stack, displayed]
  rfl

/-! ## The view by mode and view-top (R138) -/

theorem viewNow_unconfigured (h : s.mode.mode = .unconfigured) : s.viewNow = .text := by
  unfold State.viewNow
  rw [h]

theorem viewNow_starting (h : s.mode.mode = .starting) : s.viewNow = .start := by
  unfold State.viewNow
  rw [h]

theorem viewNow_dark (h : s.mode.mode = .parking ∨ s.mode.mode = .dormant) : s.viewNow = .blank := by
  unfold State.viewNow
  rcases h with h | h <;> rw [h]

theorem viewNow_lit (h : s.mode.mode = .running ∨ s.mode.mode = .limp) :
    s.viewNow = if s.stack.top.isSome then .message else .page := by
  unfold State.viewNow
  rcases h with h | h <;> rw [h]

/-! ## The image by the view -/

theorem imageNow_text (h : s.viewNow = .text) : s.imageNow = textImage := by
  unfold State.imageNow
  rw [h]

theorem imageNow_start (h : s.viewNow = .start) : s.imageNow = s.startView := by
  unfold State.imageNow
  rw [h]

theorem imageNow_page (h : s.viewNow = .page) : s.imageNow = s.pageView := by
  unfold State.imageNow
  rw [h]

theorem imageNow_blank (h : s.viewNow = .blank) : s.imageNow = blankImage := by
  unfold State.imageNow
  rw [h]

theorem imageNow_message {id : Identity} (h : s.viewNow = .message) (top : s.stack.topId = some id) :
    s.imageNow = s.messageView id := by
  unfold State.imageNow
  rw [h, top]

/-! ## The images of START, PAGE and MESSAGE -/

theorem textImage_eq : textImage = codes "CLUSTER NOT         CONFIGURED          " := rfl

theorem startImage_eq : startImage = codes "ISJEDRA ISJ-2440                        " := rfl

theorem builtinPage_eq : builtinPage = codes "PANEL NOT LOADED                        " := rfl

theorem startView_builtin
    (h : s.tables.panel = none ∨ ∃ p, s.tables.panel = some p ∧ p.startPage = none) : s.startView = startImage := by
  unfold State.startView PanelTable.start
  rcases h with unloaded | ⟨p, loaded, none⟩
  · rw [unloaded]
  · simp only [loaded, none, Option.bind_none]

theorem startView_page {p : PanelTable} {i : Nat} {g : Page} (loaded : s.tables.panel = some p)
    (start : p.startPage = some i) (page : p.pages[i]? = some g) : s.startView = s.renderPage p g := by
  unfold State.startView PanelTable.start PanelTable.page
  simp only [loaded, start, Option.bind_some, page]

theorem pageView_builtin (h : s.tables.panel = none) : s.pageView = builtinPage := by
  unfold State.pageView
  rw [h]

theorem pageView_page {p : PanelTable} {g : Page} (loaded : s.tables.panel = some p)
    (page : p.pages[s.panel.selected]? = some g) : s.pageView = s.renderPage p g := by
  unfold State.pageView PanelTable.page
  simp only [loaded, page]

/-- The text of a code that no other text has. -/
theorem textOf_of_mem {p : PanelTable} {x : MessageText} {code : Nat} (held : x ∈ p.texts) (named : x.code = code)
    (alone : ∀ y ∈ p.texts, y.code = code → y = x) : p.textOf code = some x := by
  unfold PanelTable.textOf
  cases found : p.texts.find? fun x => x.code == code with
  | none => exact absurd named (by simpa using List.find?_eq_none.1 found x held)
  | some y =>
    have same : y.code = code := by simpa using List.find?_some found
    rw [alone y (List.mem_of_find?_eq_some found) same]

theorem textOf_of_absent {p : PanelTable} {code : Nat} (absent : ∀ x ∈ p.texts, x.code ≠ code) :
    p.textOf code = none :=
  List.find?_eq_none.2 fun x held => by simpa using absent x held

theorem messageView_text {p : PanelTable} {x : MessageText} {id : Identity} (loaded : s.tables.panel = some p)
    (text : p.textOf id.code = some x) : s.messageView id = p.textImage x id.arg := by
  unfold State.messageView
  simp only [loaded, text]

theorem messageView_builtin {id : Identity}
    (h : s.tables.panel = none ∨ ∃ p, s.tables.panel = some p ∧ ∀ x ∈ p.texts, x.code ≠ id.code) :
    s.messageView id = messageImage id := by
  unfold State.messageView
  rcases h with unloaded | ⟨p, loaded, absent⟩
  · rw [unloaded]
  · simp only [loaded, textOf_of_absent absent]

end

/-! ## The display report (R129) -/

/-- An entry that is displayed. -/
def Entry.displayed (e : Entry) : Entry := if e.state = .new then { e with state := .shown, shownTime := 0 } else e

theorem Stack.find_display (k : Stack) (id other : Identity) :
    (k.display id).find other = if other = id then (k.find other).map Entry.displayed else k.find other := by
  have mapped : (k.display id).find other = (k.find other).map fun e =>
      if e.id = id ∧ e.state = .new then { e with state := .shown, shownTime := 0 } else e :=
    Stack.find_map _ (fun e => by split <;> rfl) other
  rw [mapped]
  cases found : k.find other with
  | none => simp
  | some e =>
    obtain ⟨_, rfl⟩ := Stack.find_some found
    by_cases same : e.id = id <;> simp [same, Entry.displayed]

/-! ## The refresh in RUNNING and LIMP -/

section
variable {s : State} (lit : s.mode.mode = .running ∨ s.mode.mode = .limp)
include lit

theorem viewNow_page (acked : ∀ e ∈ s.stack.entries, e.state = .acked) : s.viewNow = .page := by
  rw [viewNow_lit lit, Stack.top_of_acked acked]
  rfl

theorem viewNow_message {e : Entry} (top : s.stack.viewTop e) : s.viewNow = .message := by
  rw [viewNow_lit lit, Stack.top_of_viewTop top]
  rfl

end

theorem Stack.topId_of_viewTop {k : Stack} {e : Entry} (h : k.viewTop e) : k.topId = some e.id :=
  congrArg (Option.map Entry.id) (Stack.top_of_viewTop h)

theorem exec_panelRefresh {s : State} (awake : s.mode.mode ≠ .initial) :
    exec .panelRefresh s = .next s.refreshPanel :=
  congrArg _ (if_neg awake)

/-- Settles O58: the view by the mode and the view-top, then its image. -/
theorem panelRefreshShowsViewAndReports : Obligations.PanelRefreshShowsViewAndReports := by
  intro s awake
  refine ⟨_, exec_panelRefresh awake, refreshPanel_frame s, ?_⟩
  rw [refreshPanel_panel]
  have image : s.panelNow.image = s.imageNow := rfl
  refine ⟨rfl, rfl, rfl, bne_iff_ne, fun unconfigured => ?_, fun starting => ?_, fun dark => ?_,
    fun lit => ⟨fun acked => ?_, fun e found unacked first => ?_⟩⟩
  · have view := viewNow_unconfigured unconfigured
    obtain ⟨_, _, stack⟩ := refreshPanel_of_other (s := s) (by simp [view])
    exact ⟨view, stack, (imageNow_text view).trans textImage_eq⟩
  · have view := viewNow_starting starting
    obtain ⟨_, _, stack⟩ := refreshPanel_of_other (s := s) (by simp [view])
    rw [image, imageNow_start view]
    refine ⟨view, stack, fun builtin => (startView_builtin builtin).trans startImage_eq,
      fun p i g loaded start page => ?_⟩
    rw [startView_page loaded start page]
    exact renderPage_shown s p g
  · have view := viewNow_dark dark
    obtain ⟨_, _, stack⟩ := refreshPanel_of_other (s := s) (by simp [view])
    exact ⟨view, stack, imageNow_blank view⟩
  · have view := viewNow_page lit acked
    obtain ⟨hidden, indexMode, stack⟩ := refreshPanel_of_other (s := s) (by simp [view])
    rw [image, imageNow_page view]
    refine ⟨view, hidden, stack, indexMode, fun unloaded => (pageView_builtin unloaded).trans builtinPage_eq,
      fun p g loaded page => ?_⟩
    rw [pageView_page loaded page]
    exact renderPage_shown s p g
  · have top : s.stack.viewTop e := ⟨found, unacked, first⟩
    have view := viewNow_message lit top
    have topId := Stack.topId_of_viewTop top
    obtain ⟨displayed, indexMode, stack⟩ := refreshPanel_of_message view topId
    rw [image, imageNow_message view topId, stack]
    refine ⟨view, displayed, indexMode, fun new => ?_, fun shown => ?_, fun other ne => ?_,
      fun p x loaded held named alone => ?_, fun builtin => ?_⟩
    · rw [Stack.find_display, if_pos rfl, found, Option.map_some, Entry.displayed, if_pos new]
    · rw [Stack.find_display, if_pos rfl, found, Option.map_some, Entry.displayed, if_neg (by simp [shown])]
    · rw [Stack.find_display, if_neg ne]
    · rw [messageView_text loaded (textOf_of_mem held named alone)]
      exact textImage_shown p x e.id
    · rw [messageView_builtin builtin]
      exact messageImage_shown e.id

end Sys2Proof.Machine
end

section
/-! SUPPORT. Mode control through the events of the other units: those that leave its fields as they are (R154). -/

namespace Sys2Proof.Machine

/-! ## Orders -/

theorem closeOrder_mode (r : State × OrderEnd) : (State.closeOrder r).mode = r.1.mode := by
  obtain ⟨s, fin⟩ := r
  cases fin with
  | ended res detail => exact State.finish_mode s res detail
  | holds h => rfl

/-- What holds of mode control and what the body of an order leaves of it holds after the order's event. -/
theorem runOrder_mode {P : ModeControl → Prop} {s : State} {body : State → List Word → State × OrderEnd} (o : Order)
    (before : P s.mode) (after : ∀ args, P (body s args).1.mode) : P (s.runOrder o body).mode := by
  unfold State.runOrder
  split
  · exact before
  · split
    · rw [closeOrder_mode]
      exact after _
    · exact before

theorem loadTableBody_mode (s : State) (args : List Word) : (loadTableBody s args).1.mode = s.mode := by
  unfold loadTableBody State.takeImage
  dsimp only
  repeat' split
  all_goals rfl

theorem setAttentionMaskBody_mode (s : State) (args : List Word) : (setAttentionMaskBody s args).1.mode = s.mode := by
  unfold setAttentionMaskBody
  dsimp only
  split <;> rfl

theorem copyOutBody_mode (s : State) (args : List Word) : (copyOutBody s args).1.mode = s.mode := by
  unfold copyOutBody
  dsimp only
  split
  · rfl
  · split
    · rfl
    · split <;> rfl

theorem setTimeBody_mode (s : State) (args : List Word) : (setTimeBody s args).1.mode = s.mode := by
  unfold setTimeBody
  dsimp only
  split
  · rfl
  · exact State.evaluateHours_mode _

theorem acceptHours_mode (s : State) (h : Hours) (t : Nat) : (s.acceptHours h t).mode = s.mode :=
  State.evaluateHours_mode _

theorem cardInBody_mode (s : State) (args : List Word) : (cardInBody s args).1.mode = s.mode := by
  refine hoursOrder_keeps (P := fun t => t.mode = s.mode) _ rfl fun slot => ?_
  dsimp only
  split_ifs
  · rfl
  · rfl
  · rfl
  · exact acceptHours_mode _ _ _

theorem cardOutBody_mode (s : State) (args : List Word) : (cardOutBody s args).1.mode = s.mode := by
  refine hoursOrder_keeps (P := fun t => t.mode = s.mode) _ rfl fun slot => ?_
  dsimp only
  split
  · rfl
  · split
    · rfl
    · exact acceptHours_mode _ _ _

theorem activityBody_mode (s : State) (args : List Word) : (activityBody s args).1.mode = s.mode := by
  refine hoursOrder_keeps (P := fun t => t.mode = s.mode) _ rfl fun slot => ?_
  dsimp only
  split
  · rfl
  · rfl
  · split
    · rfl
    · split_ifs
      · rfl
      · rfl
      · rfl
      · exact acceptHours_mode _ _ _
      · exact acceptHours_mode _ _ _

theorem setKFactorBody_mode (s : State) (args : List Word) : (setKFactorBody s args).1.mode = s.mode := by
  unfold setKFactorBody
  dsimp only
  split_ifs <;> rfl

theorem setOdometerBody_mode (s : State) (args : List Word) : (setOdometerBody s args).1.mode = s.mode := by
  unfold setOdometerBody
  split_ifs <;> rfl

theorem lockCalibrationBody_mode (s : State) (args : List Word) : (lockCalibrationBody s args).1.mode = s.mode := by
  unfold lockCalibrationBody
  split
  · rfl
  · split <;> rfl

theorem resetTripBody_mode (s : State) (args : List Word) : (resetTripBody s args).1.mode = s.mode := by
  unfold resetTripBody
  split <;> rfl

theorem postMessageBody_mode (s : State) (args : List Word) : (postMessageBody s args).1.mode = s.mode := by
  unfold postMessageBody State.hostPost
  dsimp only
  repeat' split
  all_goals rfl

theorem clearMessageBody_mode (s : State) (args : List Word) : (clearMessageBody s args).1.mode = s.mode := by
  unfold clearMessageBody
  dsimp only
  split <;> rfl

theorem ackMessageBody_mode (s : State) (args : List Word) : (ackMessageBody s args).1.mode = s.mode := by
  unfold ackMessageBody
  dsimp only
  split
  · rfl
  · split <;> rfl

theorem selectPageBody_mode (s : State) (args : List Word) : (selectPageBody s args).1.mode = s.mode := by
  unfold selectPageBody
  dsimp only
  split <;> rfl

theorem writeWords_mode (s : State) (a : Nat) (ws : List Word) : (s.writeWords a ws).mode = s.mode := by
  induction ws generalizing s a with
  | nil => rfl
  | cons w ws ih => exact (ih _ _).trans (State.writeXm_mode s a w)

theorem takeKeysBody_mode (s : State) (args : List Word) : (takeKeysBody s args).1.mode = s.mode := by
  unfold takeKeysBody
  dsimp only
  split
  · rfl
  · exact writeWords_mode _ _ _

theorem testLampsBody_mode (s : State) (args : List Word) : (testLampsBody s args).1.mode = s.mode := by
  unfold testLampsBody
  dsimp only
  split_ifs <;> rfl

/-! ## Adoptions -/

theorem install_mode (s : State) (k : TableKind) (i : Incoming) : (s.install k i).mode = s.mode := rfl

theorem endLoad_mode (s : State) (k : TableKind) (r : Result) : (s.endLoad k r).mode = s.mode :=
  State.finish_mode _ _ _

theorem slotsAdopted_mode (s : State) (t : SlotsTable) : (allSlots.foldl (State.adoptSlot t) s).mode = s.mode :=
  foldl_keeps _ State.mode (fun s _ => State.changeSlot_mode s _ _ _) allSlots s

theorem adoptChannel_mode (old : Option GaugeTable) (t : GaugeTable) (s : State) (c : Fin 8) :
    (State.adoptChannel old t s c).mode = s.mode := by
  unfold State.adoptChannel State.idleChannel State.enableChannel State.keepChannel State.rejudgeChannel
  dsimp only
  repeat' split
  all_goals simp

theorem channelsAdopted_mode (s : State) (old : Option GaugeTable) (t : GaugeTable) :
    (s.forChannels (State.adoptChannel old t)).mode = s.mode :=
  foldl_keeps _ State.mode (adoptChannel_mode old t) allChannels s

theorem rearm_mode (s : State) : s.rearm.mode = s.mode := by
  unfold State.rearm
  split <;> simp

theorem lampsAdopted_mode (s : State) (old : Option LampTable) :
    (allLamps.foldl (State.adoptLamp old) s).mode = s.mode :=
  foldl_keeps _ State.mode (fun s n => by simp [State.adoptLamp]) allLamps s

/-! ## The odometer store -/

theorem failStore_mode (s : State) : s.failStore.mode = s.mode := by
  unfold State.failStore
  dsimp only
  split <;> simp

theorem odometerSet_mode (s : State) (v units : Nat) : (s.odometerSet v units).mode = s.mode := by
  unfold State.odometerSet
  dsimp only
  split <;> simp

theorem endCommit_mode (s : State) (fixed : Option Nat) (units : Nat) (ok : Bool) :
    (s.endCommit fixed units ok).mode = s.mode := by
  unfold State.endCommit
  split
  · simp
  · split <;> simp [odometerSet_mode]

theorem commitSignals_mode (s : State) (ok : Bool) : (s.commitSignals ok).mode = s.mode := by
  unfold State.commitSignals
  split
  · split <;> simp
  · simp

theorem commitVerified_mode (s : State) (fixed : Option Nat) (value units : Nat) (ok : Bool) :
    (s.commitVerified fixed value units ok).mode = s.mode := by
  unfold State.commitVerified
  dsimp only
  split_ifs <;> simp [endCommit_mode, failStore_mode, commitSignals_mode]

theorem firstK_mode (s : State) (k : Nat) : (s.firstK k).mode = s.mode :=
  State.forChannels_sourceEvent_mode _ _ _ _ _

theorem calibrated_mode (s : State) (purpose : CalPurpose) (r : CalRecord) :
    (s.calibrated purpose r).mode = s.mode := by
  unfold State.calibrated
  cases purpose with
  | setK =>
    dsimp only
    rw [State.raise_mode]
    split <;> simp [firstK_mode]
  | lock | setOdometer => rfl

theorem calibrationFailed_mode (s : State) : s.calibrationFailed.mode = s.mode := by
  simp [State.calibrationFailed]

/-! ## The intake -/

theorem readSlot_mode (mid : List MidAccess) (s : State) (i : Fin 64) : (s.readSlot mid i).1.mode = s.mode := by
  unfold State.readSlot
  dsimp only
  split_ifs <;> simp

/-! ## Speed, hours, lamps -/

theorem speedEdge_mode (s : State) : s.speedEdge.mode = s.mode := by
  unfold State.speedEdge State.countPulse State.countEdge
  dsimp only
  repeat' split
  all_goals simp

theorem speedWindow_mode (s : State) : s.speedWindow.mode = s.mode := by
  have shown : s.windowShown.mode = s.mode :=
    foldl_keeps State.speedReading State.mode (fun s c => by unfold State.speedReading; split <;> simp) allChannels
      (s.withSpeed s.windowed)
  rw [speedWindow_eq]
  split
  · rw [State.evaluateHours_mode, shown]
  · exact shown

theorem minuteDue_mode (s : State) : s.minuteDue.mode = s.mode := by
  unfold State.minuteDue
  dsimp only
  repeat' split
  all_goals simp

theorem lampRound_mode (s : State) (order opens : List (Fin 40)) : (s.lampRound order opens).mode = s.mode :=
  foldl_keeps _ State.mode (State.evaluateLamp_mode opens) _ s

/-! ## Keys -/

theorem clearPageTrip_mode (s : State) : s.clearPageTrip.mode = s.mode := by
  unfold State.clearPageTrip
  split <;> rfl

theorem pageKey_mode (s : State) (k : Key) (long : Bool) : (s.pageKey k long).mode = s.mode := by
  unfold State.pageKey
  split
  · rfl
  · rfl
  · split <;> rfl
  · exact clearPageTrip_mode s
  all_goals rfl

theorem indexKey_mode (s : State) (k : Key) (long : Bool) : (s.indexKey k long).mode = s.mode := by
  unfold State.indexKey
  split
  case h_4 => exact clearPageTrip_mode s
  all_goals rfl

theorem keyAction_mode (s : State) (k : Key) (long : Bool) : (s.keyAction k long).mode = s.mode := by
  unfold State.keyAction
  split
  · split
    · exact State.keyAcknowledge_mode s _
    · rfl
  · split
    · exact indexKey_mode s k long
    · exact pageKey_mode s k long
  all_goals rfl

theorem keyEvent_mode (s : State) (k : Key) (long : Bool) : (s.keyEvent k long).mode = s.mode := by
  unfold State.keyEvent
  dsimp only
  repeat' split
  all_goals simp [keyAction_mode]

theorem acceptRelease_mode (s : State) (k : Key) : (s.acceptRelease k).mode = s.mode := by
  unfold State.acceptRelease
  dsimp only
  split_ifs <;> simp [keyEvent_mode]

theorem giveLong_mode (s : State) (k : Key) : (s.giveLong k).mode = s.mode := by
  unfold State.giveLong
  dsimp only
  split <;> simp [keyEvent_mode]

/-! ## The report pass and the posts of the end of INITIAL -/

theorem reportPass_mode (s : State) (mid : List MidAccess) : (s.reportPass mid).mode = s.mode := by
  have written : ∀ (ws : List Word) (n : Nat) (u : State), (State.writePass mid n ws u).mode = u.mode := by
    intro ws
    induction ws with
    | nil => exact fun _ _ => rfl
    | cons w ws ih => exact fun n u => by rw [State.writePass, ih]; simp
  exact written _ 0 _

theorem postConditions_mode (s : State) : s.postConditions.mode = s.mode := by
  unfold State.postConditions
  dsimp only
  repeat' split
  all_goals simp

end Sys2Proof.Machine
end

section
/-! The settling of O7. Every command and the time base keep the ignition state that goes with the mode (R154, R157 to
R164). -/

namespace Sys2Proof.Machine

/-! ## The ignition state by the mode -/

/-- The ignition state of the part goes with its mode. Irreducible: a unifier that unfolds it computes modes. -/
@[irreducible] def State.fits (s : State) : Prop := s.mode.ignitionFits

theorem fits_iff (s : State) : s.fits ↔ s.mode.ignitionFits := by
  unfold State.fits
  rfl

/-- Whether it does is a matter of mode control. -/
theorem fits_congr {s t : State} (same : t.mode = s.mode) : t.fits ↔ s.fits := by
  rw [fits_iff, fits_iff, same]

/-- In STARTING, RUNNING and LIMP the ignition is ON. -/
theorem fits_lit {s : State} (lit : s.mode.mode = .starting ∨ s.mode.mode = .running ∨ s.mode.mode = .limp) :
    s.fits ↔ s.mode.ignition = true := by
  rw [fits_iff]
  unfold ModeControl.ignitionFits
  obtain mode | mode | mode := lit <;> rw [mode]

/-- In INITIAL, PARKING and DORMANT it is OFF. -/
theorem fits_dark {s : State} (dark : s.mode.mode = .initial ∨ s.mode.mode = .parking ∨ s.mode.mode = .dormant) :
    s.fits ↔ s.mode.ignition = false := by
  rw [fits_iff]
  unfold ModeControl.ignitionFits
  obtain mode | mode | mode := dark <;> rw [mode]

/-- In UNCONFIGURED it may be either. -/
theorem fits_unconfigured {s : State} (mode : s.mode.mode = .unconfigured) : s.fits := by
  rw [fits_iff]
  unfold ModeControl.ignitionFits
  rw [mode]
  exact trivial

/-! ## Changes of the mode -/

/-- A change between STARTING, RUNNING and LIMP asks for no other ignition state. -/
theorem setMode_fits_lit {s : State} {m : DeviceMode} (h : s.fits)
    (before : s.mode.mode = .starting ∨ s.mode.mode = .running ∨ s.mode.mode = .limp)
    (after : m = .running ∨ m = .limp) : (s.setMode m).fits :=
  (fits_lit (s := s.setMode m) (.inr after)).2 ((fits_lit before).1 h)

theorem judgeRunning_fits {s : State} (h : s.fits) : s.judgeRunning.fits := by
  unfold State.judgeRunning
  split
  · rename_i settled
    exact (fits_congr (State.withIntake_mode _ _)).2 (setMode_fits_lit h (.inl settled.1) (.inl rfl))
  · exact h

theorem judgeDormant_fits {s : State} (h : s.fits) : s.judgeDormant.fits := by
  unfold State.judgeDormant
  split
  · rename_i atRest
    exact (fits_dark (s := s.setMode .dormant) (.inr (.inr rfl))).2 ((fits_dark (.inr (.inl atRest.1))).1 h)
  · exact h

/-- A loss and a restoration of the heartbeat move the mode between RUNNING and LIMP (R161). -/
theorem setHeartbeat_fits {s : State} {beat : Heartbeat} (h : s.fits) : (s.setHeartbeat beat).fits := by
  obtain ⟨u, hu, moves⟩ := setHeartbeat_cases s beat
  have put : u.fits := (fits_congr (hu ▸ State.withIntake_mode _ _)).2 h
  have mode : u.mode.mode = s.mode.mode := by rw [hu, State.withIntake_mode]
  obtain ⟨_, _, running, eq⟩ | ⟨_, _, limp, eq⟩ | ⟨_, _, eq⟩ := moves <;> rw [eq]
  · refine (fits_congr ((State.post_mode _ _ _).trans (State.raise_mode _ _))).2 ?_
    exact setMode_fits_lit put (.inr (.inl (mode.trans running))) (.inr rfl)
  · refine (fits_congr (State.clear_mode _ _)).2 ?_
    exact setMode_fits_lit put (.inr (.inr (mode.trans limp))) (.inl rfl)
  · exact put

theorem scanSlot_fits {mid : List MidAccess} {s : State} {i : Fin 64} (h : s.fits) :
    (State.scanSlot mid s i).fits := by
  have read : (s.readSlot mid i).1.fits := (fits_congr (readSlot_mode mid s i)).2 h
  unfold State.scanSlot
  dsimp only
  split
  · exact setHeartbeat_fits read
  · exact read

theorem enterStarting_mode (s : State) (sweep : Bool) :
    (s.enterStarting sweep).mode = { s.mode with mode := .starting } := by
  simp [State.enterStarting]

/-- STARTING is entered with the ignition ON (R158, R164). -/
theorem enterStarting_fits {s : State} (sweep : Bool) (on : s.mode.ignition = true) : (s.enterStarting sweep).fits := by
  rw [fits_lit] <;> rw [enterStarting_mode]
  · exact on
  · exact .inl rfl

/-- PARKING is entered, and left for DORMANT, with the ignition OFF (R162, R163). -/
theorem enterParking_fits {s : State} (off : s.mode.ignition = false) : s.enterParking.fits := by
  unfold State.enterParking
  dsimp only
  have same : (if s.mode.mode = .limp then s.clear msgLinkFault else s).mode = s.mode := by split <;> rfl
  refine judgeDormant_fits ?_
  rw [fits_dark] <;>
    rw [State.withStore_mode, State.stopChime_mode, State.dropRises_mode, State.withLamps_mode,
      State.forChannels_disarm_mode, State.forChannels_parkChannel_mode, State.setMode_mode, same]
  · exact off
  · exact .inr (.inl rfl)

theorem ignitionOn_fits {s : State} (h : s.fits) : s.ignitionOn.fits := by
  have lit (on : s.mode.mode = .starting ∨ s.mode.mode = .running ∨ s.mode.mode = .limp) :
      (s.setIgnition true).fits := (fits_lit (s := s.setIgnition true) on).2 rfl
  unfold State.ignitionOn
  split
  case h_1 => exact enterStarting_fits false rfl
  case h_2 => exact enterStarting_fits true rfl
  case h_3 => exact h
  case h_4 mode => exact fits_unconfigured (s := s.setIgnition true) mode
  case h_5 mode => exact lit (.inl mode)
  case h_6 mode => exact lit (.inr (.inl mode))
  case h_7 mode => exact lit (.inr (.inr mode))

theorem ignitionOff_fits {s : State} (h : s.fits) : s.ignitionOff.fits := by
  have dark (off : s.mode.mode = .parking ∨ s.mode.mode = .dormant) :
      (s.setIgnition false).fits := (fits_dark (s := s.setIgnition false) (.inr off)).2 rfl
  unfold State.ignitionOff
  split
  case h_4 => exact h
  case h_5 mode => exact fits_unconfigured (s := s.setIgnition false) mode
  case h_6 mode => exact dark (.inl mode)
  case h_7 mode => exact dark (.inr mode)
  all_goals exact enterParking_fits rfl

/-- START enters STARTING with the ignition ON and DORMANT with it OFF (R158). -/
theorem startBody_fits {s : State} (h : s.fits) (args : List Word) : (startBody s args).1.fits := by
  have started : (if s.mode.ignition then s.enterStarting true else s.setMode .dormant).fits := by
    split
    · exact enterStarting_fits true ‹_›
    · exact (fits_dark (s := s.setMode .dormant) (.inr (.inr rfl))).2 (Bool.eq_false_iff.2 ‹_›)
  unfold startBody
  split
  · exact h
  · split
    · exact started
    · exact h

/-- A reset leaves INITIAL with the ignition OFF (R155). -/
theorem fits_of_reset {s : State} (mode : s.mode.mode = .initial) (off : s.mode.ignition = false) : s.fits :=
  (fits_dark (.inl mode)).2 off

theorem leaveInitial_mode (s : State) : s.leaveInitial.mode = { s.mode with mode := .unconfigured } := by
  unfold State.leaveInitial
  dsimp only
  rw [State.refreshPanel_mode, State.evaluateHours_mode, postConditions_mode, State.withPanel_mode,
    State.withLamps_mode, State.setMode_mode]

theorem leaveInitial_fits (s : State) : s.leaveInitial.fits :=
  fits_unconfigured (by rw [leaveInitial_mode])

theorem adoptGauges_fits {s : State} (h : s.fits) (t : GaugeTable) (i : Incoming) : (s.adoptGauges t i).fits := by
  unfold State.adoptGauges
  dsimp only
  refine judgeDormant_fits (judgeRunning_fits ((fits_congr ?_).2 h))
  rw [endLoad_mode, rearm_mode, channelsAdopted_mode, install_mode, State.forChannels_disarm_mode]

/-- The time base changes neither the mode nor the ignition state. -/
theorem elapse_fits {s : State} (us : Nat) (h : s.fits) : (s.elapse us).fits := by
  rw [fits_iff] at h ⊢
  change (s.mode.elapse _).ignitionFits
  unfold ModeControl.elapse
  split <;> exact h

/-! ## Commands -/

/-- A command answers a next state whose ignition state goes with its mode, where it did before. -/
def KeepsFit (c : Instr) : Prop :=
  ∀ s, s.fits → ∃ t, exec c s = .next t ∧ t.fits

namespace KeepsFit
variable {c : Instr} {f : State → State}

theorem of_fits (runs : ∀ s, exec c s = .next (f s)) (keeps : ∀ s, s.fits → (f s).fits) :
    KeepsFit c :=
  fun s h => ⟨f s, runs s, keeps s h⟩

/-- A command whose event leaves mode control as it is. -/
theorem of_mode (runs : ∀ s, exec c s = .next (f s)) (same : ∀ s, (f s).mode = s.mode) : KeepsFit c :=
  of_fits runs fun s h => (fits_congr (same s)).2 h

/-- A command whose event occurs where a condition holds. -/
theorem of_when {p : State → Prop} [∀ s, Decidable (p s)] (runs : ∀ s, exec c s = .next (if p s then f s else s))
    (keeps : ∀ s, s.fits → (f s).fits) : KeepsFit c :=
  of_fits runs fun s h => by
    split
    · exact keeps s h
    · exact h

/-- A command whose event does not occur where a condition holds. -/
theorem of_unless {p : State → Prop} [∀ s, Decidable (p s)] (runs : ∀ s, exec c s = .next (if p s then s else f s))
    (keeps : ∀ s, s.fits → (f s).fits) : KeepsFit c :=
  of_fits runs fun s h => by
    split
    · exact h
    · exact keeps s h

/-- An order whose body leaves mode control as it is. -/
theorem of_order {o : Order} {body : State → List Word → State × OrderEnd}
    (runs : ∀ s, exec c s = .next (s.runOrder o body)) (same : ∀ s args, (body s args).1.mode = s.mode) :
    KeepsFit c :=
  of_mode runs fun s => runOrder_mode (P := fun m => m = s.mode) o rfl (same s)

end KeepsFit

open KeepsFit

theorem start_keepsFit : KeepsFit .start :=
  of_fits (fun _ => rfl) fun s h => (fits_iff _).2 <|
    runOrder_mode (P := ModeControl.ignitionFits) .start ((fits_iff s).1 h) fun args =>
      (fits_iff _).1 (startBody_fits h args)

theorem endOrder_keepsFit : KeepsFit .endOrder :=
  of_mode (fun _ => rfl) fun s => by split <;> simp

theorem slotsTableAdoption_keepsFit : KeepsFit .slotsTableAdoption :=
  of_mode (fun _ => rfl) fun s => by
    split
    · rw [endLoad_mode, State.adoptHeartbeat, State.withIntake_mode, slotsAdopted_mode, install_mode]
    · rfl

theorem gaugeTableAdoption_keepsFit : KeepsFit .gaugeTableAdoption :=
  of_fits (fun _ => rfl) fun s h => by
    split
    · split
      · exact (fits_congr (endLoad_mode s _ _)).2 h
      · exact adoptGauges_fits h _ _
    · exact h

theorem lampTableAdoption_keepsFit : KeepsFit .lampTableAdoption :=
  of_mode (fun _ => rfl) fun s => by
    split
    · rw [endLoad_mode, lampsAdopted_mode, install_mode, State.dropRises_mode]
    · rfl

theorem panelTableAdoption_keepsFit : KeepsFit .panelTableAdoption :=
  of_mode (fun _ => rfl) fun s => by
    split
    · rw [endLoad_mode, State.withPanel_mode, install_mode]
    · rfl

theorem glyphTableAdoption_keepsFit : KeepsFit .glyphTableAdoption :=
  of_mode (fun _ => rfl) fun s => by
    split
    · rw [endLoad_mode, install_mode]
    · rfl

theorem rulesTableAdoption_keepsFit : KeepsFit .rulesTableAdoption :=
  of_mode (fun _ => rfl) fun s => by
    split
    · rw [endLoad_mode, State.evaluateHours_mode, install_mode]
    · rfl

theorem copyOutSnapshot_keepsFit : KeepsFit .copyOutSnapshot :=
  of_mode (fun _ => rfl) fun s => by
    split
    · rw [State.finish_mode, writeWords_mode]
    all_goals rfl

theorem sectorEraseDone_keepsFit : KeepsFit .sectorEraseDone :=
  of_mode (fun _ => rfl) fun s => by split <;> simp

/-- The end of a commit may end PARKING (R163). -/
theorem commitVerifyDone_keepsFit (ok : Bool) : KeepsFit (.commitVerifyDone ok) :=
  of_fits (fun _ => rfl) fun s h => by
    split
    · refine judgeDormant_fits ?_
      exact (fits_congr (commitVerified_mode s _ _ _ _)).2 h
    all_goals exact h

theorem calibrationWriteDone_keepsFit (ok : Bool) : KeepsFit (.calibrationWriteDone ok) :=
  of_fits (fun _ => rfl) fun s h => by
    split
    · split_ifs
      · refine judgeDormant_fits ?_
        refine (fits_congr ?_).2 h
        rw [State.finish_mode, State.endOperation_mode, calibrated_mode, State.withStore_mode]
      · refine (fits_congr ?_).2 h
        rw [State.raise_mode, State.withStore_mode]
      · refine judgeDormant_fits ((fits_congr ?_).2 h)
        rw [calibrationFailed_mode, State.raise_mode]
    all_goals exact h

theorem restoreDone_keepsFit (ok : Bool) : KeepsFit (.restoreDone ok) :=
  of_fits (fun _ => rfl) fun s h => by
    split
    · refine judgeDormant_fits ((fits_congr ?_).2 h)
      split <;> simp [calibrationFailed_mode]
    all_goals exact h

theorem homingEnd_keepsFit (c : Fin 8) : KeepsFit (.homingEnd c) :=
  of_fits (fun _ => rfl) fun s h => by
    split
    · exact h
    · split
      · exact judgeDormant_fits (judgeRunning_fits ((fits_congr (State.endHoming_mode s c _)).2 h))
      · exact h

theorem holdTimeExpired_keepsFit (c : Fin 8) : KeepsFit (.holdTimeExpired c) :=
  of_mode (fun _ => rfl) fun s => by
    split
    · rfl
    · split
      · exact State.enterWith_mode s c _ _
      · rfl

theorem gaugeUpdate_keepsFit (order : List (Fin 8)) : KeepsFit (.gaugeUpdate order) :=
  of_unless (fun _ => rfl) fun s h => by
    refine judgeDormant_fits (judgeRunning_fits ((fits_congr ?_).2 h))
    exact foldl_keeps State.updateChannel State.mode State.updateChannel_mode _ s

theorem lampEvaluation_keepsFit (order opens : List (Fin 40)) : KeepsFit (.lampEvaluation order opens) :=
  of_unless (fun _ => rfl) fun s h => judgeRunning_fits ((fits_congr (lampRound_mode s order opens)).2 h)

theorem intakeScan_keepsFit (mid : List MidAccess) : KeepsFit (.intakeScan mid) :=
  of_unless (fun _ => rfl) fun s h => (fits_congr (State.withIntake_mode _ _)).2 <|
    foldl_invariant (State.scanSlot mid) State.fits (fun _ _ h => scanSlot_fits h) allSlots s h

theorem speedWindow_keepsFit (us : Nat) : KeepsFit (.speedWindow us) :=
  of_fits (fun _ => rfl) fun s h => by
    split
    · exact elapse_fits us h
    · exact (fits_congr (speedWindow_mode _)).2 (elapse_fits us h)

/-- The pin is not the ignition state (R157). -/
theorem ignInput_keepsFit (on : Bool) : KeepsFit (.ignInput on) :=
  of_fits (fun _ => rfl) fun s h => by
    rw [fits_iff] at h ⊢
    exact h

theorem keepsFit (c : Instr) : KeepsFit c := by
  cases c with
  | powerOnReset | hardReset => exact of_fits (fun _ => rfl) fun _ _ => fits_of_reset rfl rfl
  | resetCauseEnd => exact of_when (fun _ => rfl) fun _ _ => fits_of_reset rfl rfl
  | initialEnd mid =>
    exact of_when (fun _ => rfl) fun s _ => (fits_congr (reportPass_mode _ mid)).2 (leaveInitial_fits s)
  | wctlWrite | wadrWrite | wdatRead | wdatWrite | causeWrite | handOver | withdraw =>
    exact of_mode (fun _ => rfl) fun s => State.access_mode s _
  | registerWriteOther => exact of_mode (fun _ => rfl) fun _ => rfl
  | endOrder => exact endOrder_keepsFit
  | loadTable => exact of_order (fun _ => rfl) loadTableBody_mode
  | slotsTableAdoption => exact slotsTableAdoption_keepsFit
  | gaugeTableAdoption => exact gaugeTableAdoption_keepsFit
  | lampTableAdoption => exact lampTableAdoption_keepsFit
  | panelTableAdoption => exact panelTableAdoption_keepsFit
  | glyphTableAdoption => exact glyphTableAdoption_keepsFit
  | rulesTableAdoption => exact rulesTableAdoption_keepsFit
  | start => exact start_keepsFit
  | setAttentionMask => exact of_order (fun _ => rfl) setAttentionMaskBody_mode
  | copyOut => exact of_order (fun _ => rfl) copyOutBody_mode
  | copyOutSnapshot => exact copyOutSnapshot_keepsFit
  | setTime => exact of_order (fun _ => rfl) setTimeBody_mode
  | cardIn => exact of_order (fun _ => rfl) cardInBody_mode
  | cardOut => exact of_order (fun _ => rfl) cardOutBody_mode
  | activity => exact of_order (fun _ => rfl) activityBody_mode
  | setKFactor => exact of_order (fun _ => rfl) setKFactorBody_mode
  | setOdometer => exact of_order (fun _ => rfl) setOdometerBody_mode
  | lockCalibration => exact of_order (fun _ => rfl) lockCalibrationBody_mode
  | resetTrip => exact of_order (fun _ => rfl) resetTripBody_mode
  | postMessage => exact of_order (fun _ => rfl) postMessageBody_mode
  | clearMessage => exact of_order (fun _ => rfl) clearMessageBody_mode
  | ackMessage => exact of_order (fun _ => rfl) ackMessageBody_mode
  | selectPage => exact of_order (fun _ => rfl) selectPageBody_mode
  | takeKeys => exact of_order (fun _ => rfl) takeKeysBody_mode
  | testLamps => exact of_order (fun _ => rfl) testLampsBody_mode
  | sectorEraseDone => exact sectorEraseDone_keepsFit
  | commitVerifyDone ok => exact commitVerifyDone_keepsFit ok
  | calibrationWriteDone ok => exact calibrationWriteDone_keepsFit ok
  | restoreDone ok => exact restoreDone_keepsFit ok
  | speedEdge us =>
    exact of_fits (fun _ => rfl) fun s h => (fits_congr (speedEdge_mode (s.elapse us))).2 (elapse_fits us h)
  | speedWindow us => exact speedWindow_keepsFit us
  | movingSet =>
    exact of_when (fun _ => rfl) fun s h =>
      (fits_congr ((State.evaluateHours_mode _).trans (State.withSpeed_mode s _))).2 h
  | intakeScan mid => exact intakeScan_keepsFit mid
  | slotStale slot => exact of_when (fun _ => rfl) fun s h =>
      (fits_congr ((State.withIntake_mode _ _).trans (State.ageSlot_mode s slot))).2 h
  | heartbeatLost => exact of_when (fun _ => rfl) fun _ h => setHeartbeat_fits h
  | gaugeUpdate order => exact gaugeUpdate_keepsFit order
  | homingEnd channel => exact homingEnd_keepsFit channel
  | holdTimeExpired channel => exact holdTimeExpired_keepsFit channel
  | lampEvaluation order opens => exact lampEvaluation_keepsFit order opens
  | overcurrent | shortWaitEnd =>
    exact of_when (fun _ => rfl) fun s h => (fits_congr (State.setLampFault_mode s _ _)).2 h
  | bulbCheckOver =>
    exact of_when (fun _ => rfl) fun s h => judgeRunning_fits ((fits_congr (State.withLamps_mode s _)).2 h)
  | lampTestEnd | flashEdge => exact of_mode (fun _ => rfl) fun s => by split <;> rfl
  | singleEnd | clickEnd | continuousToneEdge => exact of_mode (fun _ => rfl) fun s => by split <;> rfl
  | minuteDue => exact of_when (fun _ => rfl) fun s h => (fits_congr (minuteDue_mode s)).2 h
  | stackTick | shownTimeExpired =>
    exact of_unless (fun _ => rfl) fun s h => (fits_congr (State.takeStack_mode s _)).2 h
  | panelRefresh => exact of_unless (fun _ => rfl) fun s h => (fits_congr (State.refreshPanel_mode s)).2 h
  | keyInput => exact of_mode (fun _ => rfl) fun _ => rfl
  | acceptedPress => exact of_mode (fun _ => rfl) fun s => by dsimp only; split <;> rfl
  | acceptedRelease key us =>
    exact of_fits (fun _ => rfl) fun s h => (fits_congr (acceptRelease_mode (s.elapse us) key)).2 (elapse_fits us h)
  | longKeyEvent key us =>
    exact of_fits (fun _ => rfl) fun s h => (fits_congr (giveLong_mode (s.elapse us) key)).2 (elapse_fits us h)
  | reportRefresh mid => exact of_unless (fun _ => rfl) fun s h => (fits_congr (reportPass_mode s mid)).2 h
  | ignInput on => exact ignInput_keepsFit on
  | ignitionOnEvent => exact of_when (fun _ => rfl) fun _ h => ignitionOn_fits h
  | ignitionOffEvent => exact of_when (fun _ => rfl) fun _ h => ignitionOff_fits h

/-- Settles O7: every command keeps the ignition state that goes with the mode, and so does the time base. -/
theorem stepKeepsIgnitionFittingMode : Obligations.StepKeepsIgnitionFittingMode := by
  intro s t fits runs
  unfold step at runs
  split at runs
  · obtain rfl := Host.Outcome.next.inj runs
    exact (fits_iff _).1 (elapse_fits idleTime ((fits_iff s).2 fits))
  · rename_i c rest _
    obtain ⟨u, next, kept⟩ := keepsFit c (s.withPending rest) ((fits_iff _).2 fits)
    obtain rfl := Host.Outcome.next.inj (runs.symm.trans next)
    exact (fits_iff _).1 kept

end Sys2Proof.Machine
end

section
/-! The settling of O1. The state right after a POWER-ON reset, unit by unit (R155). -/

namespace Sys2Proof.Machine

/-- Every channel begins as R19 and R39 give it. -/
theorem reset_channel (c : Fin 8) : State.reset.gauges[c] = Channel.reset :=
  Vector.getElem_replicate _

/-- Every lamp begins as R75 gives it. -/
theorem reset_lamp (n : Fin 40) : State.reset.lamps.recs[n] = LampRec.reset :=
  Vector.getElem_replicate _

/-- The heartbeat slot begins with a type and a timeout of its own (R3); its condition and counts are those of the other
slots (R5). -/
theorem reset_slot (i : Fin 64) :
    State.reset.intake.slots[i].condition = .never ∧ State.reset.intake.slots[i].lastSeq = 0 ∧
      State.reset.intake.slots[i].accepted = 0 ∧ State.reset.intake.slots[i].age = 0 := by
  have record : State.reset.intake.slots[i] =
      if 0 = i.val then ⟨.heartbeat, defaultHeartbeatTimeout, .never, 0, 0, 0⟩ else SlotRec.reset := by
    simp [State.reset, Intake.reset, Vector.getElem_set]
  rw [record]
  split <;> exact ⟨rfl, rfl, rfl, rfl⟩

/-- No table is loaded (R170). -/
theorem reset_dirEntry (k : TableKind) : State.reset.tables.dir.entry k = ⟨false, 0, 0⟩ := by
  cases k <;> rfl

/-- Settles O1: the records of slots, channels and lamps are read out of their vectors, and every other value is the one
that the reset state is written with. -/
theorem resetStateHoldsResetValues : Obligations.ResetStateHoldsResetValues := by
  have lamps : ∀ n : Fin 40, State.reset.lamps.recs[n].fault = .none ∧ State.reset.lamps.recs[n].held = .off ∧
      State.reset.lamps.recs[n].operating = .off ∧ State.reset.lamps.recs[n].shown = .off := fun n => by
    rw [reset_lamp n]
    exact ⟨rfl, rfl, rfl, rfl⟩
  unfold Obligations.ResetStateHoldsResetValues
  exact ⟨rfl, rfl, rfl, rfl,
    rfl, rfl, rfl, rfl, rfl, rfl,
    fun _ => rfl, rfl, rfl,
    rfl, rfl, rfl, rfl, rfl, rfl, reset_dirEntry, rfl,
    reset_slot, rfl, rfl,
    reset_channel,
    rfl, rfl, rfl, rfl, rfl, rfl, rfl, rfl, rfl,
    lamps, rfl, rfl, rfl,
    rfl,
    rfl, rfl, rfl, rfl, rfl, rfl, rfl, rfl, rfl, rfl,
    rfl,
    rfl, rfl, rfl, rfl, rfl, rfl, rfl, rfl,
    rfl⟩

end Sys2Proof.Machine
end

section
/-! The settling of O9 and O10. The two kinds of reset (R155), and what they leave of a store operation in flight (R63,
R66). -/

namespace Sys2Proof.Machine

/-! ## The store (R63, R66) -/

/-- A cut erase of a commit spoils the named places of its sector. -/
theorem spoilSector_place (t : Store) (spoiled : List Nat) (p : Fin 128) :
    (t.spoilSector spoiled).places[p] =
      if p.val / 32 = t.nextPlace / 32 ∧ p.val ∈ spoiled then .spoiled else t.places[p] := by
  have sector : sectorOf p.val = sectorOf t.nextPlace ↔ p.val / 32 = t.nextPlace / 32 := by
    unfold sectorOf
    omega
  simp only [Store.spoilSector, Fin.getElem_fin, Vector.getElem_ofFn, sector]

theorem spoilSector_sector0 (t : Store) (spoiled : List Nat) : (t.spoilSector spoiled).sector0 = t.sector0 := by
  simp only [Store.spoilSector]

/-- A place put at the next place of the ring. -/
theorem setIfInBounds_place (places : Vector Place 128) (next : Nat) (x : Place) (p : Fin 128) :
    (places.setIfInBounds next x)[p] = if p.val = next then x else places[p] := by
  rw [Fin.getElem_fin, Vector.getElem_setIfInBounds, Fin.getElem_fin]
  simp only [eq_comm]

/-- A cut operation leaves what the statements say, and the requests behind it go. -/
theorem cut_storeCut (s : State) (spoiled : List Nat) (written : Bool) :
    storeCut s spoiled written (s.store.cut s.speed.copyRecord spoiled written).idle := by
  unfold storeCut Store.cut Store.idle
  cases s.store.op with
  | none => exact ⟨rfl, rfl⟩
  | some op =>
    cases op with
    | commit erasing fixed value units =>
      cases erasing with
      | true =>
        dsimp only
        exact ⟨spoilSector_sector0 s.store spoiled, spoilSector_place s.store spoiled⟩
      | false => exact ⟨rfl, setIfInBounds_place s.store.places s.store.nextPlace .spoiled⟩
    | calibration phase purpose record => cases phase <;> exact ⟨rfl, rfl⟩

theorem beginReset_storeCut (s : State) (kind : ResetKind) (spoiled : List Nat) (written : Bool) :
    storeCut s spoiled written (s.beginReset kind spoiled written).store :=
  cut_storeCut s spoiled written

/-! ## What holds the part (R155, log 41) -/

/-- Behind a POWER-ON reset that is still held it is that one that holds, whatever reset comes. -/
theorem heldAfter_powerOn (m : ModeControl) : m.heldAfter .powerOn = .powerOn := by
  unfold ModeControl.heldAfter
  split <;> rfl

theorem kindAfter_powerOn (m : ModeControl) : m.kindAfter .powerOn = .powerOn := by
  unfold ModeControl.kindAfter
  split <;> rfl

/-! ## Exchange memory and the panel (R149, R171) -/

theorem beginReset_words (s : State) (kind : ResetKind) (spoiled : List Nat) (written : Bool) (a : Nat) :
    (s.beginReset kind spoiled written).readXm a = 0 := rfl

/-- The keys' inputs are pins: they stay, and every debouncer begins released. -/
theorem beginReset_debouncer (s : State) (kind : ResetKind) (spoiled : List Nat) (written : Bool) (k : Key) :
    (s.beginReset kind spoiled written).panel.debouncer k = .reset (s.panel.debouncer k).input := by
  cases k <;> rfl

/-! ## The two commands -/

/-- Settles O9: the reset of every unit, then the always-on domain begins empty. -/
theorem powerOnResetEmptiesAlwaysOnDomain : Obligations.PowerOnResetEmptiesAlwaysOnDomain := by
  intro spoiled written s
  have panel : ∀ k, ((s.beginReset .powerOn spoiled written).panel.debouncer k).input = (s.panel.debouncer k).input ∧
      ((s.beginReset .powerOn spoiled written).panel.debouncer k).level = false := fun k => by
    rw [beginReset_debouncer]
    exact ⟨rfl, rfl⟩
  exact ⟨_, rfl, rfl, congrArg some (heldAfter_powerOn s.mode), rfl, rfl, kindAfter_powerOn s.mode, rfl, rfl,
    rfl, rfl, rfl, rfl, rfl, rfl, rfl,
    beginReset_words s .powerOn spoiled written, rfl, rfl, rfl, rfl, rfl, rfl, rfl, rfl,
    rfl, rfl, rfl, beginReset_storeCut s .powerOn spoiled written, rfl, rfl, panel, rfl⟩

/-- Settles O10: the reset of every unit, through which the always-on domain keeps all but the alerts (R119). -/
theorem hardResetKeepsAlwaysOnDomain : Obligations.HardResetKeepsAlwaysOnDomain := by
  intro spoiled written s
  have held : s.mode.heldAfter .hard = if s.mode.held = some .powerOn then .powerOn else .hard := rfl
  have drivers : ∀ d, s.hours.hardReset.driver d =
      { s.hours.driver d with alerts := ⟨false, false, false⟩, live := none } := fun d => by cases d <;> rfl
  refine ⟨_, rfl, rfl, rfl, congrArg some held, rfl, rfl, rfl, rfl, rfl, fun d => ?_, rfl, rfl, rfl, rfl, rfl, rfl,
    beginReset_words s .hard spoiled written, rfl, rfl, rfl, rfl, rfl, rfl, rfl, rfl,
    rfl, rfl, rfl, beginReset_storeCut s .hard spoiled written, rfl⟩
  have record : (s.beginReset .hard spoiled written).hours.driver d =
      { s.hours.driver d with alerts := ⟨false, false, false⟩, live := none } := drivers d
  rw [record]
  exact ⟨rfl, rfl, rfl, rfl, rfl, rfl, rfl, rfl⟩

end Sys2Proof.Machine
end

section
/-! The settling of O11. The end of the cause of a reset: the scan of the odometer store (R64) and the reading of sector 0
(R65). -/

namespace Sys2Proof.Machine

/-! ## The newest record (R64) -/

/-- The numbered places that the scan goes through. -/
def Store.numbered (t : Store) : List (Nat × Place) := (List.range 128).zip t.places.toList

theorem mem_numbered (t : Store) (x : Nat × Place) :
    x ∈ t.numbered ↔ ∃ p : Fin 128, x = (p.val, t.places[p]) := by
  unfold Store.numbered
  rw [List.mem_iff_getElem]
  constructor
  · rintro ⟨i, inside, rfl⟩
    have lt : i < 128 := by
      rw [List.length_zip, List.length_range] at inside
      omega
    exact ⟨⟨i, lt⟩, by simp⟩
  · rintro ⟨p, rfl⟩
    exact ⟨p.val, by simp, by simp⟩

/-- What has been found is older than a sequence number, or nothing has been. -/
def foundBelow (found : Option (Nat × Nat × Nat)) (seq : Nat) : Prop :=
  ∀ q best v, found = some (q, best, v) → best < seq

/-- A place that is not valid leaves what has been found. -/
theorem newerOf_invalid {found : Option (Nat × Nat × Nat)} {x : Nat × Place}
    (invalid : ∀ seq value, x.2 ≠ .valid seq value) : newerOf found x = found := by
  obtain ⟨p, place⟩ := x
  cases place with
  | valid seq value => exact absurd rfl (invalid seq value)
  | blank | spoiled => cases found <;> rfl

/-- A record no newer than what has been found leaves it. -/
theorem newerOf_no_newer {q best v p seq value : Nat} (le : seq ≤ best) :
    newerOf (some (q, best, v)) (p, .valid seq value) = some (q, best, v) :=
  if_neg (Nat.not_lt.2 le)

/-- A newer record is what has been found. -/
theorem newerOf_newer {found : Option (Nat × Nat × Nat)} {p seq value : Nat} (below : foundBelow found seq) :
    newerOf found (p, .valid seq value) = some (p, seq, value) := by
  cases found with
  | none => rfl
  | some f =>
    obtain ⟨q, best, v⟩ := f
    exact if_pos (below q best v rfl)

/-- An older record leaves what has been found below a sequence number. -/
theorem newerOf_below {found : Option (Nat × Nat × Nat)} {x : Nat × Place} {seq : Nat} (below : foundBelow found seq)
    (older : ∀ seq' value', x.2 = .valid seq' value' → seq' < seq) : foundBelow (newerOf found x) seq := by
  obtain ⟨p, place⟩ := x
  cases place with
  | valid seq' value' =>
    have lt := older seq' value' rfl
    intro q best v eq
    cases found with
    | none =>
      cases eq
      exact lt
    | some f =>
      obtain ⟨q', best', v'⟩ := f
      unfold newerOf at eq
      dsimp only at eq
      split at eq <;> cases eq
      · exact lt
      · exact below _ _ _ rfl
  | blank | spoiled => rwa [newerOf_invalid (by simp)]

/-- The scan finds nothing where no place is valid. -/
theorem newest_none {t : Store} (invalid : ∀ (p : Fin 128) (seq value : Nat), t.places[p] ≠ .valid seq value) :
    t.newest = none := by
  have stays : ∀ (l : List (Nat × Place)), (∀ x ∈ l, ∀ seq value, x.2 ≠ .valid seq value) →
      l.foldl newerOf none = none := by
    intro l
    induction l with
    | nil => exact fun _ => rfl
    | cons x l ih =>
      intro h
      rw [List.foldl_cons, newerOf_invalid (h x List.mem_cons_self)]
      exact ih fun y hy => h y (List.mem_cons_of_mem x hy)
  refine stays t.numbered fun x hx => ?_
  obtain ⟨p, rfl⟩ := (mem_numbered t x).1 hx
  exact invalid p

/-- The scan finds the record that is newer than every other. -/
theorem newest_some {t : Store} {p : Fin 128} {seq value : Nat} (found : t.places[p] = .valid seq value)
    (newest : ∀ (q : Fin 128) (seq' value' : Nat), t.places[q] = .valid seq' value' → q ≠ p → seq' < seq) :
    t.newest = some (p.val, seq, value) := by
  have mem : (p.val, .valid seq value) ∈ t.numbered := (mem_numbered t _).2 ⟨p, by rw [found]⟩
  obtain ⟨before, after, parts, fresh⟩ := List.eq_append_cons_of_mem mem
  have older : ∀ x ∈ t.numbered, x ≠ (p.val, .valid seq value) →
      ∀ seq' value', x.2 = .valid seq' value' → seq' < seq := by
    intro x hx ne seq' value' valid
    obtain ⟨q, rfl⟩ := (mem_numbered t x).1 hx
    refine newest q seq' value' valid fun same => ne ?_
    rw [same, found]
  have first : ∀ (l : List (Nat × Place)) (f : Option (Nat × Nat × Nat)), foundBelow f seq →
      (∀ x ∈ l, ∀ seq' value', x.2 = .valid seq' value' → seq' < seq) → foundBelow (l.foldl newerOf f) seq := by
    intro l
    induction l with
    | nil => exact fun _ below _ => below
    | cons x l ih =>
      exact fun f below h => ih _ (newerOf_below below (h x List.mem_cons_self)) fun y hy => h y (List.mem_cons_of_mem x hy)
  have last : ∀ (l : List (Nat × Place)),
      (∀ x ∈ l, ∀ seq' value', x.2 = .valid seq' value' → seq' ≤ seq) →
      l.foldl newerOf (some (p.val, seq, value)) = some (p.val, seq, value) := by
    intro l
    induction l with
    | nil => exact fun _ => rfl
    | cons x l ih =>
      intro h
      have stays : newerOf (some (p.val, seq, value)) x = some (p.val, seq, value) := by
        obtain ⟨q, place⟩ := x
        cases place with
        | valid seq' value' => exact newerOf_no_newer (h _ List.mem_cons_self seq' value' rfl)
        | blank | spoiled => rfl
      rw [List.foldl_cons, stays]
      exact ih fun y hy => h y (List.mem_cons_of_mem x hy)
  have below : foundBelow (before.foldl newerOf none) seq :=
    first before none (fun _ _ _ eq => nomatch eq) fun x hx =>
      older x (parts ▸ List.mem_append_left _ hx) fun same => fresh (same ▸ hx)
  change t.numbered.foldl newerOf none = _
  rw [parts, List.foldl_append, List.foldl_cons, newerOf_newer below]
  refine last after fun x hx seq' value' valid => ?_
  by_cases same : x = (p.val, .valid seq value)
  · rw [same] at valid
    cases valid
    exact Nat.le_refl seq
  · exact Nat.le_of_lt (older x (parts ▸ List.mem_append_right _ (List.mem_cons_of_mem _ hx)) same seq' value' valid)

/-! ## The next place (R64) -/

theorem writable_iff (t : Store) (p : Nat) : t.writable p = true ↔ t.takes p := by
  unfold Store.writable Store.takes
  cases t.places[p]? with
  | none => simp
  | some place => cases place <;> simp

/-- The search goes round the ring and ends at the first place of a sector at the latest. -/
theorem nextWritable_nextAfter (t : Store) {p : Nat} (inside : p < 128) : t.nextAfter p (t.nextWritable p) := by
  unfold Store.nextWritable
  rw [List.find?_map]
  cases search : (List.range 128).find? (t.writable ∘ fun i => (p + 1 + i) % 128) with
  | none =>
    have none := List.find?_range_eq_none.1 search (127 - p) (by omega)
    have origin : t.writable ((p + 1 + (127 - p)) % 128) = true := by
      rw [writable_iff, show (p + 1 + (127 - p)) % 128 = 0 by omega]
      exact .inl rfl
    rw [Function.comp_apply, origin] at none
    cases none
  | some i =>
    obtain ⟨takes, lt, first⟩ := List.find?_range_eq_some.1 search
    rw [List.mem_range] at lt
    rw [Function.comp_apply, writable_iff] at takes
    refine ⟨i + 1, by omega, by omega, ?_, takes, fun j one lt' takes' => ?_⟩
    · rw [Option.map_some, Option.getD_some, show p + 1 + i = p + (i + 1) by omega]
    · have skipped := first (j - 1) (by omega)
      rw [Function.comp_apply, show p + 1 + (j - 1) = p + j by omega, (writable_iff t _).2 takes'] at skipped
      cases skipped

/-! ## What the work of INITIAL leaves -/

theorem scanned_of_newest {t : Store} {p seq value : Nat} (found : t.newest = some (p, seq, value)) :
    t.scanned = { t with
      failed := decide (max32 ≤ seq), nextPlace := t.nextWritable p, nextSeq := min (seq + 1) max32, base := value,
      failures := 0 } := by
  unfold Store.scanned
  rw [found]

theorem scanned_of_none {t : Store} (found : t.newest = none) :
    t.scanned = { t with failed := false, nextPlace := 0, nextSeq := 1, base := 0, failures := 0 } := by
  unfold Store.scanned
  rw [found]

/-- The scan writes nothing (R64). -/
theorem scanned_frame (t : Store) :
    t.scanned.places = t.places ∧ t.scanned.sector0 = t.sector0 ∧ t.scanned.failures = 0 := by
  cases found : t.newest with
  | none => rw [scanned_of_none found]; exact ⟨rfl, rfl, rfl⟩
  | some r => rw [scanned_of_newest found]; exact ⟨rfl, rfl, rfl⟩

/-- After the scan the working value is the newest record's behind a POWER-ON reset and stays behind a HARD reset, and
ODOMETER LOST asks for a POWER-ON reset over no record (R64, R136). -/
theorem speedScanned_eq (v : Speed) (t : Store) (kind : ResetKind) : v.scanned t kind = { v with
    odometer := if kind = .powerOn then (t.newest.map fun r => r.2.2).getD 0 else v.odometer
    odometerLost := decide (kind = .powerOn) && t.newest.isNone } := by
  unfold Speed.scanned
  cases kind <;> cases t.newest <;> rfl

/-- The reading of sector 0 touches K, the lock flag and the count alone (R65). -/
theorem calibrated_frame (v : Speed) (r : Option CalRecord) :
    v.calibrated r =
      { v with k := (v.calibrated r).k, lock := (v.calibrated r).lock, count := (v.calibrated r).count } := by
  cases r <;> rfl

theorem calibration_valid {t : Store} {r : CalRecord} (holds : t.sector0 = some r) (low : 2000 ≤ r.k)
    (high : r.k ≤ 25000) : t.calibration = some r := by
  unfold Store.calibration
  rw [holds, Option.filter_some, if_pos (decide_eq_true ⟨low, high⟩)]

theorem calibration_invalid {t : Store}
    (holds : t.sector0 = none ∨ ∃ r, t.sector0 = some r ∧ (r.k < 2000 ∨ 25000 < r.k)) : t.calibration = none := by
  unfold Store.calibration
  obtain holds | ⟨r, holds, out⟩ := holds
  · rw [holds, Option.filter_none]
  · rw [holds, Option.filter_some, if_neg]
    rw [decide_eq_true_eq]
    omega

/-- The state in which RESET_CAUSE_END leaves a held part. -/
def State.causeEnded (s : State) : State :=
  s.volatileReset.initialWork.withMode { s.volatileReset.mode with held := none }

theorem exec_resetCauseEnd {s : State} (mode : s.mode.mode = .initial) (held : s.mode.held.isSome) :
    exec .resetCauseEnd s = .next s.causeEnded :=
  congrArg _ (if_pos ⟨mode, held⟩)

theorem exec_resetCauseEnd_not_held {s : State} (not : s.mode.mode ≠ .initial ∨ s.mode.held = none) :
    exec .resetCauseEnd s = .next s := by
  refine congrArg _ (if_neg ?_)
  rintro ⟨mode, held⟩
  obtain out | free := not
  · exact out mode
  · rw [free] at held
    cases held

theorem causeEnded_store (s : State) : s.causeEnded.store = s.store.idle.scanned := rfl

theorem causeEnded_speed (s : State) : s.causeEnded.speed =
    (s.speed.hardReset.scanned s.store.idle s.mode.kind).calibrated s.store.idle.calibration := rfl

/-- The working value and ODOMETER LOST after the work of INITIAL. -/
theorem causeEnded_odometer (s : State) :
    s.causeEnded.speed.odometer =
        (if s.mode.kind = .powerOn then (s.store.idle.newest.map fun r => r.2.2).getD 0 else s.speed.odometer) ∧
      s.causeEnded.speed.odometerLost = (decide (s.mode.kind = .powerOn) && s.store.idle.newest.isNone) ∧
      s.causeEnded.speed.tripA = s.speed.tripA ∧ s.causeEnded.speed.tripB = s.speed.tripB := by
  rw [causeEnded_speed, calibrated_frame, speedScanned_eq]
  exact ⟨rfl, rfl, rfl, rfl⟩

/-- Settles O11: the scan finds the newest record or none, the search goes on behind it, and sector 0 is read. -/
theorem resetCauseEndReadsStoreAndCalibration : Obligations.ResetCauseEndReadsStoreAndCalibration := by
  refine ⟨fun s => exec_resetCauseEnd_not_held, fun s mode held => ?_⟩
  obtain ⟨odometer, lost, tripA, tripB⟩ := causeEnded_odometer s
  obtain ⟨places, sector0, failures⟩ := scanned_frame s.store.idle
  refine ⟨s.causeEnded, exec_resetCauseEnd mode held, rfl, rfl, rfl, rfl, places, sector0, failures,
    fun p seq value valid newest => ?_, fun invalid => ?_, fun r holds low high => ?_, fun holds => ?_, tripA, tripB, rfl,
    rfl, fun _ => rfl, rfl⟩
  · have found : s.store.idle.newest = some (p.val, seq, value) := newest_some (t := s.store.idle) valid newest
    rw [found] at odometer lost
    rw [causeEnded_store, scanned_of_newest found]
    exact ⟨rfl, rfl, nextWritable_nextAfter s.store.idle p.isLt, decide_eq_true_iff, odometer,
      lost.trans (Bool.and_false _)⟩
  · have found : s.store.idle.newest = none := newest_none (t := s.store.idle) invalid
    rw [found] at odometer lost
    rw [causeEnded_store, scanned_of_none found]
    exact ⟨rfl, rfl, rfl, rfl, odometer, lost.trans (Bool.and_true _)⟩
  · have record : s.store.idle.calibration = some r := calibration_valid (t := s.store.idle) holds low high
    rw [causeEnded_speed, record]
    exact ⟨rfl, rfl, rfl⟩
  · have record : s.store.idle.calibration = none := calibration_invalid (t := s.store.idle) holds
    rw [causeEnded_speed, record]
    exact ⟨rfl, rfl, rfl⟩

end Sys2Proof.Machine
end

section
/-! SUPPORT. The commands of mode control to the gauge unit, channel by channel (R45), and the arming and disarming of
the watchers (R49, R50). -/

namespace Sys2Proof.Machine

/-! ## Rounds over the channels -/

/-- What the turns of the other channels leave alone of channel `c`: its record, its watchers' messages, and what its
own turn reads. -/
structure BesideChannel (c : Fin 8) (s t : State) : Prop extends ChannelKept c s t where
  tables : t.tables = s.tables
  intake : t.intake = s.intake
  speed : t.speed = s.speed

theorem BesideChannel.refl (c : Fin 8) (s : State) : BesideChannel c s s := ⟨.refl c s, rfl, rfl, rfl⟩

theorem BesideChannel.trans {c : Fin 8} {a b d : State} (h : BesideChannel c a b) (k : BesideChannel c b d) :
    BesideChannel c a d :=
  ⟨h.toChannelKept.trans k.toChannelKept, k.tables.trans h.tables, k.intake.trans h.intake, k.speed.trans h.speed⟩

/-- What a whole round of the gauge unit leaves alone. -/
structure GaugeRound (s t : State) : Prop where
  raises : Raises [.messageChange] s t
  single : s.stack.single → t.stack.single
  spares : s.stack.single → ∀ id, id.origin ≠ .gauge → Stack.Spares s.stack t.stack id

theorem GaugeRound.refl (s : State) : GaugeRound s s := ⟨.refl _ s, id, fun _ _ _ => .refl _ _⟩

theorem GaugeRound.trans {a b d : State} (h : GaugeRound a b) (k : GaugeRound b d) : GaugeRound a d :=
  ⟨h.raises.trans k.raises, fun x => k.single (h.single x),
    fun x id hid => (h.spares x id hid).trans (k.spares (h.single x) id hid)⟩

section
variable {f : State → Fin 8 → State} (turn : ∀ s c, TurnOf c s (f s c))
include turn

/-- A round whose turns are each a channel's own. -/
theorem forChannels_round (s : State) : GaugeRound s (s.forChannels f) :=
  foldl_relates GaugeRound.refl GaugeRound.trans allChannels
    (fun s c _ => ⟨(turn s c).raises, (turn s c).single, fun h id hid =>
      (turn s c).spares h id (not_ownMessage_of_origin hid)⟩) s

/-- In a round the turn of a channel stands between turns of other channels. -/
theorem forChannels_reach (speed : ∀ s c, (f s c).speed = s.speed) (c : Fin 8) (s : State) :
    ∃ u, BesideChannel c s u ∧ BesideChannel c (f u c) (s.forChannels f) :=
  foldl_reaches (BesideChannel.refl c) BesideChannel.trans
    (fun s d ne => ⟨(turn s d).kept ne.symm, (turn s d).tables, (turn s d).intake, speed s d⟩) nodup_allChannels
    (mem_allChannels c) s

end

/-! ## What a channel's source shows -/

theorem sourceCondition_congr {s t : State} (src : Source) (hi : t.intake = s.intake) (hv : t.speed = s.speed) :
    t.sourceCondition src = s.sourceCondition src := by
  cases src with
  | slot i => simp only [State.sourceCondition, State.slotRec, hi]
  | speed => simp only [State.sourceCondition, hv]

theorem calledFor_congr {s t : State} (src : Source) (hi : t.intake = s.intake) (hv : t.speed = s.speed) :
    t.calledFor src = s.calledFor src := by
  unfold State.calledFor
  rw [sourceCondition_congr src hi hv]

/-- An enabled channel has an entry. -/
theorem gaugeEntry_of_enabled {s : State} {c : Fin 8} {e : GaugeEntry} (he : s.enabledEntry c = some e) :
    s.gaugeEntry c = some e := by
  unfold State.enabledEntry at he
  exact (Option.filter_eq_some_iff.1 he).1

theorem gaugeEntry_congr {s t : State} (h : t.tables = s.tables) (c : Fin 8) : t.gaugeEntry c = s.gaugeEntry c := by
  unfold State.gaugeEntry
  rw [h]

/-! ## Start and park (R45) -/

theorem startChannel_of_disabled {s : State} {c : Fin 8} (h : s.enabledEntry c = none) (sweep : Bool) :
    State.startChannel sweep s c = s := by
  unfold State.startChannel
  rw [h]

theorem parkChannel_of_disabled {s : State} {c : Fin 8} (h : s.enabledEntry c = none) : s.parkChannel c = s := by
  unfold State.parkChannel
  rw [h]

/-- A start either leaves a channel, gives its homing another end, or brings it into a state. -/
theorem startChannel_cases (sweep : Bool) (s : State) (c : Fin 8) :
    State.startChannel sweep s c = s ∨
    State.startChannel sweep s c = s.setChannel c { s.gauges[c] with after := .source } ∨
    ∃ ch st, State.startChannel sweep s c = s.enterWith c ch st ∧ ch.p = s.gauges[c].p := by
  unfold State.startChannel
  cases s.enabledEntry c with
  | none => exact .inl rfl
  | some e =>
    dsimp only
    split
    · exact .inr (.inr ⟨_, _, rfl, rfl⟩)
    · split
      · exact .inl rfl
      · exact .inr (.inl rfl)
    · split
      · exact .inl rfl
      · exact .inr (.inr ⟨_, _, rfl, rfl⟩)
    · split
      · exact .inr (.inr ⟨_, _, rfl, rfl⟩)
      · exact .inr (.inr ⟨_, _, rfl, rfl⟩)
    all_goals exact .inl rfl

theorem turnOf_startChannel (sweep : Bool) (s : State) (c : Fin 8) : TurnOf c s (State.startChannel sweep s c) := by
  obtain same | same | ⟨ch, st, same, _⟩ := startChannel_cases sweep s c <;> rw [same]
  · exact .refl c s
  · exact turnOf_setChannel s c _
  · exact turnOf_enterWith s c ch st

/-- The needle stays where it is at a start. -/
theorem startChannel_position (sweep : Bool) (s : State) (c : Fin 8) :
    (State.startChannel sweep s c).gauges[c].p = s.gauges[c].p := by
  obtain same | same | ⟨ch, st, same, position⟩ := startChannel_cases sweep s c <;> rw [same]
  · rw [setChannel_channel]
  · rw [enterWith_channel]
    exact position

/-- A park either leaves a channel, gives its homing another end, or brings it into a state. -/
theorem parkChannel_cases (s : State) (c : Fin 8) :
    s.parkChannel c = s ∨
    s.parkChannel c = s.setChannel c { s.gauges[c] with after := .park } ∨
    ∃ ch st, s.parkChannel c = s.enterWith c ch st ∧ ch.p = s.gauges[c].p ∧ ch.alarm = s.gauges[c].alarm := by
  unfold State.parkChannel
  cases s.enabledEntry c with
  | none => exact .inl rfl
  | some e =>
    dsimp only
    split
    case h_1 => exact .inr (.inr ⟨_, _, rfl, rfl, rfl⟩)
    case h_2 => exact .inr (.inl rfl)
    case h_7 | h_8 | h_9 => exact .inl rfl
    all_goals exact .inr (.inr ⟨_, _, rfl, rfl, rfl⟩)

theorem turnOf_parkChannel (s : State) (c : Fin 8) : TurnOf c s (s.parkChannel c) := by
  obtain same | same | ⟨ch, st, same, _⟩ := parkChannel_cases s c <;> rw [same]
  · exact .refl c s
  · exact turnOf_setChannel s c _
  · exact turnOf_enterWith s c ch st

theorem parkChannel_position (s : State) (c : Fin 8) : (s.parkChannel c).gauges[c].p = s.gauges[c].p := by
  obtain same | same | ⟨ch, st, same, position, _⟩ := parkChannel_cases s c <;> rw [same]
  · rw [setChannel_channel]
  · rw [enterWith_channel]
    exact position

/-- A park leaves a channel's watchers. -/
theorem parkChannel_alarm (s : State) (c : Fin 8) (w : Watcher) :
    (s.parkChannel c).gauges[c].alarm w = s.gauges[c].alarm w := by
  obtain same | same | ⟨ch, st, same, _, watchers⟩ := parkChannel_cases s c <;> rw [same]
  · rw [setChannel_channel]
    rfl
  · rw [enterWith_channel]
    exact congrFun watchers w

/-- The start of an enabled channel, by its state (R45). -/
theorem startChannel_started {s : State} {c : Fin 8} {e : GaugeEntry} (he : s.enabledEntry c = some e) (sweep : Bool) :
    started s (State.startChannel sweep s c) sweep c e := by
  unfold started State.startChannel
  rw [he]
  dsimp only
  cases state : s.gauges[c].state with
  | unhomed =>
    dsimp only
    rw [State.enterHoming, enterWith_channel]
    exact ⟨rfl, rfl, by simp [Channel.enter]⟩
  | homing =>
    rintro rfl
    dsimp only
    rw [if_neg (by decide), setChannel_channel]
    exact ⟨rfl, rfl⟩
  | parking =>
    rintro rfl
    dsimp only
    rw [if_neg (by decide), State.enterState, enterWith_channel]
    rfl
  | parked =>
    dsimp only
    simp only [Bool.and_eq_true]
    split
    · rw [State.enterSweep, enterWith_channel]
      exact ⟨rfl, rfl⟩
    · rw [State.enterState, enterWith_channel]
      rfl
  | idle | sweeping | tracking | holding | failed => trivial

/-- A channel's record after a park command, by its state (R45). -/
def parkCommanded (ch ch' : Channel) (e : GaugeEntry) : Prop :=
  match ch.state with
  | .unhomed => ch'.state = .homing ∧ ch'.after = .park ∧ ch'.homing = e.travelMax + 60
  | .homing => ch'.state = .homing ∧ ch'.after = .park ∧ ch'.homing = ch.homing
  | .sweeping | .tracking | .holding | .failed => ch'.state = .parking
  | .idle | .parking | .parked => ch'.state = ch.state

theorem parkChannel_parks {s : State} {c : Fin 8} {e : GaugeEntry} (he : s.enabledEntry c = some e) :
    parkCommanded s.gauges[c] (s.parkChannel c).gauges[c] e := by
  unfold parkCommanded State.parkChannel
  rw [he]
  dsimp only
  cases state : s.gauges[c].state with
  | unhomed =>
    dsimp only
    rw [State.enterHoming, enterWith_channel]
    exact ⟨rfl, rfl, rfl⟩
  | homing =>
    dsimp only
    rw [setChannel_channel]
    exact ⟨rfl, rfl, rfl⟩
  | sweeping | tracking | holding | failed =>
    dsimp only
    rw [State.enterState, enterWith_channel]
    rfl
  | idle | parking | parked => exact state

/-! ## Disarming and arming (R49) -/

/-- A channel whose watchers are CLEAR and disarmed. -/
def Channel.disarmed (ch : Channel) : Channel := { ch with alarm0 := false, alarm1 := false, armed := false }

theorem disarm_of_absent {s : State} {c : Fin 8} (absent : s.gaugeEntry c = none) :
    s.disarm c = s.setChannel c s.gauges[c].disarmed := by
  unfold State.disarm
  rw [absent]
  rfl

/-- The watchers become CLEAR with their messages, and then are disarmed. -/
theorem disarm_of_entry {s : State} {c : Fin 8} {e : GaugeEntry} (he : s.gaugeEntry c = some e) :
    s.disarm c =
      (s.setAlarms c e fun _ => false).setChannel c (s.setAlarms c e fun _ => false).gauges[c].disarmed := by
  unfold State.disarm
  rw [he]
  rfl

theorem turnOf_disarm (s : State) (c : Fin 8) : TurnOf c s (s.disarm c) := by
  cases he : s.gaugeEntry c with
  | none =>
    rw [disarm_of_absent he]
    exact turnOf_setChannel s c _
  | some e =>
    rw [disarm_of_entry he]
    exact (turnOf_setAlarms s c e _).trans (turnOf_setChannel _ c _)

theorem disarm_channel (s : State) (c : Fin 8) : (s.disarm c).gauges[c] = s.gauges[c].disarmed := by
  cases he : s.gaugeEntry c with
  | none => rw [disarm_of_absent he, setChannel_channel]
  | some e =>
    rw [disarm_of_entry he, setChannel_channel, setAlarms_channel]
    rfl

/-- The message of a watcher that was in ALARM ends with it (R50). -/
theorem disarm_dropped {s : State} (h : s.stack.single) {c : Fin 8} {e : GaugeEntry} (he : s.gaugeEntry c = some e)
    {w : Watcher} {code : Nat} {sev : Severity} (message : (e.watcher w).message = some (code, sev)) (low : code < 240)
    (alarm : s.gauges[c].alarm w = true) : (s.disarm c).stack.dropped ⟨code, .gauge, watcherNumber c w⟩ := by
  rw [disarm_of_entry he]
  exact (setAlarms_messages s c e (fun _ => false) h w code sev message low).2 alarm (setAlarms_alarm s c e _ w)

theorem arm_of_disabled {s : State} {c : Fin 8} (h : s.enabledEntry c = none) : s.arm c = s := by
  unfold State.arm
  rw [h]

/-- The state in which the armed watchers of a channel meet their source. -/
def State.armedFresh (s : State) (c : Fin 8) : State :=
  (s.disarm c).setChannel c { (s.disarm c).gauges[c] with armed := true }

theorem turnOf_armedFresh (s : State) (c : Fin 8) : TurnOf c s (s.armedFresh c) :=
  (turnOf_disarm s c).trans (turnOf_setChannel _ c _)

theorem armedFresh_channel (s : State) (c : Fin 8) :
    (s.armedFresh c).gauges[c] = { s.gauges[c] with alarm0 := false, alarm1 := false, armed := true } := by
  rw [State.armedFresh, setChannel_channel, disarm_channel]
  rfl

theorem armedFresh_speed (s : State) (c : Fin 8) : (s.armedFresh c).speed = s.speed :=
  (State.setChannel_speed _ _ _).trans (State.disarm_speed s c)

theorem armedFresh_alarm (s : State) (c : Fin 8) (w : Watcher) : (s.armedFresh c).gauges[c].alarm w = false := by
  rw [armedFresh_channel]
  cases w <;> rfl

/-- Arming gives both watchers a state: judged on a GOOD source's input, otherwise their fail state (R49). -/
theorem arm_of_enabled {s : State} {c : Fin 8} {e : GaugeEntry} (he : s.enabledEntry c = some e) : ∃ alarm,
    s.arm c = (s.armedFresh c).setAlarms c e alarm ∧
    ∀ w, (s.sourceCondition e.source = .good →
        watcherJudges (e.watcher w) (s.sourceSigned e.source) false (s.sourceInput e.source) (alarm w)) ∧
      (s.sourceCondition e.source ≠ .good → alarm w = (e.watcher w).alarmOnFail) := by
  have armed : (s.armedFresh c).gauges[c].armed = true := by rw [armedFresh_channel]
  have signed := sourceSigned_congr e.source (turnOf_armedFresh s c).intake
  have arms : s.arm c = if s.sourceCondition e.source = .good then
      (s.armedFresh c).evaluateWatchers c e (s.sourceInput e.source) else (s.armedFresh c).failWatchers c e := by
    unfold State.arm
    rw [he]
    rfl
  by_cases good : s.sourceCondition e.source = .good
  · rw [if_pos good, evaluateWatchers_eq _ c e _ armed, signed] at arms
    refine ⟨_, arms, fun w => ⟨fun _ => ?_, fun bad => absurd good bad⟩⟩
    rw [armedFresh_alarm]
    exact judge_judges _ _ _ _
  · rw [if_neg good, failWatchers_eq _ c e armed] at arms
    refine ⟨_, arms, fun w => ⟨fun now => absurd now good, fun _ => ?_⟩⟩
    rw [armedFresh_alarm, Bool.false_or]

theorem turnOf_arm (s : State) (c : Fin 8) : TurnOf c s (s.arm c) := by
  cases he : s.enabledEntry c with
  | none =>
    rw [arm_of_disabled he]
    exact .refl c s
  | some e =>
    obtain ⟨alarm, arms, _⟩ := arm_of_enabled he
    rw [arms]
    exact (turnOf_armedFresh s c).trans (turnOf_setAlarms _ c e alarm)

/-- Arming changes the watchers of its channel alone. -/
theorem arm_channel {s : State} {c : Fin 8} {e : GaugeEntry} (he : s.enabledEntry c = some e) :
    ∃ a b, (s.arm c).gauges[c] = { s.gauges[c] with alarm0 := a, alarm1 := b, armed := true } := by
  obtain ⟨alarm, arms, _⟩ := arm_of_enabled he
  refine ⟨alarm .zero, alarm .one, ?_⟩
  rw [arms, setAlarms_channel, armedFresh_channel]

/-- What the armed watchers make of their source (R49). -/
theorem arm_judges {s : State} {c : Fin 8} {e : GaugeEntry} (he : s.enabledEntry c = some e) (w : Watcher) :
    (s.sourceCondition e.source = .good → watcherJudges (e.watcher w) (s.sourceSigned e.source) false
        (s.sourceInput e.source) ((s.arm c).gauges[c].alarm w)) ∧
      (s.sourceCondition e.source ≠ .good → (s.arm c).gauges[c].alarm w = (e.watcher w).alarmOnFail) := by
  obtain ⟨alarm, arms, meets⟩ := arm_of_enabled he
  rw [arms, setAlarms_alarm]
  exact meets w

/-- A watcher that is armed into ALARM has its message kept (R50). -/
theorem arm_keeps {s : State} (h : s.stack.single) {c : Fin 8} {e : GaugeEntry} (he : s.enabledEntry c = some e)
    {w : Watcher} {code : Nat} {sev : Severity} (message : (e.watcher w).message = some (code, sev)) (low : code < 240)
    (on : (s.arm c).gauges[c].alarm w = true) : (s.arm c).stack.keeps ⟨code, .gauge, watcherNumber c w⟩ sev := by
  obtain ⟨alarm, arms, _⟩ := arm_of_enabled he
  rw [arms] at on ⊢
  exact (setAlarms_messages (s.armedFresh c) c e alarm ((turnOf_armedFresh s c).single h) w code sev message
    low).1 (armedFresh_alarm s c w) on

end Sys2Proof.Machine
end

section
/-! SUPPORT. The entry into STARTING: the start command with the arming of the watchers, then the lamps (R45, R49, R86,
R90, R159). -/

namespace Sys2Proof.Machine

/-! ## Rounds over the lamps that end messages -/

/-- The messages of other units than the lamp unit stay, and no cause but MESSAGE_CHANGE is set. -/
structure LampRound (s t : State) : Prop where
  raises : Raises [.messageChange] s t
  single : s.stack.single → t.stack.single
  spares : s.stack.single → ∀ id, id.origin ≠ .lamp → Stack.Spares s.stack t.stack id

theorem LampRound.refl (s : State) : LampRound s s := ⟨.refl _ s, id, fun _ _ _ => .refl _ _⟩

theorem LampRound.trans {a b d : State} (h : LampRound a b) (k : LampRound b d) : LampRound a d :=
  ⟨h.raises.trans k.raises, fun x => k.single (h.single x),
    fun x id hid => (h.spares x id hid).trans (k.spares (h.single x) id hid)⟩

theorem lampRound_setLamp (s : State) (n : Fin 40) (r : LampRec) : LampRound s (s.setLamp n r) :=
  ⟨.of_link rfl, id, fun _ _ _ => .refl _ _⟩

theorem lampRound_clear (s : State) {id : Identity} (own : id.origin = .lamp) : LampRound s (s.clear id) :=
  ⟨raises_takeStack s _ (by simp), fun h => (State.clear_spec h id).1,
    fun h other ho => (State.clear_spec h id).2.2 other fun e => ho (e ▸ own)⟩

/-- A round whose turns end messages of the lamp unit. -/
theorem allLamps_round {f : State → Fin 40 → State} (turn : ∀ s n, LampRound s (f s n)) (s : State) :
    LampRound s (allLamps.foldl f s) :=
  foldl_relates LampRound.refl LampRound.trans allLamps (fun s n _ => turn s n) s

theorem lampRound_dropRise (s : State) (n : Fin 40) : LampRound s (s.dropRise n) := by
  obtain ⟨_, same⟩ | ⟨_, _, same⟩ | ⟨_, code, _, _, same⟩ := dropRise_cases s n <;> rw [same]
  · exact .refl s
  · exact lampRound_setLamp s n _
  · exact (lampRound_setLamp s n _).trans (lampRound_clear _ rfl)

/-! ## A lamp at the entry into STARTING (R86, R90) -/

/-- A restarted lamp is in no fault state that it was not in, so no cause is set. -/
theorem restartLamp_eq (s : State) (n : Fin 40) : s.restartLamp n =
    (s.setLamp n (s.lamp n).restarted).lampFaultMessage n (s.legal n && (s.lamp n).fault.reported)
      (s.legal n && (s.lamp n).restarted.fault.reported) := by
  refine if_neg ?_
  unfold LampRec.restarted
  split <;> simp

/-- Only LATCHED_OFF ends, and with it LAMP FAULT (R86). -/
theorem restartLamp_cases (s : State) (n : Fin 40) :
    s.restartLamp n = s.setLamp n (s.lamp n).restarted ∨
      s.restartLamp n = (s.setLamp n (s.lamp n).restarted).clear (msgLampFault n) := by
  rw [restartLamp_eq]
  unfold State.lampFaultMessage LampRec.restarted
  by_cases latched : (s.lamp n).fault = .latchedOff
  · rw [if_pos latched, latched]
    cases s.legal n
    · exact .inl rfl
    · exact .inr rfl
  · rw [if_neg latched]
    exact .inl (by cases s.legal n <;> cases (s.lamp n).fault.reported <;> rfl)

theorem lampTurn_restartLamp (s : State) (n : Fin 40) : LampTurn n s (s.restartLamp n) := by
  rw [restartLamp_eq]
  exact (lampTurn_setLamp s n _).trans (lampTurn_lampFaultMessage _ n _ _)

theorem lampRound_restartLamp (s : State) (n : Fin 40) : LampRound s (s.restartLamp n) := by
  obtain same | same := restartLamp_cases s n <;> rw [same]
  · exact lampRound_setLamp s n _
  · exact (lampRound_setLamp s n _).trans (lampRound_clear _ rfl)

theorem restartLamp_lamp (s : State) (n : Fin 40) : (s.restartLamp n).lamps.recs[n] = lampRestarted s.lamps.recs[n] :=
  setLampFault_lamp s n _

theorem restartLamp_dropped {s : State} (h : s.stack.single) {n : Fin 40} (latched : s.lamps.recs[n].fault = .latchedOff)
    (legal : s.legal n = true) : (s.restartLamp n).stack.dropped (msgLampFault n) := by
  have ended : (s.lamp n).restarted.fault = .none :=
    congrArg LampRec.fault (if_pos (c := (s.lamp n).fault = .latchedOff) latched)
  refine (setLampFault_follows h n (s.lamp n).restarted).falls ?_ ?_
  · rw [State.callsFor, legal, show (s.lamp n).fault = .latchedOff from latched]
    rfl
  · rw [State.callsFor, ended, legal]
    rfl

/-- The lamps after the entry: each restarted, with its message (R86). -/
theorem restartLamps_lamp (s : State) (n : Fin 40) :
    (allLamps.foldl State.restartLamp s).lamps.recs[n] = lampRestarted s.lamps.recs[n] ∧
      (s.stack.single → s.lamps.recs[n].fault = .latchedOff → s.legal n = true →
        (allLamps.foldl State.restartLamp s).stack.dropped (msgLampFault n)) := by
  obtain ⟨u, before, after⟩ := allLamps_reach lampTurn_restartLamp n s
  refine ⟨?_, fun single latched legal => ?_⟩
  · rw [after.own, restartLamp_lamp, before.own]
  · have now : u.legal n = true := by
      unfold State.legal at legal ⊢
      rwa [before.tables]
    have there := before.single single
    exact (after.spares ((lampTurn_restartLamp u n).single there) 241).dropped
      (restartLamp_dropped there (before.own ▸ latched) now)

/-! ## The channels at the entry into STARTING -/

/-- `started` speaks of the channel's state, homing and sweep. -/
theorem started_congr {s s' m m' : State} {sweep : Bool} {c : Fin 8} {e : GaugeEntry}
    (before : s'.gauges[c] = s.gauges[c]) (called : s'.calledFor e.source = s.calledFor e.source)
    (state : m'.gauges[c].state = m.gauges[c].state) (homing : m'.gauges[c].homing = m.gauges[c].homing)
    (after : m'.gauges[c].after = m.gauges[c].after) (phase : m'.gauges[c].phase = m.gauges[c].phase)
    (h : started s' m' sweep c e) : started s m sweep c e := by
  unfold started at h ⊢
  rwa [before, called, state, homing, after, phase] at h

/-- The start command and the arming of the watchers. -/
def State.commandStart (s : State) (sweep : Bool) : State :=
  (s.forChannels (State.startChannel sweep)).forChannels State.arm

theorem commandStart_round (s : State) (sweep : Bool) : GaugeRound s (s.commandStart sweep) :=
  (forChannels_round (turnOf_startChannel sweep) s).trans (forChannels_round turnOf_arm _)

/-- What the two rounds leave of an enabled channel. -/
theorem commandStart_enabled {s : State} {c : Fin 8} {e : GaugeEntry} (he : s.enabledEntry c = some e) (sweep : Bool) :
    started s (s.commandStart sweep) sweep c e ∧ (s.commandStart sweep).gauges[c].p = s.gauges[c].p ∧
      watchersArmed s (s.commandStart sweep) c e := by
  obtain ⟨u, toU, fromU⟩ :=
    forChannels_reach (turnOf_startChannel sweep) (fun s c => State.startChannel_speed sweep s c) c s
  obtain ⟨v, toV, fromV⟩ := forChannels_reach turnOf_arm State.arm_speed c (s.forChannels (State.startChannel sweep))
  have heU : u.enabledEntry c = some e := (enabledEntry_congr toU.tables c).trans he
  have start := turnOf_startChannel sweep u c
  have mid : BesideChannel c (State.startChannel sweep u c) v := fromU.trans toV
  have tablesV : v.tables = s.tables := mid.tables.trans (start.tables.trans toU.tables)
  have intakeV : v.intake = s.intake := mid.intake.trans (start.intake.trans toU.intake)
  have speedV : v.speed = s.speed := mid.speed.trans ((State.startChannel_speed sweep u c).trans toU.speed)
  have heV : v.enabledEntry c = some e := (enabledEntry_congr tablesV c).trans he
  obtain ⟨a, b, armed⟩ := arm_channel heV
  have channel : (s.commandStart sweep).gauges[c] =
      { (State.startChannel sweep u c).gauges[c] with alarm0 := a, alarm1 := b, armed := true } :=
    fromV.channel.trans (armed.trans (by rw [mid.channel]))
  refine ⟨started_congr toU.channel (calledFor_congr e.source toU.intake toU.speed) (by rw [channel])
    (by rw [channel]) (by rw [channel]) (by rw [channel]) (startChannel_started heU sweep), ?_, ?_⟩
  · rw [channel]
    exact (startChannel_position sweep u c).trans (by rw [toU.channel])
  · have same : (s.commandStart sweep).gauges[c] = (v.arm c).gauges[c] := fromV.channel
    refine ⟨by rw [same, armed], fun w => ?_⟩
    obtain ⟨judged, failed⟩ := arm_judges heV w
    rw [sourceCondition_congr e.source intakeV speedV] at judged failed
    rw [sourceSigned_congr e.source intakeV, sourceInput_congr e.source intakeV speedV] at judged
    rw [same, watcherIndex_eq]
    refine ⟨judged, failed, fun code sev message low on capacity => ?_⟩
    obtain ⟨_, _, single, _⟩ := capacity
    have there : v.stack.single := mid.single (start.single (toU.single single))
    exact (fromV.spares ((turnOf_arm v c).single there) w code low).keeps sev (by simp)
      (arm_keeps there heV message low on)

theorem commandStart_disabled {s : State} {c : Fin 8} (he : s.enabledEntry c = none) (sweep : Bool) :
    (s.commandStart sweep).gauges[c] = s.gauges[c] := by
  obtain ⟨u, toU, fromU⟩ :=
    forChannels_reach (turnOf_startChannel sweep) (fun s c => State.startChannel_speed sweep s c) c s
  obtain ⟨v, toV, fromV⟩ := forChannels_reach turnOf_arm State.arm_speed c (s.forChannels (State.startChannel sweep))
  have heU : u.enabledEntry c = none := (enabledEntry_congr toU.tables c).trans he
  rw [startChannel_of_disabled heU] at fromU
  have toV' := (toU.trans fromU).trans toV
  rw [arm_of_disabled ((enabledEntry_congr toV'.tables c).trans he)] at fromV
  exact (toV'.trans fromV).channel

/-! ## The entry -/

/-- The bulb check begins (R159). -/
def State.beginBulbCheck (s : State) : State := s.withLamps { s.lamps with bulbTimer := 3000, bulbOver := false }

theorem enterStarting_eq (s : State) (sweep : Bool) : s.enterStarting sweep =
    allLamps.foldl State.restartLamp ((s.setMode .starting).commandStart sweep).beginBulbCheck := by
  unfold State.enterStarting State.commandStart State.beginBulbCheck
  rfl

theorem commandStart_lamps (s : State) (sweep : Bool) : (s.commandStart sweep).lamps = s.lamps := by
  simp [State.commandStart]

theorem commandStart_tables (s : State) (sweep : Bool) : (s.commandStart sweep).tables = s.tables := by
  simp [State.commandStart]

/-- The lamps' turns leave the channels and the causes as the bulb check found them. -/
theorem enterStarting_gauges (s : State) (sweep : Bool) :
    (s.enterStarting sweep).gauges = ((s.setMode .starting).commandStart sweep).gauges := by
  rw [enterStarting_eq, State.restartLamps_gauges, State.beginBulbCheck, State.withLamps_gauges]

/-- From the start command to the end of the entry the messages of the gauge unit stay. -/
theorem enterStarting_round (s : State) (sweep : Bool) :
    LampRound ((s.setMode .starting).commandStart sweep) (s.enterStarting sweep) := by
  rw [enterStarting_eq]
  have check : LampRound ((s.setMode .starting).commandStart sweep)
      ((s.setMode .starting).commandStart sweep).beginBulbCheck := ⟨.of_link rfl, id, fun _ _ _ => .refl _ _⟩
  exact check.trans (allLamps_round lampRound_restartLamp _)

theorem enterStarting_raises (s : State) (sweep : Bool) :
    Raises [.messageChange] (s.setMode .starting) (s.enterStarting sweep) :=
  (commandStart_round _ sweep).raises.trans (enterStarting_round s sweep).raises

/-- The lamps at the entry (R86, R159). -/
theorem enterStarting_lamps (s : State) (sweep : Bool) :
    (s.enterStarting sweep).lamps.bulbTimer = 3000 ∧ (s.enterStarting sweep).lamps.bulbOver = false ∧
      ∀ n : Fin 40, (s.enterStarting sweep).lamps.recs[n] = lampRestarted s.lamps.recs[n] ∧
        (s.lamps.recs[n].fault = .latchedOff → s.legal n = true → s.stack.withinCapacity →
          (s.enterStarting sweep).stack.dropped (msgLampFault n)) := by
  have single := (commandStart_round (s.setMode .starting) sweep).single
  have lamps := commandStart_lamps (s.setMode .starting) sweep
  have tables := commandStart_tables (s.setMode .starting) sweep
  rw [enterStarting_eq]
  generalize (s.setMode .starting).commandStart sweep = u at single lamps tables
  have alone := allLamps_alone lampTurn_restartLamp u.beginBulbCheck
  refine ⟨by rw [alone.lamps]; rfl, by rw [alone.lamps]; rfl, fun n => ?_⟩
  obtain ⟨restarted, dropped⟩ := restartLamps_lamp u.beginBulbCheck n
  have recs : u.lamps.recs = s.lamps.recs := congrArg Lamps.recs lamps
  rw [show u.beginBulbCheck.lamps.recs = u.lamps.recs from rfl, recs] at restarted dropped
  refine ⟨restarted, fun latched legal capacity => ?_⟩
  obtain ⟨_, _, unique, _⟩ := capacity
  refine dropped (single unique) latched ?_
  unfold State.legal at legal ⊢
  rwa [State.beginBulbCheck, State.withLamps_tables, tables]

/-- An enabled channel at the entry. -/
theorem enterStarting_enabled {s : State} {c : Fin 8} {e : GaugeEntry} (he : s.enabledEntry c = some e) (sweep : Bool) :
    started s (s.enterStarting sweep) sweep c e ∧ watchersArmed s (s.enterStarting sweep) c e ∧
      (s.enterStarting sweep).gauges[c].p = s.gauges[c].p := by
  obtain ⟨needle, position, on, watchers⟩ := commandStart_enabled (s := s.setMode .starting) he sweep
  have lamps := enterStarting_round s sweep
  have single := (commandStart_round (s.setMode .starting) sweep).single
  have channel : (s.enterStarting sweep).gauges[c] = ((s.setMode .starting).commandStart sweep).gauges[c] := by
    rw [enterStarting_gauges]
  rw [← channel] at position on
  refine ⟨started_congr rfl (calledFor_congr e.source rfl rfl) (by rw [channel]) (by rw [channel]) (by rw [channel])
    (by rw [channel]) needle, ⟨on, fun w => ?_⟩, position⟩
  obtain ⟨judged, failed, keeps⟩ := watchers w
  rw [sourceCondition_congr (s := s) (t := s.setMode .starting) e.source rfl rfl, ← channel] at judged failed
  rw [sourceSigned_congr (s := s) (t := s.setMode .starting) e.source rfl,
    sourceInput_congr (s := s) (t := s.setMode .starting) e.source rfl rfl] at judged
  refine ⟨judged, failed, fun code sev message low alarm capacity => ?_⟩
  obtain ⟨_, _, unique, _⟩ := id capacity
  refine (lamps.spares (single unique) _ (by simp)).keeps sev (by simp) (keeps code sev message low ?_ capacity)
  rwa [← channel]

theorem enterStarting_disabled {s : State} {c : Fin 8} (he : s.enabledEntry c = none) (sweep : Bool) :
    (s.enterStarting sweep).gauges[c] = s.gauges[c] := by
  have kept := commandStart_disabled (s := s.setMode .starting) he sweep
  rw [← enterStarting_gauges] at kept
  exact kept

/-- The entry into STARTING with its commands, in the statements' words. -/
theorem enterStarting_enters (s : State) (sweep : Bool) : entersStarting s (s.enterStarting sweep) sweep := by
  have raises := enterStarting_raises s sweep
  obtain ⟨bulbTimer, bulbOver, lamps⟩ := enterStarting_lamps s sweep
  have quiet : bit (s.setMode .starting).link.causes Cause.lampFault.place =
      bit s.link.causes Cause.lampFault.place := by
    rw [State.setMode_link, bit_raise]
    simp [Cause.place]
  exact ⟨enterStarting_mode s sweep, raises.pends _ (pends_raise _ _), bulbTimer, bulbOver, lamps,
    (raises.others .lampFault (by simp)).trans quiet, fun _ _ he => enterStarting_enabled he sweep,
    fun _ he => enterStarting_disabled he sweep, (onlyMessages_iff _ _).2 (by simp)⟩

end Sys2Proof.Machine
end

section
/-! The settling of O25. START (R158). -/

namespace Sys2Proof.Machine

/-- START ends with the result of its body, where the body leaves the engine and exchange memory. -/
theorem start_ends {s m : State} {n : Strip} {r : Result} {d : Nat} {w : Word} (h : due s n .start)
    (body : startBody s (s.orderArgs n .start) = (m, .ended r d)) (engine : m.engine = s.engine) (xm : m.xm = s.xm)
    (word : resultWord r d = w) : endsOrder .start s m n .start w :=
  endsOrder_of_body h rfl body engine (fun a _ => readXm_congr xm a) (xm ▸ h.2) word

theorem startBody_of_configured {s : State} (h : s.mode.mode ≠ .unconfigured) (args : List Word) :
    startBody s args = (s, .ended .refusedMode 0) := if_pos h

theorem startBody_of_missing {s : State} (h : s.mode.mode = .unconfigured)
    (missing : s.tables.gauge = none ∨ s.tables.lamp = none ∨ s.tables.slots = none) (args : List Word) :
    startBody s args = (s, .ended .badTable 6) := by
  have lacks : ¬ (s.tables.gauge.isSome ∧ s.tables.lamp.isSome ∧ s.tables.slots.isSome) := by
    rintro ⟨gauge, lamp, slots⟩
    obtain none | none | none := missing <;> simp [none] at gauge lamp slots
  exact (if_neg (not_not.2 h)).trans (if_neg lacks)

theorem startBody_of_loaded {s : State} (h : s.mode.mode = .unconfigured) (gauge : s.tables.gauge.isSome)
    (lamp : s.tables.lamp.isSome) (slots : s.tables.slots.isSome) (args : List Word) :
    startBody s args = (if s.mode.ignition then s.enterStarting true else s.setMode .dormant, .ended .done 0) :=
  (if_neg (not_not.2 h)).trans (if_pos ⟨gauge, lamp, slots⟩)

/-- Settles O25: START is refused outside UNCONFIGURED and without its tables; with the ignition on it enters STARTING
with the sweep, with the ignition off DORMANT. -/
theorem startEntersStartingOrDormantOrIsRefused : Obligations.StartEntersStartingOrDormantOrIsRefused := by
  unfold Obligations.StartEntersStartingOrDormantOrIsRefused
  intro s n h
  refine ⟨fun configured => ?refused, fun mode missing => ?missing, fun mode gauge lamp slots =>
    ⟨fun off => ?dormant, fun on => ?starting⟩⟩
  case refused => exact start_ends h (startBody_of_configured configured _) rfl rfl rfl
  case missing => exact start_ends h (startBody_of_missing mode missing _) rfl rfl rfl
  case dormant =>
    have body := startBody_of_loaded mode gauge lamp slots (s.orderArgs n .start)
    rw [if_neg (by simp [off])] at body
    exact start_ends h body rfl rfl rfl
  case starting =>
    have body := startBody_of_loaded mode gauge lamp slots (s.orderArgs n .start)
    rw [if_pos on] at body
    exact ⟨_, start_ends h body (s.enterStarting_engine true) (s.enterStarting_xm true) rfl,
      enterStarting_enters s true⟩

end Sys2Proof.Machine
end

section
/-! SUPPORT and the settling of O60. The ignition (R157, R164) and the entry into PARKING: its commands to the gauge
unit, the lamps and the chime, and the judgement of DORMANT (R162, R163). -/

namespace Sys2Proof.Machine

/-! ## The channels at the entry into PARKING (R45, R49) -/

/-- The park command and the disarming of the watchers. -/
def State.commandPark (s : State) : State := (s.forChannels State.parkChannel).forChannels State.disarm

theorem commandPark_round (s : State) : GaugeRound s s.commandPark :=
  (forChannels_round turnOf_parkChannel s).trans (forChannels_round turnOf_disarm _)

/-- In the two rounds a channel has its two own turns, first the park, then the disarming. -/
theorem commandPark_reach (s : State) (c : Fin 8) : ∃ u v, BesideChannel c s u ∧ BesideChannel c (u.parkChannel c) v ∧
    BesideChannel c (v.disarm c) s.commandPark := by
  obtain ⟨u, toU, fromU⟩ := forChannels_reach turnOf_parkChannel State.parkChannel_speed c s
  obtain ⟨v, toV, fromV⟩ := forChannels_reach turnOf_disarm State.disarm_speed c (s.forChannels State.parkChannel)
  exact ⟨u, v, toU, fromU.trans toV, fromV⟩

/-- A channel after the two rounds: parked by its state, disarmed, its needle where it was. -/
theorem commandPark_channel (s : State) (c : Fin 8) : ∃ ch, s.commandPark.gauges[c] = ch.disarmed ∧
    ch.p = s.gauges[c].p ∧ (s.enabledEntry c = none → ch = s.gauges[c]) ∧
    ∀ e, s.enabledEntry c = some e → parkCommanded s.gauges[c] ch e := by
  obtain ⟨u, v, toU, toV, fromV⟩ := commandPark_reach s c
  have entry : u.enabledEntry c = s.enabledEntry c := enabledEntry_congr toU.tables c
  refine ⟨(u.parkChannel c).gauges[c], ?_, ?_, fun disabled => ?_, fun e he => ?_⟩
  · rw [fromV.channel, disarm_channel, toV.channel]
  · rw [parkChannel_position, toU.channel]
  · rw [parkChannel_of_disabled (entry.trans disabled), toU.channel]
  · rw [← toU.channel]
    exact parkChannel_parks (entry.trans he)

/-- The messages of the watchers that were in ALARM have ended (R50). -/
theorem commandPark_dropped {s : State} (h : s.stack.single) {c : Fin 8} {e : GaugeEntry}
    (he : s.gaugeEntry c = some e) {w : Watcher} {code : Nat} {sev : Severity}
    (message : (e.watcher w).message = some (code, sev)) (low : code < 240) (alarm : s.gauges[c].alarm w = true) :
    s.commandPark.stack.dropped ⟨code, .gauge, watcherNumber c w⟩ := by
  obtain ⟨u, v, toU, toV, fromV⟩ := commandPark_reach s c
  have park := turnOf_parkChannel u c
  have single : v.stack.single := toV.single (park.single (toU.single h))
  have heV : v.gaugeEntry c = some e :=
    (gaugeEntry_congr (toV.tables.trans (park.tables.trans toU.tables)) c).trans he
  have alarmV : v.gauges[c].alarm w = true := by
    rw [toV.channel, parkChannel_alarm, toU.channel]
    exact alarm
  exact (fromV.spares ((turnOf_disarm v c).single single) w code low).dropped
    (disarm_dropped single heV message low alarmV)

/-! ## The lamps at the entry into PARKING (R86, R90) -/

/-- The bulb check and the test end, and every rise message with them. -/
def State.quietLamps (s : State) : State :=
  allLamps.foldl State.dropRise (s.withLamps { s.lamps with bulbTimer := 0, testTimer := 0 })

theorem quietLamps_round (s : State) : LampRound s s.quietLamps :=
  LampRound.trans (b := s.withLamps { s.lamps with bulbTimer := 0, testTimer := 0 })
    ⟨.of_link rfl, id, fun _ _ _ => .refl _ _⟩ (allLamps_round lampRound_dropRise _)

theorem quietLamps_timers (s : State) : s.quietLamps.lamps.bulbTimer = 0 ∧ s.quietLamps.lamps.testTimer = 0 := by
  have alone := allLamps_alone lampTurn_dropRise (s.withLamps { s.lamps with bulbTimer := 0, testTimer := 0 })
  unfold State.quietLamps
  rw [alone.lamps]
  exact ⟨rfl, rfl⟩

theorem quietLamps_quiet (s : State) (n : Fin 40) : s.quietLamps.lamps.recs[n].riseActive = false := by
  obtain ⟨u, _, after⟩ :=
    allLamps_reach lampTurn_dropRise n (s.withLamps { s.lamps with bulbTimer := 0, testTimer := 0 })
  unfold State.quietLamps
  rw [after.own, dropRise_lamp]
  rfl

/-! ## The judgement of DORMANT (R163) -/

theorem judgeDormant_of_parking {s : State} (h : s.mode.mode = .parking) : s.judgeDormant.mode =
    { s.mode with mode := if s.parked = true ∧ s.store.busy = false then .dormant else .parking } := by
  unfold State.judgeDormant
  by_cases rest : s.parked = true ∧ s.store.busy = false
  · rw [if_pos ⟨h, rest⟩, if_pos rest]
    rfl
  · rw [if_neg fun all => rest all.2, if_neg rest, ← h]

/-- A FAILED store takes no request (R61). -/
theorem requestCommit_of_failed {t : Store} (h : t.failed = true) (odometer : Nat) : t.requestCommit odometer = t :=
  if_pos h

/-- The store after the request stands idle only as it stood before, and FAILED (R61). -/
theorem requestCommit_idle_iff (t : Store) (odometer : Nat) :
    (t.requestCommit odometer).busy = false ↔ t.failed = true ∧ t.busy = false := by
  cases failed : t.failed with
  | false => simp [requestCommit_busy failed]
  | true => rw [requestCommit_of_failed failed]; simp

/-! ## The entry -/

/-- LINK FAULT ends with LIMP (R161). -/
def State.endLinkFault (s : State) : State := if s.mode.mode = .limp then s.clear msgLinkFault else s

theorem endLinkFault_of_limp {s : State} (h : s.mode.mode = .limp) : s.endLinkFault = s.clear msgLinkFault := if_pos h

/-- The commands at the entry into PARKING, up to the chime's. -/
def State.commandRest (s : State) : State :=
  ((s.endLinkFault.setMode .parking).commandPark.quietLamps).stopChime

theorem enterParking_eq (s : State) : s.enterParking =
    (s.commandRest.withStore (s.commandRest.store.requestCommit s.commandRest.speed.odometer)).judgeDormant := by
  unfold State.enterParking State.commandRest State.quietLamps State.commandPark State.endLinkFault
  rfl

/-- Up to the chime's command the gauges have had theirs, and the lamps theirs. -/
theorem commandRest_frame (s : State) : s.commandRest.mode = { s.mode with mode := .parking } ∧
    s.commandRest.xm = s.xm ∧ s.commandRest.engine = s.engine ∧ s.commandRest.tables = s.tables ∧
    s.commandRest.intake = s.intake ∧ s.commandRest.speed = s.speed ∧ s.commandRest.store = s.store ∧
    s.commandRest.hours = s.hours ∧ s.commandRest.panel = s.panel ∧ s.commandRest.prescale = s.prescale ∧
    s.commandRest.pending = s.pending ∧
    s.commandRest.gauges = (s.endLinkFault.setMode .parking).commandPark.gauges := by
  have clears := (onlyMessages_iff s s.endLinkFault).1 (by unfold State.endLinkFault; split <;> rfl)
  simp [State.commandRest, State.quietLamps, State.commandPark, clears]

theorem commandRest_lamps (s : State) :
    s.commandRest.lamps = (s.endLinkFault.setMode .parking).commandPark.quietLamps.lamps := State.stopChime_lamps _

theorem commandRest_stack (s : State) :
    s.commandRest.stack = (s.endLinkFault.setMode .parking).commandPark.quietLamps.stack := State.stopChime_stack _

theorem commandRest_raises (s : State) : Raises [.messageChange] (s.endLinkFault.setMode .parking) s.commandRest := by
  have gauges := (commandPark_round (s.endLinkFault.setMode .parking)).raises
  have lamps := (quietLamps_round (s.endLinkFault.setMode .parking).commandPark).raises
  exact (gauges.trans lamps).trans (.of_link (State.stopChime_link _))

/-- The judgement of DORMANT leaves what the commands did to the channels, the lamps, the chime and the messages. -/
theorem enterParking_keeps (s : State) : s.enterParking.gauges = s.commandRest.gauges ∧
    s.enterParking.lamps = s.commandRest.lamps ∧ s.enterParking.chime = Chime.reset ∧
    s.enterParking.stack = s.commandRest.stack ∧
    s.enterParking.store = s.store.requestCommit s.speed.odometer := by
  obtain ⟨_, _, _, _, _, speed, store, _⟩ := commandRest_frame s
  have chime : s.commandRest.chime = Chime.reset := rfl
  rw [enterParking_eq]
  simp [speed, store, chime]

theorem enterParking_frame (s : State) : onlyMessages ((((s.withMode s.enterParking.mode).withGauges
    s.enterParking.gauges).withLamps s.enterParking.lamps).withStore s.enterParking.store) s.enterParking := by
  obtain ⟨_, xm, engine, tables, intake, speed, _, hours, panel, prescale, pending, _⟩ := commandRest_frame s
  refine (onlyMessages_iff _ _).2 ?_
  rw [enterParking_eq]
  simp [xm, engine, tables, intake, speed, hours, panel, prescale, pending]

/-- PARKING goes on to DORMANT at once where the store takes no commit and every channel rests (R163). -/
theorem enterParking_mode (s : State) : s.enterParking.mode = { s.mode with
    mode := if s.store.failed = true ∧ s.store.busy = false ∧ s.enterParking.parked = true
      then .dormant else .parking } := by
  obtain ⟨mode, _, _, _, _, speed, store, _⟩ := commandRest_frame s
  rw [enterParking_eq]
  generalize s.commandRest = u at mode speed store
  have parking : (u.withStore (u.store.requestCommit u.speed.odometer)).mode.mode = .parking := by
    rw [State.withStore_mode, mode]
  rw [parked_congr (State.judgeDormant_gauges _), judgeDormant_of_parking parking, State.withStore_mode, mode]
  simp only [State.withStore_store, requestCommit_idle_iff, store, and_comm, and_assoc]

theorem enterParking_pends (s : State) : pends s.enterParking .modeChange := by
  have rest : pends s.commandRest .modeChange := (commandRest_raises s).pends _ (pends_raise _ .modeChange)
  have stored := Raises.of_link (listed := []) (State.withStore_link s.commandRest
    (s.commandRest.store.requestCommit s.commandRest.speed.odometer))
  rw [enterParking_eq]
  exact pends_judgeDormant (stored.pends _ rest)

/-- The lamps at the entry: no check, no test, no rise message (R90). -/
theorem enterParking_lamps (s : State) : s.enterParking.lamps.bulbTimer = 0 ∧ s.enterParking.lamps.testTimer = 0 ∧
    ∀ n : Fin 40, s.enterParking.lamps.recs[n].riseActive = false := by
  obtain ⟨_, lamps, _⟩ := enterParking_keeps s
  have timers := quietLamps_timers (s.endLinkFault.setMode .parking).commandPark
  rw [lamps, commandRest_lamps]
  exact ⟨timers.1, timers.2, quietLamps_quiet _⟩

/-- LINK FAULT stands no more after LIMP (R161). -/
theorem enterParking_dropsLinkFault {s : State} (h : s.stack.single) (limp : s.mode.mode = .limp) :
    s.enterParking.stack.dropped msgLinkFault := by
  obtain ⟨_, _, _, stack, _⟩ := enterParking_keeps s
  obtain ⟨single, dropped, _⟩ := State.clear_spec h msgLinkFault
  rw [← endLinkFault_of_limp limp] at single dropped
  have gauges := commandPark_round (s.endLinkFault.setMode .parking)
  have lamps := quietLamps_round (s.endLinkFault.setMode .parking).commandPark
  rw [stack, commandRest_stack]
  exact (lamps.spares (gauges.single single) _ (by decide)).dropped
    ((gauges.spares single _ (by decide)).dropped dropped)

/-- The clearing of LINK FAULT at the entry. -/
theorem endLinkFault_keeps (s : State) : s.endLinkFault.gauges = s.gauges ∧ s.endLinkFault.tables = s.tables ∧
    (s.stack.single → s.endLinkFault.stack.single) := by
  unfold State.endLinkFault
  split
  · exact ⟨rfl, rfl, fun h => (State.clear_spec h _).1⟩
  · exact ⟨rfl, rfl, id⟩

/-- The channels at the entry (R45). -/
theorem enterParking_channel (s : State) (c : Fin 8) : ∃ ch, s.enterParking.gauges[c] = ch.disarmed ∧
    ch.p = s.gauges[c].p ∧ (s.enabledEntry c = none → ch = s.gauges[c]) ∧
    ∀ e, s.enabledEntry c = some e → parkCommanded s.gauges[c] ch e := by
  obtain ⟨gauges, _⟩ := enterParking_keeps s
  obtain ⟨_, _, _, _, _, _, _, _, _, _, _, rest⟩ := commandRest_frame s
  obtain ⟨same, tables, _⟩ := endLinkFault_keeps s
  obtain ⟨ch, disarmed, position, disabled, commanded⟩ := commandPark_channel (s.endLinkFault.setMode .parking) c
  rw [enabledEntry_congr (s := s) (t := s.endLinkFault.setMode .parking) tables] at disabled commanded
  rw [gauges, rest]
  rw [State.setMode_gauges, same] at position disabled commanded
  exact ⟨ch, disarmed, position, disabled, commanded⟩

/-- The watchers are disarmed with their messages (R49, R50). -/
theorem enterParking_watchers (s : State) (c : Fin 8) : watchersDisarmed s s.enterParking c := by
  obtain ⟨ch, disarmed, _⟩ := enterParking_channel s c
  obtain ⟨_, _, _, stack, _⟩ := enterParking_keeps s
  obtain ⟨same, tables, singleKept⟩ := endLinkFault_keeps s
  unfold watchersDisarmed
  rw [disarmed]
  refine ⟨rfl, rfl, rfl, fun w e code sev he message low alarm capacity => ?_⟩
  obtain ⟨_, _, unique, _⟩ := capacity
  have single := singleKept unique
  have gauges := commandPark_round (s.endLinkFault.setMode .parking)
  have lamps := quietLamps_round (s.endLinkFault.setMode .parking).commandPark
  rw [stack, commandRest_stack, watcherIndex_eq]
  refine (lamps.spares (gauges.single single) _ (by simp)).dropped
    (commandPark_dropped (s := s.endLinkFault.setMode .parking) (c := c) single ?_ message low ?_)
  · exact (gaugeEntry_congr (s := s) (t := s.endLinkFault.setMode .parking) tables c).trans he
  · rw [State.setMode_gauges, same]
    exact alarm

/-! ## The ignition's events (R157, R164) -/

theorem ignitionOnEvent_eq {s : State} (input : s.mode.ignInput = true) (off : s.mode.ignition = false)
    (settled : s.mode.settle = 100) : exec .ignitionOnEvent s = .next s.ignitionOn := by
  refine congrArg Host.Outcome.next (if_pos ?_)
  rw [input, off, settled]
  rfl

theorem ignitionOffEvent_eq {s : State} (input : s.mode.ignInput = false) (on : s.mode.ignition = true)
    (settled : s.mode.settle = 100) : exec .ignitionOffEvent s = .next s.ignitionOff := by
  refine congrArg Host.Outcome.next (if_pos ?_)
  rw [input, on, settled]
  rfl

/-- Neither event comes while the input agrees with the ignition or has not settled. -/
theorem ignitionEvents_not_due {s : State} (h : s.mode.settle ≠ 100 ∨ s.mode.ignInput = s.mode.ignition) :
    exec .ignitionOnEvent s = .next s ∧ exec .ignitionOffEvent s = .next s := by
  refine ⟨congrArg Host.Outcome.next (if_neg fun due => ?_), congrArg Host.Outcome.next (if_neg fun due => ?_)⟩ <;>
    simp only [Bool.and_eq_true, beq_iff_eq, Bool.not_eq_true'] at due <;>
    obtain ⟨⟨input, ignition⟩, settled⟩ := due <;>
    obtain early | agrees := h
  · exact early settled
  · simp [input, ignition] at agrees
  · exact early settled
  · simp [input, ignition] at agrees

/-- In INITIAL the events change nothing. -/
theorem ignitionEvents_of_initial {s : State} (h : s.mode.mode = .initial) :
    exec .ignitionOnEvent s = .next s ∧ exec .ignitionOffEvent s = .next s := by
  have on : s.ignitionOn = s := by
    unfold State.ignitionOn
    rw [h]
  have off : s.ignitionOff = s := by
    unfold State.ignitionOff
    rw [h]
  refine ⟨congrArg Host.Outcome.next ?_, congrArg Host.Outcome.next ?_⟩
  · rw [on, ite_self]
  · rw [off, ite_self]

/-- Settles O60: the pin moves alone; the settled pin moves the ignition, and with it the mode. -/
theorem ignitionMovesTheMode : Obligations.IgnitionMovesTheMode := by
  unfold Obligations.IgnitionMovesTheMode
  refine ⟨fun _ _ => rfl, fun s h => ?still, fun s u input off settled hu => ?on, fun s input on settled =>
    ⟨fun mode => ?unconfigured, fun mode => ?parking⟩⟩
  case still =>
    obtain initial | notDue := h
    · exact ignitionEvents_of_initial initial
    · exact ignitionEvents_not_due notDue
  case on =>
    rw [ignitionOnEvent_eq input off settled, State.ignitionOn, hu]
    refine ⟨fun mode => ?_, fun mode => ⟨_, rfl, ?_⟩, fun mode => ⟨_, rfl, ?_⟩⟩ <;> rw [mode]
    · rfl
    · exact enterStarting_enters _ false
    · exact enterStarting_enters _ true
  case unconfigured =>
    rw [ignitionOffEvent_eq input on settled, State.ignitionOff, mode]
    rfl
  case parking =>
    have enters : s.ignitionOff = (s.setIgnition false).enterParking := by
      unfold State.ignitionOff
      obtain starting | running | limp := mode
      · rw [starting]
      · rw [running]
      · rw [limp]
    obtain ⟨_, _, chime, _, store⟩ := enterParking_keeps (s.setIgnition false)
    obtain ⟨bulb, test, rises⟩ := enterParking_lamps (s.setIgnition false)
    rw [ignitionOffEvent_eq input on settled, enters]
    refine ⟨_, rfl, enterParking_frame (s.setIgnition false), enterParking_mode (s.setIgnition false),
      enterParking_pends _, chime, bulb, test, rises, fun sound => ?_, fun failed => ?_, fun limp capacity => ?_,
      fun c => ⟨enterParking_watchers (s.setIgnition false) c, ?_⟩⟩
    · rw [store]
      exact requestCommit_busy sound _
    · rw [store]
      exact requestCommit_of_failed failed _
    · obtain ⟨_, _, unique, _⟩ := capacity
      exact (enterParking_dropsLinkFault (s := s.setIgnition false) unique limp).1
    · obtain ⟨ch, disarmed, position, disabled, commanded⟩ := enterParking_channel (s.setIgnition false) c
      rw [disarmed]
      exact ⟨position, fun none => congrArg (fun ch => ch.disarmed.state) (disabled none), commanded⟩

end Sys2Proof.Machine
end

section
/-! SUPPORT. The report block (R172): where the words that a refresh pass gathers stand, and what they show. -/

namespace Sys2Proof.Machine

/-! ## Words in a row -/

/-- The words stand in a block from place `a` on. -/
def wordsStand (w : Nat → Word) (a : Nat) (ws : List Word) : Prop := ∀ i v, ws[i]? = some v → w (a + i) = v

theorem wordsStand_nil (w : Nat → Word) (a : Nat) : wordsStand w a [] := fun _ _ h => by simp at h

theorem wordsStand_cons {w : Nat → Word} {a : Nat} {v : Word} {vs : List Word} :
    wordsStand w a (v :: vs) ↔ w a = v ∧ wordsStand w (a + 1) vs := by
  refine ⟨fun h => ⟨h 0 v rfl, fun i x hx => ?_⟩, fun ⟨first, rest⟩ i x hx => ?_⟩
  · rw [Nat.add_assoc, Nat.add_comm 1]
    exact h (i + 1) x hx
  · cases i with
    | zero => exact first.trans (Option.some.inj hx)
    | succ i =>
      rw [Nat.add_comm i, ← Nat.add_assoc]
      exact rest i x hx

theorem wordsStand_singleton {w : Nat → Word} {a : Nat} {v : Word} : wordsStand w a [v] ↔ w a = v :=
  wordsStand_cons.trans (and_iff_left (wordsStand_nil w _))

theorem wordsStand_append {w : Nat → Word} {a : Nat} {vs us : List Word} :
    wordsStand w a (vs ++ us) ↔ wordsStand w a vs ∧ wordsStand w (a + vs.length) us := by
  induction vs generalizing a with
  | nil => exact ⟨fun h => ⟨wordsStand_nil w a, h⟩, fun h => h.2⟩
  | cons v vs ih =>
    rw [List.cons_append, wordsStand_cons, wordsStand_cons, ih, and_assoc, List.length_cons, Nat.add_right_comm,
      Nat.add_assoc]

/-- A two-word quantity stands with its more significant word first (R184). -/
theorem wordsStand_twoWords {w : Nat → Word} {a n : Nat} : wordsStand w a (twoWords n) ↔ longAt w a n :=
  wordsStand_cons.trans (and_congr_right' wordsStand_singleton)

theorem wordsStand_map {α : Type} {n : Nat} {w : Nat → Word} {a : Nat} {f : α → Word} {v : Vector α n}
    (h : wordsStand w a (v.toList.map f)) (i : Fin n) : w (a + i.val) = f v[i] :=
  h i.val _ (by simp)

/-! ## Packed numbers -/

theorem pack_field {k : Nat} {xs : List Nat} (small : ∀ x ∈ xs, x < 2 ^ k) (i : Nat) :
    pack k xs / 2 ^ (k * i) % 2 ^ k = xs.getD i 0 := by
  induction xs generalizing i with
  | nil => simp [pack]
  | cons x xs ih =>
    have first : x < 2 ^ k := small x List.mem_cons_self
    cases i with
    | zero => simp [pack, Nat.mod_eq_of_lt first]
    | succ i =>
      have rest : (x + 2 ^ k * pack k xs) / 2 ^ k = pack k xs := by
        rw [Nat.add_mul_div_left _ _ (Nat.two_pow_pos k), Nat.div_eq_of_lt first, Nat.zero_add]
      rw [pack, Nat.mul_succ, Nat.add_comm (k * i), Nat.pow_add, ← Nat.div_div_eq_div_mul, rest]
      exact ih (fun x hx => small x (List.mem_cons_of_mem _ hx)) i

/-- A field within 16 bits is the field of the number. -/
theorem bits_wordOf {n lo k : Nat} (inside : lo + k ≤ 16) : bits (wordOf n) lo k = n / 2 ^ lo % 2 ^ k := by
  rw [bits, wordOf, BitVec.toNat_ofNat, ← Nat.mod_mul_right_div_self, ← Nat.mod_mul_right_div_self, ← Nat.pow_add,
    Nat.mod_mod_of_dvd _ (Nat.pow_dvd_pow 2 inside)]

theorem bits_wordOf_pack {k : Nat} {xs : List Nat} (small : ∀ x ∈ xs, x < 2 ^ k) {i : Nat} (inside : k * (i + 1) ≤ 16) :
    bits (wordOf (pack k xs)) (k * i) k = xs.getD i 0 := by
  rw [bits_wordOf (by rwa [← Nat.mul_succ]), pack_field small]

/-- Number `i` of those packed stands in its field of its word. -/
theorem bits_of_packWords {k per count : Nat} {w : Nat → Word} {a : Nat} {xs : List Nat}
    (h : wordsStand w a (packWords k per count xs)) (room : k * per ≤ 16) (small : ∀ x ∈ xs, x < 2 ^ k) {i : Nat}
    (inside : i < count * per) : bits (w (a + i / per)) (k * (i % per)) k = xs.getD i 0 := by
  induction count generalizing a xs i with
  | zero => omega
  | succ count ih =>
    obtain ⟨first, rest⟩ := wordsStand_cons.1 h
    have positive : 0 < per := Nat.pos_of_ne_zero fun zero => by simp [zero] at inside
    by_cases here : i < per
    · rw [Nat.div_eq_of_lt here, Nat.mod_eq_of_lt here, Nat.add_zero, first,
        bits_wordOf_pack (fun x hx => small x (List.mem_of_mem_take hx)) ((Nat.mul_le_mul_left k here).trans room)]
      simp [List.getD_eq_getElem?_getD, here]
    · obtain ⟨j, rfl⟩ := Nat.exists_eq_add_of_le (Nat.le_of_not_lt here)
      rw [Nat.add_div_left _ positive, Nat.add_mod_left, Nat.add_comm (j / per), ← Nat.add_assoc,
        ih rest (fun x hx => small x (List.mem_of_mem_drop hx)) (by rw [Nat.succ_mul] at inside; omega)]
      simp [List.getD_eq_getElem?_getD, List.getElem?_drop]

/-- The numbers of the records of a unit, packed. -/
theorem bits_of_packed {α : Type} {n k per count : Nat} {w : Nat → Word} {a : Nat} {v : Vector α n} {f : α → Nat}
    (h : wordsStand w a (packWords k per count (v.toList.map f))) (room : k * per ≤ 16) (small : ∀ x, f x < 2 ^ k)
    (fits : n ≤ count * per) (i : Fin n) : bits (w (a + i.val / per)) (k * (i.val % per)) k = f v[i] := by
  rw [bits_of_packWords h room (by simp [small]) (by omega)]
  simp [List.getD_eq_getElem?_getD]

/-- Flags of the records of a unit, packed into single bits. -/
theorem bit_of_packed {α : Type} {n count : Nat} {w : Nat → Word} {a : Nat} {v : Vector α n} {f : α → Bool}
    (h : wordsStand w a (packWords 1 16 count (v.toList.map fun x => flagOf (f x)))) (fits : n ≤ count * 16) (i : Fin n) :
    bit (w (a + i.val / 16)) (i.val % 16) = f v[i] := by
  have field := bits_of_packed h (Nat.le_refl _) (fun x => by cases f x <;> decide) fits i
  rw [Nat.one_mul] at field
  rw [bit, field]
  cases f v[i] <;> rfl

/-- The places of the last word that have no record hold 0. -/
theorem bit_beyond_packed {α : Type} {n count : Nat} {w : Nat → Word} {a : Nat} {v : Vector α n} {f : α → Bool}
    (h : wordsStand w a (packWords 1 16 count (v.toList.map fun x => flagOf (f x)))) {i : Nat} (beyond : n ≤ i)
    (inside : i < count * 16) : bit (w (a + i / 16)) (i % 16) = false := by
  have small : ∀ x ∈ v.toList.map fun x => flagOf (f x), x < 2 ^ 1 := by
    simp only [List.mem_map, forall_exists_index, and_imp, forall_apply_eq_imp_iff₂]
    exact fun x _ => by cases f x <;> decide
  have field := bits_of_packWords h (Nat.le_refl _) small inside
  rw [Nat.one_mul] at field
  rw [bit, field]
  simp [List.getD_eq_getElem?_getD, beyond]

theorem length_packWords (k per count : Nat) (xs : List Nat) : (packWords k per count xs).length = count := by
  induction count generalizing xs with
  | zero => rfl
  | succ count ih => rw [packWords, List.length_cons, ih]

/-! ## What the words show -/

theorem DeviceMode.code_eq (m : DeviceMode) : m.code = modeCodes.idxOf m := by cases m <;> rfl
theorem StripState.code_eq (x : StripState) : x.code = stripCodes.idxOf x := by cases x <;> rfl
theorem ChannelState.code_eq (x : ChannelState) : x.code = channelCodes.idxOf x := by cases x <;> rfl
theorem Demand.code_eq (x : Demand) : x.code = demandCodes.idxOf x := by cases x <;> rfl
theorem Activity.code_eq (x : Activity) : x.code = activityCodes.idxOf x := by cases x <;> rfl
theorem originCode_eq (x : Origin) : originCode x = originCodes.idxOf x := by cases x <;> rfl

theorem ChannelState.code_lt (x : ChannelState) : x.code < 2 ^ 4 := by cases x <;> decide
theorem Demand.code_lt (x : Demand) : x.code < 2 ^ 2 := by cases x <;> decide

theorem ModeControl.word_eq (m : ModeControl) : m.word =
    Machine.word (modeCodes.idxOf m.mode + 16 * m.ignition.toNat + 32 * (if m.kind = .hard then 1 else 0)) := by
  rw [ModeControl.word, DeviceMode.code_eq]
  cases m.ignition <;> cases m.kind <;> rfl

theorem Engine.stripRegister_eq (e : Engine) :
    e.stripRegister = word (stripCodes.idxOf e.strip1 + 16 * stripCodes.idxOf e.strip2) := by
  rw [Engine.stripRegister, StripState.code_eq, StripState.code_eq]
  rfl

theorem wordOrNot_eq (n : Option Nat) : wordOrNot n = orNone n := by cases n <;> rfl

theorem Driver.activityWord_eq (d : Driver) : d.activityWord = word (activityNumber d) := by
  unfold Driver.activityWord activityNumber
  cases d.activity with
  | none => rfl
  | some o => exact congrArg Machine.word (Activity.code_eq o.kind)

theorem Alerts.word_eq (a : Alerts) : a.word = Machine.word (alertNumber a) := by
  simp only [Alerts.word, alertNumber, flagOf_eq]
  rfl

/-- The six words of a driver slot (R116). -/
theorem driverReported_of_wordsStand {w : Nat → Word} {a : Nat} {d : Driver} (h : wordsStand w a d.reportWords) :
    driverReported w a d := by
  simp only [Driver.reportWords, wordsStand_cons, Nat.add_assoc, Nat.reduceAdd, flagOf_eq, Driver.activityWord_eq,
    wordOrNot_eq, Alerts.word_eq] at h
  obtain ⟨present, activity, rcd, rdd, need, alerts, _⟩ := h
  exact ⟨present, activity, rcd, rdd, need, alerts⟩

theorem outputCode_eq (r : LampRec) : r.outputCode =
    if r.fault = .shortWait ∨ r.fault = .latchedOff then 0 else demandCodes.idxOf r.shown := by
  rw [LampRec.outputCode, Demand.code_eq]
  cases r.fault <;> rfl

theorem outputCode_lt (r : LampRec) : r.outputCode < 2 ^ 2 := by
  unfold LampRec.outputCode
  split
  · decide
  · exact r.shown.code_lt

theorem Stack.topWords_of_acked {k : Stack} (h : ∀ e ∈ k.entries, e.state = .acked) :
    k.topWords = [(0x0700 : Word), 0] := by
  rw [Stack.topWords, Stack.topId, Stack.top_of_acked h]
  rfl

theorem Stack.topWords_of_viewTop {k : Stack} {e : Entry} (h : k.viewTop e) :
    k.topWords = [word (e.id.code + 256 * originCodes.idxOf e.id.origin), word e.id.arg] := by
  rw [Stack.topWords, Stack.topId_of_viewTop h, ← originCode_eq]
  rfl

theorem Stack.length_topWords (k : Stack) : k.topWords.length = 2 := by
  unfold Stack.topWords
  cases k.topId <;> rfl

/-- The words of the stack (R135). -/
theorem stackReported_of_wordsStand {w : Nat → Word} {k : Stack} (count : w 47 = word k.entries.length)
    (top : wordsStand w 48 k.topWords) : stackReported w k := by
  refine ⟨count, fun acked => ?_, fun e viewTop => ?_⟩
  · rw [Stack.topWords_of_acked acked, wordsStand_cons, wordsStand_singleton] at top
    exact top
  · rw [Stack.topWords_of_viewTop viewTop, wordsStand_cons, wordsStand_singleton] at top
    exact top

/-! ## The content of the block -/

theorem wordsStand_replicate {w : Nat → Word} {a n : Nat} {v : Word} (h : wordsStand w a (List.replicate n v))
    {i : Nat} (inside : i < n) : w (a + i) = v :=
  h i v (by simp [inside])

theorem length_twoWords (n : Nat) : (twoWords n).length = 2 := rfl

theorem length_reportWords (d : Driver) : d.reportWords.length = 6 := rfl

/-- Words 1 to 62 in place show the state that they were gathered from. -/
theorem reportShows_of_wordsStand {s : State} {w : Nat → Word} (h : wordsStand w 1 s.reportContent) :
    reportShows s w := by
  simp only [State.reportContent, wordsStand_append, wordsStand_cons, wordsStand_twoWords, List.length_append,
    List.length_cons, List.length_nil, List.length_map, Vector.length_toList, length_packWords, Stack.length_topWords,
    length_twoWords, length_reportWords, Nat.reduceAdd, and_assoc, wordsStand_nil, true_and] at h
  obtain ⟨mode, strips, speed, odometer, tripA, tripB, clock, clockSet, driver1, driver2, positions, states, lamps,
    faults, conditions, entries, top, queue, zeros⟩ := h
  exact ⟨mode.trans s.mode.word_eq, strips.trans s.engine.stripRegister_eq, speed, odometer, tripA, tripB, clock,
    clockSet.trans (congrArg word (flagOf_eq _)), driverReported_of_wordsStand driver1,
    driverReported_of_wordsStand driver2, wordsStand_map positions,
    fun c => (bits_of_packed states (by decide) (fun _ => ChannelState.code_lt _) (by decide) c).trans
      (ChannelState.code_eq _),
    fun n => (bits_of_packed lamps (by decide) outputCode_lt (by decide) n).trans (outputCode_eq _),
    fun n => by rw [bit_of_packed faults (by decide) n, bne_iff_ne],
    fun i low high => by
      have dark := bit_beyond_packed faults (i := 32 + i) (by omega) (by omega)
      rwa [show (32 + i) / 16 = 2 by omega, show (32 + i) % 16 = i by omega] at dark,
    fun i => by rw [bit_of_packed conditions (by decide) i, bne_iff_ne],
    stackReported_of_wordsStand entries top, queue, fun a low high => by
      rw [show a = 51 + (a - 51) by omega]
      exact wordsStand_replicate zeros (by omega)⟩

theorem length_reportContent (s : State) : s.reportContent.length = 62 := by
  simp [State.reportContent, length_twoWords, length_reportWords, length_packWords, Stack.length_topWords]

/-! ## The words of a pass -/

/-- The words that a pass writes, from word 0 on. -/
def State.passWords (s : State) : List Word :=
  (s.link.refreshSeq + 1) :: s.gathered.toList ++ [s.link.refreshSeq + 1]

theorem reportPass_eq (s : State) (mid : List MidAccess) : s.reportPass mid =
    State.writePass mid 0 s.passWords (s.withLink { s.link with refreshSeq := s.link.refreshSeq + 1 }) := rfl

theorem gathered_toList (s : State) : s.gathered.toList = s.reportContent := by
  refine List.ext_getElem (by rw [Vector.length_toList, length_reportContent]) fun i _ inside => ?_
  simp [State.gathered, List.getD_eq_getElem?_getD, List.getElem?_eq_getElem inside]

theorem length_passWords (s : State) : s.passWords.length = 64 := by
  simp [State.passWords]

/-- In place, the words of a pass are the number, the content and the number again. -/
theorem wordsStand_passWords {s : State} {w : Nat → Word} (h : wordsStand w 0 s.passWords) :
    w 0 = s.link.refreshSeq + 1 ∧ wordsStand w 1 s.reportContent ∧ w 63 = s.link.refreshSeq + 1 := by
  rw [State.passWords, gathered_toList, wordsStand_append, wordsStand_cons, wordsStand_singleton, List.length_cons,
    length_reportContent, and_assoc] at h
  exact h

/-! ## A read inside a pass (R172) -/

theorem accessesAt_single (m : MidAccess) (place : Nat) (s : State) :
    s.accessesAt [m] place = if m.place = place then s.access m.access else s := by
  unfold State.accessesAt
  by_cases here : m.place = place <;> simp [here]

/-- After the place of its one access a pass only writes. -/
theorem writePass_past {m : MidAccess} {n : Nat} (past : m.place ≤ n) (ws : List Word) (s : State) :
    State.writePass [m] n ws s = s.writeWords n ws := by
  induction ws generalizing n s with
  | nil => rfl
  | cons w ws ih =>
    rw [State.writePass, accessesAt_single, if_neg (by omega)]
    exact ih (by omega) (s.writeXm n w)

theorem writeWords_link (s : State) (a : Nat) (ws : List Word) : (s.writeWords a ws).link = s.link := by
  rw [State.writeWords_eq]
  rfl

theorem writeWords_engine (s : State) (a : Nat) (ws : List Word) : (s.writeWords a ws).engine = s.engine := by
  rw [State.writeWords_eq]
  rfl

/-- A read of exchange memory outside INITIAL. -/
theorem access_wdatRead {s : State} (awake : s.mode.mode ≠ .initial) (space : s.link.space = 0) :
    s.access .wdatRead = s.withLink { s.link.advance with data := s.readXm s.link.addr } := by
  rw [State.access, if_neg awake, State.takeAccess, State.readWdat, State.windowWord, if_pos space]

/-- A read after `p` words of the pass meets those words new and the others old. -/
theorem writePass_read {p n : Nat} {ws : List Word} {s : State} (wf : s.xm.wf = true) (awake : s.mode.mode ≠ .initial)
    (space : s.link.space = 0) (after : n < p) (within : p ≤ n + ws.length) (inside : n + ws.length ≤ 64) :
    (State.writePass [⟨p, .wdatRead⟩] n ws s).link.data =
      if s.link.addr < p then (State.writePass [⟨p, .wdatRead⟩] n ws s).readXm s.link.addr
      else s.readXm s.link.addr := by
  induction ws generalizing n s with
  | nil => exact absurd within (by simpa using after)
  | cons w ws ih =>
    rw [List.length_cons] at within inside
    have written : (s.writeXm n w).xm.wf = true := State.writeXm_wf wf n w
    have old (later : n < s.link.addr) : (s.writeXm n w).readXm s.link.addr = s.readXm s.link.addr :=
      State.readXm_writeXm_ne wf (by omega) w
    rw [State.writePass, accessesAt_single]
    by_cases here : p = n + 1
    · rw [if_pos here, access_wdatRead (s := s.writeXm n w) awake space]
      generalize hr : (s.writeXm n w).withLink _ = r
      have data : r.link.data = (s.writeXm n w).readXm s.link.addr := by rw [← hr]; rfl
      have reads : r.readXm s.link.addr = (s.writeXm n w).readXm s.link.addr := by rw [← hr]; rfl
      have wfR : r.xm.wf = true := by rw [← hr]; exact written
      rw [writePass_past (by simp [here]), writeWords_link, data]
      by_cases early : s.link.addr < p
      · rw [if_pos early, State.readXm_writeWords_ne wfR _ _ _ (.inl (by omega)), reads]
      · rw [if_neg early, old (by omega)]
    · rw [if_neg here, ih written awake space (by omega) (by omega) (by omega)]
      rw [show (s.writeXm n w).link = s.link from rfl]
      by_cases early : s.link.addr < p
      · rw [if_pos early, if_pos early]
      · rw [if_neg early, if_neg early, old (by omega)]

/-! ## The pass -/

/-- The report pass, with whatever link accesses land inside it (R172). -/
theorem reportPass_written {s : State} (awake : s.mode.mode ≠ .initial) (wf : s.xm.wf = true) (mid : List MidAccess) :
    passWritten mid s (s.reportPass mid) := by
  have inside : 0 + s.passWords.length ≤ 64 := by rw [length_passWords]
  rw [reportPass_eq]
  generalize hu : s.withLink { s.link with refreshSeq := s.link.refreshSeq + 1 } = u
  have wfU : u.xm.wf = true := by rw [← hu]; exact wf
  have readU (a : Nat) : u.readXm a = s.readXm a := by rw [← hu]; rfl
  have linkU : u.link = { s.link with refreshSeq := s.link.refreshSeq + 1 } := by rw [← hu]; rfl
  have frame : onlyExchange s u := by rw [← hu]; exact (onlyExchange_iff _ _).2 (by simp)
  obtain ⟨_, others, seq, stand, _⟩ := writePass_spec mid s.passWords 0 wfU inside
  obtain ⟨first, content, last⟩ := wordsStand_passWords (s := s) stand
  refine ⟨?_, by rw [seq, linkU], first, last, reportShows_of_wordsStand content, ?_, ?_⟩
  · have before := (onlyExchange_iff _ _).1 frame
    have pass := (onlyExchange_iff _ _).1 others
    exact (onlyExchange_iff _ _).2 (by simp_all)
  · rintro rfl
    rw [writePass_nil, writeWords_link, writeWords_engine]
    refine ⟨linkU, by rw [← hu]; rfl, fun a beyond => ?_⟩
    rw [State.readXm_writeWords_ne wfU _ _ _ (.inr (inside.trans beyond)), readU]
  · rintro p rfl after within space _
    have read := writePass_read (p := p) (n := 0) (ws := s.passWords) wfU (by rw [← hu]; exact awake)
      (by rw [linkU]; exact space) after (by rwa [Nat.zero_add, length_passWords]) inside
    rwa [linkU, readU] at read

end Sys2Proof.Machine
end

section
/-! SUPPORT and the settling of O12. The end of INITIAL (R156): the posts, the first evaluation of the hours unit, the
first refresh of the panel, and the first report pass. -/

namespace Sys2Proof.Machine

/-! ## Steps of the hours unit and of posts -/

/-- What posts and alerts change: messages with their causes, the hours unit, and the chime where it sounds. -/
structure MessageStep (s t : State) : Prop where
  frame : onlyMessages (s.withHours t.hours) t
  raises : Raises [.messageChange, .hoursAlert] s t
  silent : s.mode.mode.chimes = false → t.chime = s.chime

theorem MessageStep.refl (s : State) : MessageStep s s := ⟨(onlyMessages_iff _ _).2 (by simp), .refl _ s, fun _ => rfl⟩

theorem MessageStep.trans {a b c : State} (h : MessageStep a b) (k : MessageStep b c) : MessageStep a c := by
  have first := (onlyMessages_iff _ _).1 h.frame
  have second := (onlyMessages_iff _ _).1 k.frame
  refine ⟨(onlyMessages_iff _ _).2 (by simp_all), h.raises.trans k.raises, fun off => ?_⟩
  exact (k.silent (by rw [first.1]; exact off)).trans (h.silent off)

theorem messageStep_takeStack (s : State) (r : Stack × List Severity) : MessageStep s (s.takeStack r) :=
  ⟨(onlyMessages_iff _ _).2 (by simp), raises_takeStack s r (by simp), fun off => if_neg (by simp [off])⟩

theorem messageStep_hoursAlert (s : State) : MessageStep s (s.raise .hoursAlert) :=
  ⟨(onlyMessages_iff _ _).2 (by simp), raises_raise s (by simp), fun _ => rfl⟩

theorem messageStep_alert (s : State) (id : Identity) (sev : Severity) (old new : Bool) :
    MessageStep s (s.alert id sev old new) := by
  unfold State.alert
  split
  · exact (messageStep_takeStack s _).trans (messageStep_hoursAlert _)
  · split
    · exact messageStep_takeStack s _
    · exact .refl s

theorem messageStep_evaluateHours (s : State) : MessageStep s s.evaluateHours := by
  have fold : s.evaluateHours = (alertList s.hours (s.hours.evaluated s.tables.rules s.speed.moving)).foldl
      (fun s a => s.alert a.1 a.2.1 a.2.2.1 a.2.2.2)
      (s.withHours (s.hours.evaluated s.tables.rules s.speed.moving)) := rfl
  have evaluated : MessageStep s (s.withHours (s.hours.evaluated s.tables.rules s.speed.moving)) :=
    ⟨(onlyMessages_iff _ _).2 (by simp), .of_link rfl, fun _ => rfl⟩
  rw [fold]
  exact evaluated.trans (foldl_relates .refl .trans _ (fun u a _ => messageStep_alert u _ _ _ _) _)

/-! ## The posts at the end of INITIAL (R156) -/

/-- A post where its condition holds. -/
def State.postWhere (s : State) (b : Bool) (id : Identity) : State := if b then s.post id .amber else s

theorem messageStep_postWhere (s : State) (b : Bool) (id : Identity) : MessageStep s (s.postWhere b id) := by
  unfold State.postWhere
  split
  · exact messageStep_takeStack s _
  · exact .refl s

theorem postWhere_messages {s : State} (h : s.stack.single) (b : Bool) {id : Identity} (unit : id.origin ≠ .link) :
    (s.postWhere b id).stack.single ∧ (b = true → (s.postWhere b id).stack.keeps id .amber) ∧
      ∀ other, other ≠ id → Stack.Spares s.stack (s.postWhere b id).stack other := by
  unfold State.postWhere
  cases b with
  | false => exact ⟨h, fun yes => absurd yes (by decide), fun _ _ => .refl _ _⟩
  | true =>
    obtain ⟨single, keeps, spares⟩ := State.post_spec h id .amber unit
    exact ⟨single, fun _ => keeps, spares⟩

@[simp] theorem postWhere_speed (s : State) (b : Bool) (id : Identity) : (s.postWhere b id).speed = s.speed := by
  unfold State.postWhere
  split <;> rfl

@[simp] theorem postWhere_store (s : State) (b : Bool) (id : Identity) : (s.postWhere b id).store = s.store := by
  unfold State.postWhere
  split <;> rfl

theorem postConditions_eq (s : State) : s.postConditions =
    ((s.postWhere s.speed.k.isNone msgCalibrationMissing).postWhere s.speed.odometerLost msgOdometerLost).postWhere
      s.store.failed msgStoreFault := by
  have posts : s.postConditions =
      (((s.postWhere s.speed.k.isNone msgCalibrationMissing).postWhere
        (s.postWhere s.speed.k.isNone msgCalibrationMissing).speed.odometerLost msgOdometerLost).postWhere
        ((s.postWhere s.speed.k.isNone msgCalibrationMissing).postWhere
          (s.postWhere s.speed.k.isNone msgCalibrationMissing).speed.odometerLost msgOdometerLost).store.failed
        msgStoreFault) := rfl
  rw [posts]
  simp only [postWhere_speed, postWhere_store]

theorem messageStep_postConditions (s : State) : MessageStep s s.postConditions := by
  rw [postConditions_eq]
  exact ((messageStep_postWhere s _ _).trans (messageStep_postWhere _ _ _)).trans (messageStep_postWhere _ _ _)

/-- Each condition that holds has its message. -/
theorem postConditions_messages {s : State} (h : s.stack.single) : s.postConditions.stack.single ∧
    (s.speed.k = none → s.postConditions.stack.keeps msgCalibrationMissing .amber) ∧
    (s.speed.odometerLost = true → s.postConditions.stack.keeps msgOdometerLost .amber) ∧
    (s.store.failed = true → s.postConditions.stack.keeps msgStoreFault .amber) := by
  obtain ⟨single1, missing, _⟩ :=
    postWhere_messages h s.speed.k.isNone (id := msgCalibrationMissing) (by decide)
  obtain ⟨single2, lost, spares2⟩ :=
    postWhere_messages single1 s.speed.odometerLost (id := msgOdometerLost) (by decide)
  obtain ⟨single3, fault, spares3⟩ := postWhere_messages single2 s.store.failed (id := msgStoreFault) (by decide)
  rw [postConditions_eq]
  refine ⟨single3, fun none => ?_, fun holds => ?_, fault⟩
  · have kept := (spares2 msgCalibrationMissing (by decide)).keeps .amber (by decide) (missing (by rw [none]; rfl))
    exact (spares3 _ (by decide)).keeps .amber (by decide) kept
  · exact (spares3 _ (by decide)).keeps .amber (by decide) (lost holds)

/-! ## INITIAL is left (R156) -/

/-- UNCONFIGURED is entered, with the lamps' phase and the panel's stamp at their beginning. -/
def State.unconfigured (s : State) : State :=
  ((s.setMode .unconfigured).withLamps { s.lamps with phase := 0 }).withPanel { s.panel with stamp := 0 }

/-- The end of INITIAL up to the panel's refresh. -/
def State.judgedInitial (s : State) : State := s.unconfigured.postConditions.evaluateHours

theorem leaveInitial_eq (s : State) : s.leaveInitial = s.judgedInitial.refreshPanel := rfl

theorem messageStep_judgedInitial (s : State) : MessageStep s.unconfigured s.judgedInitial :=
  (messageStep_postConditions _).trans (messageStep_evaluateHours _)

/-- What the posts and the evaluation leave alone. -/
theorem judgedInitial_frame (s : State) : s.judgedInitial.mode = { s.mode with mode := .unconfigured } ∧
    s.judgedInitial.lamps = { s.lamps with phase := 0 } ∧ s.judgedInitial.panel = { s.panel with stamp := 0 } ∧
    s.judgedInitial.xm = s.xm ∧ s.judgedInitial.engine = s.engine ∧ s.judgedInitial.tables = s.tables ∧
    s.judgedInitial.intake = s.intake ∧ s.judgedInitial.gauges = s.gauges ∧ s.judgedInitial.speed = s.speed ∧
    s.judgedInitial.store = s.store ∧ s.judgedInitial.pending = s.pending ∧ s.judgedInitial.chime = s.chime := by
  obtain ⟨frame, _, silent⟩ := messageStep_judgedInitial s
  obtain ⟨mode, xm, engine, tables, intake, gauges, speed, store, lamps, _, panel, _, pending⟩ :=
    (onlyMessages_iff _ _).1 frame
  exact ⟨mode, lamps, panel, xm, engine, tables, intake, gauges, speed, store, pending, silent rfl⟩

theorem judgedInitial_hours (s : State) :
    s.judgedInitial.hours = s.hours.evaluated s.tables.rules s.speed.moving := by
  obtain ⟨frame, _⟩ := messageStep_postConditions s.unconfigured
  obtain ⟨_, _, _, tables, _, _, speed, _⟩ := (onlyMessages_iff _ _).1 frame
  rw [State.judgedInitial, State.evaluateHours_hours, State.postConditions_hours, tables, speed]
  rfl

/-- MODE_CHANGE pends, and causes are all that changes at the link port. -/
theorem judgedInitial_link (s : State) : pends s.judgedInitial .modeChange ∧
    s.judgedInitial.link = { s.link with causes := s.judgedInitial.link.causes } := by
  obtain ⟨_, raises, _⟩ := messageStep_judgedInitial s
  have entered : pends s.unconfigured .modeChange := pends_raise (s.withMode { s.mode with mode := .unconfigured }) _
  exact ⟨raises.pends _ entered, raises.link⟩

theorem judgedInitial_messages {s : State} (h : s.stack.single) :
    (s.speed.k = none → s.judgedInitial.stack.keeps msgCalibrationMissing .amber) ∧
    (s.speed.odometerLost = true → s.judgedInitial.stack.keeps msgOdometerLost .amber) ∧
    (s.store.failed = true → s.judgedInitial.stack.keeps msgStoreFault .amber) := by
  obtain ⟨single, missing, lost, fault⟩ := postConditions_messages (s := s.unconfigured) h
  obtain ⟨_, spares⟩ := evaluateHours_follows single
  exact ⟨fun none => (spares _ (by decide)).keeps _ (by decide) (missing none),
    fun holds => (spares _ (by decide)).keeps _ (by decide) (lost holds),
    fun holds => (spares _ (by decide)).keeps _ (by decide) (fault holds)⟩

theorem judgedInitial_alertsFollow (s : State) : alertsFollow s s.judgedInitial :=
  evaluateHours_alertsFollow_from (.of_hours rfl (State.postConditions_hours _))
    fun h => (postConditions_messages (s := s.unconfigured) h).1

/-! ## The panel's first refresh -/

/-- In UNCONFIGURED a refresh changes the panel alone: the TEXT view, with nothing displayed (R138). -/
theorem refreshPanel_of_unconfigured {s : State} (h : s.mode.mode = .unconfigured) :
    s.refreshPanel = s.withPanel s.panelNow ∧ s.panelNow.stamp = s.panel.stamp ∧ s.panelNow.view = .text ∧
      s.panelNow.backlight = true ∧ s.panelNow.displayed = none ∧
      s.panelNow.image = codes "CLUSTER NOT         CONFIGURED          " := by
  have text := viewNow_unconfigured h
  obtain ⟨hidden, _, stack⟩ := refreshPanel_of_other (s := s) (by rw [text]; decide)
  have frame := refreshPanel_frame s
  rw [refreshPanel_panel, stack] at frame
  refine ⟨frame, rfl, text, ?_, hidden, (imageNow_text text).trans textImage_eq⟩
  rw [State.panelNow, text]
  rfl

theorem alertsFollow_withPanel {s m : State} (h : alertsFollow s m) (p : Panel) : alertsFollow s (m.withPanel p) := h

/-- Settles O12: 20 ms after the cause of the reset INITIAL ends in UNCONFIGURED, with the posts, the alerts, the panel
and the report block of that state. -/
theorem initialEndBecomesUnconfigured : Obligations.InitialEndBecomesUnconfigured := by
  unfold Obligations.InitialEndBecomesUnconfigured
  refine ⟨fun mid s notDue => congrArg Host.Outcome.next (if_neg ?_), fun mid s initial free settled wf => ?_⟩
  · rintro ⟨initial, free, settled⟩
    obtain out | held | early := notDue
    · exact out initial
    · rw [free] at held
      exact absurd held (by decide)
    · exact early settled
  · obtain ⟨mode, lamps, panel, xm, engine, tables, intake, gauges, speed, store, pending, chime⟩ :=
      judgedInitial_frame s
    have hours := judgedInitial_hours s
    obtain ⟨pends, link⟩ := judgedInitial_link s
    have alerts := judgedInitial_alertsFollow s
    have messages := judgedInitial_messages (s := s)
    have leaves : exec (.initialEnd mid) s = .next (s.judgedInitial.refreshPanel.reportPass mid) :=
      congrArg Host.Outcome.next (if_pos ⟨initial, free, settled⟩)
    rw [leaves]
    generalize s.judgedInitial = x at *
    have unconfigured : x.mode.mode = .unconfigured := by rw [mode]
    obtain ⟨refreshed, stamp, view, backlight, displayed, image⟩ := refreshPanel_of_unconfigured unconfigured
    rw [refreshed]
    refine ⟨x.withPanel x.panelNow, _, rfl, reportPass_written ?_ (xm ▸ wf) mid, mode, pends, lamps, ?_, view,
      backlight, displayed, image, fun capacity => ?_, ?_, alertsFollow_withPanel alerts _, ?_, ?_, ?_, link, xm,
      chime, engine, tables, intake, gauges, speed, store, pending⟩
    · rw [State.withPanel_mode, unconfigured]
      decide
    · exact stamp.trans (by rw [panel])
    · obtain ⟨_, _, single, _⟩ := capacity
      exact messages single
    · rw [State.withPanel_hours, hours]
      exact evaluated_judged _ _ _
    · rw [State.withPanel_hours, hours]
      rfl
    · rw [State.withPanel_hours, hours]
      rfl
    · intro d
      rw [State.withPanel_hours, hours]
      cases d <;> rfl

end Sys2Proof.Machine
end
